-- ==== Sys2Proof/Word.lean ====
section
/-! DEFINITION. The plain words of the model, and finite maps as lists (entries by rising key, an absent key
reading as the map's default), so that every state is plain data. -/
namespace Sys2Proof

abbrev Byte := BitVec 8
abbrev Word := BitVec 64
abbrev Row := BitVec 1024
abbrev SlotWord := BitVec 32
abbrev BundleWord := BitVec 256

/-- A finite map from Nat as a list of entries. -/
abbrev Tab (α : Type) := List (Nat × α)

/-- The entry of key k, or d. -/
def Tab.get {α : Type} (d : α) : Tab α → Nat → α
  | [], _ => d
  | (k', v) :: t, k => if k = k' then v else Tab.get d t k

/-- Puts v at key k, in the place the rising order gives it. -/
def Tab.put {α : Type} : Tab α → Nat → α → Tab α
  | [], k, v => [(k, v)]
  | (k', v') :: t, k, v =>
    if k < k' then (k, v) :: (k', v') :: t
    else if k = k' then (k, v) :: t
    else (k', v') :: Tab.put t k v

/-- Drops every entry of key k. -/
def Tab.drop {α : Type} (t : Tab α) (k : Nat) : Tab α :=
  List.filter (fun e => decide (e.1 ≠ k)) t

/-- Puts v at key k, listing no entry equal to the default d: the canonical form's write. -/
def Tab.set {α : Type} [DecidableEq α] (d : α) (t : Tab α) (k : Nat) (v : α) : Tab α :=
  if v = d then t.drop k else t.put k v

/-- Changes the entry of key k. -/
def Tab.upd {α : Type} (d : α) (t : Tab α) (k : Nat) (f : α → α) : Tab α := t.put k (f (t.get d k))

/-- Keys strictly rising. -/
def Tab.sorted {α : Type} : Tab α → Bool
  | [] => true
  | [_] => true
  | a :: b :: t => decide (a.1 < b.1) && Tab.sorted (b :: t)

/-- The canonical form: keys strictly rising and no entry equal to the default. -/
def Tab.canon {α : Type} [DecidableEq α] (d : α) (t : Tab α) : Bool :=
  Tab.sorted t && t.all (fun e => decide (e.2 ≠ d))

/-- Bits hi down to lo of a natural number. -/
def bits (n hi lo : Nat) : Nat := (n / 2 ^ lo) % 2 ^ (hi + 1 - lo)

/-- The field of len bits from bit lo. -/
def fld {n : Nat} (w : BitVec n) (lo len : Nat) : BitVec len := w.extractLsb' lo len

/-- Replaces the len bits from bit lo. -/
def setFld {n : Nat} (w : BitVec n) (lo len : Nat) (v : Nat) : BitVec n :=
  let m : Nat := (2 ^ len - 1) * 2 ^ lo
  (w &&& ~~~ (BitVec.ofNat n m)) ||| BitVec.ofNat n ((v % 2 ^ len) * 2 ^ lo)

/-- The number a Bool stands for. -/
def bit (b : Bool) : Nat := if b then 1 else 0

end Sys2Proof
end

