-- ==== Sys2Proof/Config.lean ====
section
/-! DEFINITION. What the spec leaves open: free values, constants with no body, so that no proof can see what they
are, applied to the counter State.freeCount or to what they depend on; and the fixed facts of the device that
tables give (temperature table, operating points, current weights are with the operations that use them). -/
namespace Sys2Proof.Config

/-- A byte the spec leaves unspecified (19 R337: the bytes a poisoned host read carries; 24 R399: what a confirm
test leaves), drawn n-th and at offset i. -/
opaque freeByte : Nat → Nat → BitVec 8

/-- Byte i of the key pair of a partition that a reset and an enabling of it drew (19 R346): no path reads it. -/
opaque keyByte : Nat → Nat → Nat → Nat → BitVec 8

/-- Byte i of the Falcon-1024 padded signature over a digest (19 R347, R348): the private key is drawn on die and no
path reads it. -/
opaque signatureByte : List (BitVec 8) → Nat → BitVec 8

/-- Byte i of the digest of firmware image k (19 R347): the images come from the boot flash. -/
opaque imageDigest : Nat → Nat → BitVec 8

/-- Whether block k of a pallet's low copy holds the uncorrectable data at which the n-th such move was abandoned, and one
block that does (15 R308). -/
opaque badBlock : Nat → Nat → Bool
opaque firstBad : Nat → Nat

/-- The 64-byte block of local HBM that a confirm test of a channel overwrites with its i-th burst (24 R399: the PHY
chooses the locations). -/
opaque confirmBlock : Nat → Nat → Nat → Nat

/-- The channel that a 64-byte block of local HBM lies in: the address map of channels is not given (24 R398). -/
opaque channelOf : Nat → Nat

end Sys2Proof.Config
end

