-- ==== Sys2Proof/Syntax.lean ====
section
/-! DEFINITION. The instruction set of the Rioth architecture as syntax: one constructor per row of the
opcode table (177 slot words, 16 microwords, 87 steps of the device's other agents). A slot word's fields stand
as the raw fields of its layout (02_bundle_and_assembly.md R39, R42, R43, R45, R46, R47), a microword's as
those of Table 6.8a (06_matrix_unit.md R149), and an agent's step names its actor and what its environment
brings to it. -/
namespace Sys2Proof

/-- What a global access's response brings from outside the core: data, or a fault that only the response shows
(09_memory_instructions.md R197). -/
inductive Resp where
  /-- the data arrives; outside this device, the bytes given stand from an address on, in the host's memory or another
  device's (19 R339, R344) -/
  | data (addr : Nat) (bytes : List (BitVec 8))
  /-- a plain load of local memory returns what stood there before writes of its context's own copy commands that no edge
  orders before it (11 R229, R231, R235) -/
  | older
  /-- "link lost" (19 R339, R344) -/
  | linkLost
  /-- "host abort" (19 R339) -/
  | hostAbort
  /-- a remote target refuses with "permission" (19 R344) -/
  | refused
  /-- a remote target's bytes are poisoned, or lie in a retired frame of it (08 R403, 21 R366) -/
  | poisoned
  deriving DecidableEq, Repr

/-- The AtomicOps the host port completes (19_attachment_security.md Table 19.1). -/
inductive HostAtomic where
  | fetchAdd
  | swap
  | cas
  deriving DecidableEq, Repr

/-- What an incoming Difosal request asks for (19_attachment_security.md R344). -/
inductive DifReq where
  /-- a read of n bytes at a local address -/
  | read (addr n : Nat)
  /-- a write of bytes at a local address -/
  | write (addr : Nat) (data : List (BitVec 8))
  /-- an atomic: its opcode of Table 12.1, size in bytes, operand and compare operand -/
  | atomic (op addr n : Nat) (x y : BitVec 64)
  /-- a window contribution to element elem of window wid of partition part of this device, by atomic op of n bytes -/
  | contribute (op part wid elem n round : Nat) (x : BitVec 64)
  deriving DecidableEq, Repr

/-- Who performs a device-register access (18_isolation_translation.md R326; 19 R337; 24 R397). -/
inductive Requester where
  /-- host function f; function 0 is the management function -/
  | host (f : Nat)
  /-- a privileged context of a partition -/
  | context (part : Nat)
  /-- a boot task -/
  | bootTask
  deriving DecidableEq, Repr

/-- How the copying of a moving pallet ended (15 R308): the pallet's virtual address, and whether the low copy, the source of
a move up, met uncorrectable data. -/
structure MoveEnd where
  va : Nat
  bad : Bool
  deriving DecidableEq, Repr

/-- Where an uncorrectable error strikes (21_traps_and_preemption.md Table 21.7c). -/
inductive ErrSite where
  /-- a scratchpad row, by row number of the running holder -/
  | row (core r : Nat)
  /-- a 64-byte block of local HBM -/
  | hbm (addr : Nat)
  /-- state of a context that carries no poison bit -/
  | context (core slot : Nat)
  /-- state of a core that belongs to no job -/
  | coreState (core : Nat)
  /-- the shadow store of a core: state of a context of the swapped-out holder, or state that belongs to none -/
  | shadow (core : Nat) (slot : Option Nat)
  /-- a row of the bulk store, by physical row: one that a swapped-out holder keeps, too -/
  | bulk (core r : Nat)
  /-- state of the matrix unit: accumulators, buffers, its queue's entries, microprogram store and format table -/
  | engine (core : Nat)
  /-- state that belongs to a job away from its contexts: a version list, a translation -/
  | jobState (job : Nat)
  deriving DecidableEq, Repr

/-- The instruction set: one constructor per row of spec/opcode_table.json. -/
inductive Instr where
  /-- NOP: The all-zero word in any slot; it does nothing. (R35) -/
  | nop
  /-- BR: Branches by a bundle offset when flag fN equals the sense bit. (R276) -/
  | br (n : BitVec 1) (f : BitVec 4) (o : BitVec 16)
  /-- BEM: Branches when all 64 bits of the lane mask are zero. (R276) -/
  | bem (o : BitVec 16)
  /-- BNEM: Branches when some bit of the lane mask is one. (R276) -/
  | bnem (o : BitVec 16)
  /-- CALL: Branches and writes the return bundle index i + 1 to sd. (R276) -/
  | call (d : BitVec 5) (o : BitVec 16)
  /-- RET: Branches to the bundle index held in sa. (R276) -/
  | ret (a : BitVec 5)
  /-- SJMP: Transfers to bundle 0 of the segment at sa under a flag test, or enters an armed loop-buffer half. (R292) -/
  | sjmp (n : BitVec 1) (f : BitVec 4) (a : BitVec 5)
  /-- LOOP: Sets up course cN with its trip count taken from a register. (R278) -/
  | loop (c : BitVec 3) (a : BitVec 5) (l : BitVec 9) (m : BitVec 4)
  /-- LOOPI: Sets up course cN with an immediate trip count of 1 to 1,024. (R278) -/
  | loopi (c : BitVec 3) (t : BitVec 10) (l : BitVec 9) (m : BitVec 4)
  /-- IGATE: Gates the selected slots of its bundle on a first, last, notfirst or notlast test of a course. (R283) -/
  | igate (c : BitVec 3) (w : BitVec 2) (s : BitVec 7)
  /-- RWAIT: Blocks until the ring holds at least n filled or n free slots. (R285) -/
  | rwait (q : BitVec 4) (w : BitVec 1) (n : BitVec 8)
  /-- BINDF: Binds flag fN to an engine event and clears its view. (R286) -/
  | bindf (f : BitVec 4) (e : BitVec 6) (i : BitVec 8)
  /-- YIELD: Gives the next cycle to the next ready context. (R272) -/
  | yield
  /-- EXIT: Waits for the context's commands and queues to drain, then retires the task and frees its resources. (R273) -/
  | exit
  /-- SPAWN: Reads a launch record and enqueues the child task under a split stream identity. (R267) -/
  | spawn (a : BitVec 5) (r : BitVec 2)
  /-- SPAWNS: Launches two speculative successors as a pair and returns the pair's handle. (R268) -/
  | spawns (d : BitVec 5) (a : BitVec 5) (b : BitVec 5) (r : BitVec 2)
  /-- DECIDE: Settles a speculative pair: releases the winner's held publications and squashes the loser. (R270) -/
  | decide (a : BitVec 5) (b : BitVec 5)
  /-- OPPT: Sets the requested operating point of the core's island. (R301) -/
  | oppt (t : BitVec 3)
  /-- HINT: Sets the context's phase hint to compute, memory or waiting. (R304) -/
  | hint (h : BitVec 2)
  /-- SBAR: Stream barrier: orders the selected access classes of earlier engine commands before later ones. (R236) -/
  | sbar (m : BitVec 3)
  /-- GROW: Requests r more vector registers; blocks while the core's pool cannot supply them. (R288) -/
  | grow (n : BitVec 3)
  /-- SHRINK: Releases the top r vector registers of the allotment. (R289) -/
  | shrink (n : BitVec 3)
  /-- TRAP: Raises software cause 47 with a code after its bundle takes effect. (R363) -/
  | trap (c : BitVec 8)
  /-- ERET: Returns from a handler: restores the courses and user mode and transfers to CTX.TPC. (R362) -/
  | eret
  /-- SRR: Reads a system register into sd. (R374) -/
  | srr (d : BitVec 5) (s : BitVec 12)
  /-- SRW: Writes sa to a system register at issue. (R374) -/
  | srw (a : BitVec 5) (s : BitVec 12)
  /-- HALT: Privileged: loses the context's job with cause 50. (R364) -/
  | halt
  /-- PWAIT: Conditions slots 1 to 7 on flags and blocks until a selected field is satisfied. (R284) -/
  | pwait (g : BitVec 4) (f : BitVec 4) (e : BitVec 4) (d : BitVec 4) (c : BitVec 4) (b : BitVec 4) (a : BitVec 4)
  /-- ADD: Scalar 64-bit wrapping add. (R90) -/
  | add (p : BitVec 4) (d : BitVec 5) (a : BitVec 5) (b : BitVec 5)
  /-- SUB: Scalar 64-bit wrapping subtract. (R90) -/
  | sub (p : BitVec 4) (d : BitVec 5) (a : BitVec 5) (b : BitVec 5)
  /-- AND: Scalar bitwise and. (R90) -/
  | and (p : BitVec 4) (d : BitVec 5) (a : BitVec 5) (b : BitVec 5)
  /-- OR: Scalar bitwise or. (R90) -/
  | or (p : BitVec 4) (d : BitVec 5) (a : BitVec 5) (b : BitVec 5)
  /-- XOR: Scalar bitwise exclusive or. (R90) -/
  | xor (p : BitVec 4) (d : BitVec 5) (a : BitVec 5) (b : BitVec 5)
  /-- ANDN: Scalar a and not b. (R90) -/
  | andn (p : BitVec 4) (d : BitVec 5) (a : BitVec 5) (b : BitVec 5)
  /-- SHL: Scalar shift left by b<5:0>. (R90) -/
  | shl (p : BitVec 4) (d : BitVec 5) (a : BitVec 5) (b : BitVec 5)
  /-- SHR: Scalar logical shift right by b<5:0>. (R90) -/
  | shr (p : BitVec 4) (d : BitVec 5) (a : BitVec 5) (b : BitVec 5)
  /-- SAR: Scalar arithmetic shift right by b<5:0>. (R90) -/
  | sar (p : BitVec 4) (d : BitVec 5) (a : BitVec 5) (b : BitVec 5)
  /-- ROR: Scalar rotate right by b<5:0>. (R90) -/
  | ror (p : BitVec 4) (d : BitVec 5) (a : BitVec 5) (b : BitVec 5)
  /-- FSHL: Scalar funnel shift left of the sa:sb concatenation. (R92) -/
  | fshl (p : BitVec 4) (d : BitVec 5) (a : BitVec 5) (b : BitVec 5) (x : BitVec 5)
  /-- FSHR: Scalar funnel shift right of the sa:sb concatenation. (R92) -/
  | fshr (p : BitVec 4) (d : BitVec 5) (a : BitVec 5) (b : BitVec 5) (x : BitVec 5)
  /-- MUL: Scalar multiply, low 64 bits. (R90) -/
  | mul (p : BitVec 4) (d : BitVec 5) (a : BitVec 5) (b : BitVec 5)
  /-- MULH: Scalar signed multiply, high 64 bits. (R90) -/
  | mulh (p : BitVec 4) (d : BitVec 5) (a : BitVec 5) (b : BitVec 5)
  /-- MULHU: Scalar unsigned multiply, high 64 bits. (R90) -/
  | mulhu (p : BitVec 4) (d : BitVec 5) (a : BitVec 5) (b : BitVec 5)
  /-- DIV: Scalar signed division, truncated toward zero, without traps. (R91) -/
  | div (p : BitVec 4) (d : BitVec 5) (a : BitVec 5) (b : BitVec 5)
  /-- DIVU: Scalar unsigned division. (R91) -/
  | divu (p : BitVec 4) (d : BitVec 5) (a : BitVec 5) (b : BitVec 5)
  /-- REM: Scalar signed remainder. (R91) -/
  | rem (p : BitVec 4) (d : BitVec 5) (a : BitVec 5) (b : BitVec 5)
  /-- REMU: Scalar unsigned remainder. (R91) -/
  | remu (p : BitVec 4) (d : BitVec 5) (a : BitVec 5) (b : BitVec 5)
  /-- MIN: Scalar signed minimum. (R90) -/
  | min (p : BitVec 4) (d : BitVec 5) (a : BitVec 5) (b : BitVec 5)
  /-- MAX: Scalar signed maximum. (R90) -/
  | max (p : BitVec 4) (d : BitVec 5) (a : BitVec 5) (b : BitVec 5)
  /-- MINU: Scalar unsigned minimum. (R90) -/
  | minu (p : BitVec 4) (d : BitVec 5) (a : BitVec 5) (b : BitVec 5)
  /-- MAXU: Scalar unsigned maximum. (R90) -/
  | maxu (p : BitVec 4) (d : BitVec 5) (a : BitVec 5) (b : BitVec 5)
  /-- SEL: Scalar select: sa or sb by a flag. (R98) -/
  | sel (p : BitVec 4) (d : BitVec 5) (a : BitVec 5) (b : BitVec 5) (f : BitVec 4)
  /-- CLZ: Counts the leading zero bits of sa. (R93) -/
  | clz (p : BitVec 4) (d : BitVec 5) (a : BitVec 5)
  /-- POPC: Counts the one bits of sa. (R93) -/
  | popc (p : BitVec 4) (d : BitVec 5) (a : BitVec 5)
  /-- BREV: Reverses the bit order of sa. (R93) -/
  | brev (p : BitVec 4) (d : BitVec 5) (a : BitVec 5)
  /-- ADDI: Adds a sign-extended 12-bit immediate. (R94) -/
  | addi (p : BitVec 4) (d : BitVec 5) (a : BitVec 5) (i : BitVec 12)
  /-- ANDI: Ands with a zero-extended 12-bit immediate. (R94) -/
  | andi (p : BitVec 4) (d : BitVec 5) (a : BitVec 5) (i : BitVec 12)
  /-- ORI: Ors with a zero-extended 12-bit immediate. (R94) -/
  | ori (p : BitVec 4) (d : BitVec 5) (a : BitVec 5) (i : BitVec 12)
  /-- XORI: Exclusive-ors with a zero-extended 12-bit immediate. (R94) -/
  | xori (p : BitVec 4) (d : BitVec 5) (a : BitVec 5) (i : BitVec 12)
  /-- SHLI: Shifts left by an immediate. (R94) -/
  | shli (p : BitVec 4) (d : BitVec 5) (a : BitVec 5) (h : BitVec 6)
  /-- SHRI: Shifts right logically by an immediate. (R94) -/
  | shri (p : BitVec 4) (d : BitVec 5) (a : BitVec 5) (h : BitVec 6)
  /-- SARI: Shifts right arithmetically by an immediate. (R94) -/
  | sari (p : BitVec 4) (d : BitVec 5) (a : BitVec 5) (h : BitVec 6)
  /-- RORI: Rotates right by an immediate. (R94) -/
  | rori (p : BitVec 4) (d : BitVec 5) (a : BitVec 5) (h : BitVec 6)
  /-- MOVI: Writes a sign-extended 17-bit immediate to sd. (R95) -/
  | movi (p : BitVec 4) (d : BitVec 5) (i : BitVec 17)
  /-- MOVS: Shifts sd<47:0> left by 16 bits and inserts a 16-bit immediate. (R95) -/
  | movs (p : BitVec 4) (d : BitVec 5) (i : BitVec 16)
  /-- CMP: Integer compare of two registers into a flag. (R97) -/
  | cmp (p : BitVec 4) (f : BitVec 4) (c : BitVec 4) (a : BitVec 5) (b : BitVec 5)
  /-- CMPI: Integer compare of a register with a 9-bit immediate into a flag. (R97) -/
  | cmpi (p : BitVec 4) (f : BitVec 4) (c : BitVec 4) (a : BitVec 5) (i : BitVec 9)
  /-- CB: Compares two registers and branches by an 8-bit offset. (R99) -/
  | cb (p : BitVec 4) (c : BitVec 4) (a : BitVec 5) (b : BitVec 5) (o : BitVec 8)
  /-- FADD: Scalar FP32 add, rounded once. (R101) -/
  | fadd (p : BitVec 4) (d : BitVec 5) (a : BitVec 5) (b : BitVec 5)
  /-- FSUB: Scalar FP32 subtract. (R101) -/
  | fsub (p : BitVec 4) (d : BitVec 5) (a : BitVec 5) (b : BitVec 5)
  /-- FMUL: Scalar FP32 multiply. (R101) -/
  | fmul (p : BitVec 4) (d : BitVec 5) (a : BitVec 5) (b : BitVec 5)
  /-- FMA: Scalar FP32 fused multiply-add with sd as the addend. (R101) -/
  | fma (p : BitVec 4) (d : BitVec 5) (a : BitVec 5) (b : BitVec 5)
  /-- FCMP: FP32 compare into a flag. (R102) -/
  | fcmp (p : BitVec 4) (f : BitVec 4) (c : BitVec 4) (a : BitVec 5) (b : BitVec 5)
  /-- FCVT: Converts between FP32 and a 16-bit float format. (R103) -/
  | fcvt (p : BitVec 4) (d : BitVec 5) (a : BitVec 5) (s : BitVec 4) (t : BitVec 4)
  /-- LD: Global load, zero-extended. (R195) -/
  | ld (d : BitVec 5) (a : BitVec 5) (z : BitVec 2) (i : BitVec 11)
  /-- LDX: Global load, sign-extended. (R195) -/
  | ldx (d : BitVec 5) (a : BitVec 5) (z : BitVec 2) (i : BitVec 11)
  /-- ST: Global store. (R195) -/
  | st (s : BitVec 5) (a : BitVec 5) (z : BitVec 2) (i : BitVec 11)
  /-- LDAQ: Global load with acquire at a scope. (R199) -/
  | ldaq (d : BitVec 5) (a : BitVec 5) (z : BitVec 2) (c : BitVec 3) (i : BitVec 11)
  /-- STRL: Global store with release at a scope. (R199) -/
  | strl (s : BitVec 5) (a : BitVec 5) (z : BitVec 2) (c : BitVec 3) (i : BitVec 11)
  /-- MARK: Orders the context's two queues at context scope. (R199) -/
  | mark
  /-- FENCE: Orders queue entries and engine pushes at a scope. (R199) -/
  | fence (c : BitVec 3)
  /-- AADD: Atomic add. (R240) -/
  | aadd (d : BitVec 5) (a : BitVec 5) (b : BitVec 5) (z : BitVec 2) (c : BitVec 3)
  /-- AAND: Atomic and. (R240) -/
  | aand (d : BitVec 5) (a : BitVec 5) (b : BitVec 5) (z : BitVec 2) (c : BitVec 3)
  /-- AOR: Atomic or. (R240) -/
  | aor (d : BitVec 5) (a : BitVec 5) (b : BitVec 5) (z : BitVec 2) (c : BitVec 3)
  /-- AXOR: Atomic exclusive or. (R240) -/
  | axor (d : BitVec 5) (a : BitVec 5) (b : BitVec 5) (z : BitVec 2) (c : BitVec 3)
  /-- AMIN: Atomic signed minimum. (R240) -/
  | amin (d : BitVec 5) (a : BitVec 5) (b : BitVec 5) (z : BitVec 2) (c : BitVec 3)
  /-- AMAX: Atomic signed maximum. (R240) -/
  | amax (d : BitVec 5) (a : BitVec 5) (b : BitVec 5) (z : BitVec 2) (c : BitVec 3)
  /-- AMINU: Atomic unsigned minimum. (R240) -/
  | aminu (d : BitVec 5) (a : BitVec 5) (b : BitVec 5) (z : BitVec 2) (c : BitVec 3)
  /-- AMAXU: Atomic unsigned maximum. (R240) -/
  | amaxu (d : BitVec 5) (a : BitVec 5) (b : BitVec 5) (z : BitVec 2) (c : BitVec 3)
  /-- AFADD: Atomic FP32 add with an invalid indication. (R241) -/
  | afadd (d : BitVec 5) (a : BitVec 5) (b : BitVec 5) (c : BitVec 3)
  /-- AFMIN: Atomic FP32 minimum. (R241) -/
  | afmin (d : BitVec 5) (a : BitVec 5) (b : BitVec 5) (c : BitVec 3)
  /-- AFMAX: Atomic FP32 maximum. (R241) -/
  | afmax (d : BitVec 5) (a : BitVec 5) (b : BitVec 5) (c : BitVec 3)
  /-- ASWP: Atomic swap. (R240) -/
  | aswp (d : BitVec 5) (a : BitVec 5) (b : BitVec 5) (z : BitVec 2) (c : BitVec 3)
  /-- ACAS: Atomic compare and swap. (R240) -/
  | acas (d : BitVec 5) (a : BitVec 5) (b : BitVec 5) (x : BitVec 5) (z : BitVec 2) (c : BitVec 3)
  /-- VLD: Reads a named version of a block, waiting for its publication. (R252) -/
  | vld (d : BitVec 5) (a : BitVec 5) (b : BitVec 5) (z : BitVec 2)
  /-- VLDLE: Reads the newest qualifying version at or below v. (R252) -/
  | vldle (d : BitVec 5) (a : BitVec 5) (b : BitVec 5) (z : BitVec 2)
  /-- VST: Writes into a version of a block, creating it if needed. (R250) -/
  | vst (s : BitVec 5) (a : BitVec 5) (b : BitVec 5) (z : BitVec 2)
  /-- VPUB: Publishes version n of every block the context writes, in one step. (R251) -/
  | vpub (a : BitVec 5) (b : BitVec 5)
  /-- VFLOOR: Raises the region floor and reclaims old versions. (R253) -/
  | vfloor (a : BitVec 5) (b : BitVec 5)
  /-- VDROP: Removes every version n and above of the region. (R254) -/
  | vdrop (a : BitVec 5) (b : BitVec 5)
  /-- VQUERY: Returns a block's newest published version and an unpublished bit. (R254) -/
  | vquery (d : BitVec 5) (a : BitVec 5)
  /-- WAITA: Blocks until a memory location is unequal or equal to a value. (R200) -/
  | waita (b : BitVec 5) (a : BitVec 5) (z : BitVec 2) (n : BitVec 1)
  /-- TLOOK: Looks up a tag in the core's tag table. (R202) -/
  | tlook (d : BitVec 5) (a : BitVec 5)
  /-- TSET: Sets a tag-table entry valid with a tag. (R202) -/
  | tset (a : BitVec 5) (b : BitVec 5)
  /-- TCLR: Invalidates a tag-table entry. (R202) -/
  | tclr (a : BitVec 5)
  /-- SPILL: Writes a register to a spill slot, in the carve-out or redirected to memory. (R201) -/
  | spill (s : BitVec 5) (n : BitVec 16)
  /-- FILL: Reads a spill slot into a register. (R201) -/
  | fill (d : BitVec 5) (n : BitVec 16)
  /-- V_FADD: Vector lane-wise float add. (R109) -/
  | vFadd (p : BitVec 4) (d : BitVec 6) (a : BitVec 6) (b : BitVec 6) (t : BitVec 4)
  /-- V_FSUB: Vector float subtract. (R109) -/
  | vFsub (p : BitVec 4) (d : BitVec 6) (a : BitVec 6) (b : BitVec 6) (t : BitVec 4)
  /-- V_FMUL: Vector float multiply. (R109) -/
  | vFmul (p : BitVec 4) (d : BitVec 6) (a : BitVec 6) (b : BitVec 6) (t : BitVec 4)
  /-- V_FMA: Vector fused multiply-add with vd as the addend. (R109) -/
  | vFma (p : BitVec 4) (d : BitVec 6) (a : BitVec 6) (b : BitVec 6) (t : BitVec 4)
  /-- V_FMIN: Vector float minimum. (R110) -/
  | vFmin (p : BitVec 4) (d : BitVec 6) (a : BitVec 6) (b : BitVec 6) (t : BitVec 4)
  /-- V_FMAX: Vector float maximum. (R110) -/
  | vFmax (p : BitVec 4) (d : BitVec 6) (a : BitVec 6) (b : BitVec 6) (t : BitVec 4)
  /-- FABS: Vector float absolute value. (R109) -/
  | fabs (p : BitVec 4) (d : BitVec 6) (a : BitVec 6) (t : BitVec 4)
  /-- FNEG: Vector float negation. (R109) -/
  | fneg (p : BitVec 4) (d : BitVec 6) (a : BitVec 6) (t : BitVec 4)
  /-- RCP: Correctly rounded reciprocal in FP32. (R111) -/
  | rcp (p : BitVec 4) (d : BitVec 6) (a : BitVec 6)
  /-- RSQRT: Correctly rounded reciprocal square root. (R111) -/
  | rsqrt (p : BitVec 4) (d : BitVec 6) (a : BitVec 6)
  /-- EXP2: Correctly rounded 2 to the power x. (R111) -/
  | exp2 (p : BitVec 4) (d : BitVec 6) (a : BitVec 6)
  /-- LOG2: Correctly rounded base-2 logarithm. (R111) -/
  | log2 (p : BitVec 4) (d : BitVec 6) (a : BitVec 6)
  /-- CVT: Vector conversion between the listed type pairs. (R112) -/
  | cvt (p : BitVec 4) (d : BitVec 6) (a : BitVec 6) (h : BitVec 1) (s : BitVec 4) (t : BitVec 4)
  /-- V_ADD: Vector integer add. (R113) -/
  | vAdd (p : BitVec 4) (d : BitVec 6) (a : BitVec 6) (b : BitVec 6) (t : BitVec 4)
  /-- V_SUB: Vector integer subtract. (R113) -/
  | vSub (p : BitVec 4) (d : BitVec 6) (a : BitVec 6) (b : BitVec 6) (t : BitVec 4)
  /-- V_MUL: Vector integer multiply, low bits. (R113) -/
  | vMul (p : BitVec 4) (d : BitVec 6) (a : BitVec 6) (b : BitVec 6) (t : BitVec 4)
  /-- V_MIN: Vector integer minimum. (R113) -/
  | vMin (p : BitVec 4) (d : BitVec 6) (a : BitVec 6) (b : BitVec 6) (t : BitVec 4)
  /-- V_MAX: Vector integer maximum. (R113) -/
  | vMax (p : BitVec 4) (d : BitVec 6) (a : BitVec 6) (b : BitVec 6) (t : BitVec 4)
  /-- V_AND: Vector bitwise and. (R113) -/
  | vAnd (p : BitVec 4) (d : BitVec 6) (a : BitVec 6) (b : BitVec 6) (t : BitVec 4)
  /-- V_OR: Vector bitwise or. (R113) -/
  | vOr (p : BitVec 4) (d : BitVec 6) (a : BitVec 6) (b : BitVec 6) (t : BitVec 4)
  /-- V_XOR: Vector bitwise exclusive or. (R113) -/
  | vXor (p : BitVec 4) (d : BitVec 6) (a : BitVec 6) (b : BitVec 6) (t : BitVec 4)
  /-- V_SHL: Vector shift left by lane amounts. (R113) -/
  | vShl (p : BitVec 4) (d : BitVec 6) (a : BitVec 6) (b : BitVec 6) (t : BitVec 4)
  /-- V_SHR: Vector logical shift right. (R113) -/
  | vShr (p : BitVec 4) (d : BitVec 6) (a : BitVec 6) (b : BitVec 6) (t : BitVec 4)
  /-- V_SAR: Vector arithmetic shift right. (R113) -/
  | vSar (p : BitVec 4) (d : BitVec 6) (a : BitVec 6) (b : BitVec 6) (t : BitVec 4)
  /-- V_SHLI: Vector shift left by an immediate. (R113) -/
  | vShli (p : BitVec 4) (d : BitVec 6) (a : BitVec 6) (i : BitVec 6) (t : BitVec 4)
  /-- V_SHRI: Vector logical shift right by an immediate. (R113) -/
  | vShri (p : BitVec 4) (d : BitVec 6) (a : BitVec 6) (i : BitVec 6) (t : BitVec 4)
  /-- V_SARI: Vector arithmetic shift right by an immediate. (R113) -/
  | vSari (p : BitVec 4) (d : BitVec 6) (a : BitVec 6) (i : BitVec 6) (t : BitVec 4)
  /-- V_FSHL: Vector funnel shift left with per-lane amounts from vd. (R114) -/
  | vFshl (p : BitVec 4) (d : BitVec 6) (a : BitVec 6) (b : BitVec 6) (t : BitVec 4)
  /-- V_FSHR: Vector funnel shift right. (R114) -/
  | vFshr (p : BitVec 4) (d : BitVec 6) (a : BitVec 6) (b : BitVec 6) (t : BitVec 4)
  /-- CMPM: Sets the mask top to the parent entry and a lane comparison. (R108) -/
  | cmpm (p : BitVec 4) (c : BitVec 4) (a : BitVec 6) (b : BitVec 6) (t : BitVec 4)
  /-- V_SEL: Merges va and vb by the lane mask into all lanes of vd. (R115) -/
  | vSel (p : BitVec 4) (d : BitVec 6) (a : BitVec 6) (b : BitVec 6) (t : BitVec 4)
  /-- MPUSH: Pushes a mask entry of top and a comparison. (R108) -/
  | mpush (p : BitVec 4) (c : BitVec 4) (a : BitVec 6) (b : BitVec 6) (t : BitVec 4)
  /-- MINV: Inverts the mask top within its parent. (R108) -/
  | minv (p : BitVec 4)
  /-- MPOP: Pops the mask stack. (R108) -/
  | mpop (p : BitVec 4)
  /-- CHKB: Checks lanes against a bound register under its policy. (R120) -/
  | chkb (p : BitVec 4) (d : BitVec 6) (a : BitVec 6) (g : BitVec 4) (t : BitVec 4)
  /-- RED: Group reduction by a pairwise tree. (R118) -/
  | red (p : BitVec 4) (d : BitVec 6) (a : BitVec 6) (l : BitVec 3) (k : BitVec 3) (t : BitVec 4)
  /-- SCAN: Sequential group scan. (R119) -/
  | scan (p : BitVec 4) (d : BitVec 6) (a : BitVec 6) (l : BitVec 3) (k : BitVec 3) (t : BitVec 4)
  /-- BCAST: Broadcasts one lane to the active lanes. (R116) -/
  | bcast (p : BitVec 4) (d : BitVec 6) (a : BitVec 6) (i : BitVec 6) (t : BitVec 4)
  /-- PERM: Permutes lanes by the indices in vb. (R116) -/
  | perm (p : BitVec 4) (d : BitVec 6) (a : BitVec 6) (b : BitVec 6) (t : BitVec 4)
  /-- ROTM: Extracts 128 bytes from the vd:va window at a byte offset. (R117) -/
  | rotm (p : BitVec 4) (d : BitVec 6) (a : BitVec 6) (n : BitVec 7)
  /-- RNDB: Writes random 16-bit draws and advances the draw counter. (R127) -/
  | rndb (p : BitVec 4) (d : BitVec 6)
  /-- RNDF: Writes uniform random floats in [0, 1). (R127) -/
  | rndf (p : BitVec 4) (d : BitVec 6) (t : BitVec 4)
  /-- RNDI: Writes random integers below a bound. (R127) -/
  | rndi (p : BitVec 4) (d : BitVec 6) (a : BitVec 5) (t : BitVec 4)
  /-- SAMPC: Draws one categorical sample over 32 FP32 weights. (R129) -/
  | sampc (p : BitVec 4) (d : BitVec 6) (a : BitVec 6)
  /-- VLDR_ROW: Loads a row selected by row number into a vector register. (R203) -/
  | vldrRow (v : BitVec 6) (a : BitVec 5) (i : BitVec 8)
  /-- VSTR_ROW: Stores a vector register to a row selected by row number, with a byte mask. (R203) -/
  | vstrRow (v : BitVec 6) (a : BitVec 5) (m : BitVec 5) (i : BitVec 8)
  /-- VLDR_RING: Loads a row of a ring's read slot; blocks while the ring is empty. (R203) -/
  | vldrRing (v : BitVec 6) (q : BitVec 4) (i : BitVec 8)
  /-- VSTR_RING: Stores to a row of a ring's write slot; blocks while the ring is full. (R203) -/
  | vstrRing (v : BitVec 6) (q : BitVec 4) (m : BitVec 5) (i : BitVec 8)
  /-- VLDR_GENERATOR: Loads the next row of a stream generator and advances it. (R209) -/
  | vldrGenerator (v : BitVec 6) (g : BitVec 2)
  /-- VSTR_GENERATOR: Stores to the next row of a stream generator and advances it. (R209) -/
  | vstrGenerator (v : BitVec 6) (g : BitVec 2) (m : BitVec 5)
  /-- VLDR_BOND: Loads a row of a bond, locally or remotely. (R203) -/
  | vldrBond (v : BitVec 6) (a : BitVec 5) (k : BitVec 4)
  /-- VSTR_BOND: Stores to a row of a held bond. (R203) -/
  | vstrBond (v : BitVec 6) (a : BitVec 5) (m : BitVec 5) (k : BitVec 4)
  /-- RCFG: Maps or unmaps a ring handle, configuring the ring if needed. (R206) -/
  | rcfg (q : BitVec 4) (a : BitVec 5)
  /-- RADVR: Advances a ring's read pointer by n slots. (R207) -/
  | radvr (q : BitVec 4) (n : BitVec 8)
  /-- RADVW: Advances a ring's write pointer by n slots. (R207) -/
  | radvw (q : BitVec 4) (n : BitVec 8)
  /-- ASET: Loads a pattern record into a stream generator. (R208) -/
  | aset (g : BitVec 2) (a : BitVec 5)
  /-- BOND: Creates a bond over a run of the core's rows. (R190) -/
  | bond (k : BitVec 4) (a : BitVec 5) (b : BitVec 5)
  /-- GIVE: Starts the transfer of a held bond to another context. (R192) -/
  | give (k : BitVec 4) (a : BitVec 5)
  /-- LEND: Lends a held bond read-only to borrowers. (R193) -/
  | lend (k : BitVec 4) (a : BitVec 5)
  /-- RECALL: Blocks until every borrower has released, then holds the bond again. (R193) -/
  | recall (k : BitVec 4)
  /-- UNBOND: Dissolves a held bond or releases a borrowed one. (R194) -/
  | unbond (k : BitVec 4)
  /-- MCALL: Captures the parameters and pushes a matrix command for a routine. (R133) -/
  | mcall (r : BitVec 8)
  /-- MPSET: Writes the shadow copy of a matrix parameter register. (R132) -/
  | mpset (p : BitVec 3) (a : BitVec 5)
  /-- MPGO: Copies all shadow parameters to the committed copies. (R132) -/
  | mpgo
  /-- CPY: Pushes a copy command with a completion ring, a scope and a deadline. (R213) -/
  | cpy (a : BitVec 5) (b : BitVec 5) (q : BitVec 4) (c : BitVec 3)
  /-- CPY_NO_RING: Pushes a copy command without a completion ring or deadline. (R213) -/
  | cpyNoRing (a : BitVec 5) (b : BitVec 5)
  /-- PREF: Asks the migration engine to promote pallets before a deadline. (R225) -/
  | pref (a : BitVec 5) (b : BitVec 5) (x : BitVec 5)
  /-- FMTSET: Pushes a matrix-queue entry that writes a format-table entry. (R134) -/
  | fmtset (e : BitVec 4) (a : BitVec 5)
  /-- BNDSET: Writes a bound register's bounds and policy and clears its count. (R164) -/
  | bndset (g : BitVec 4) (a : BitVec 5) (b : BitVec 5) (p : BitVec 2)
  /-- BNDGET: Reads a bound register's count and policy. (R165) -/
  | bndget (d : BitVec 5) (g : BitVec 4)
  /-- MEND: Microword that ends the matrix command and writes its completion. (R152) -/
  | mend
  /-- MLDA: Microword that loads the A buffer with one plane or one half-mode group. (R150) -/
  | mlda (am : BitVec 2) (wa : BitVec 3) (h : BitVec 4) (off : BitVec 16) (wb : BitVec 3)
  /-- MLDB: Microword that loads a B half. (R150) -/
  | mldb (y : BitVec 4) (am : BitVec 2) (wa : BitVec 3) (h : BitVec 4) (off : BitVec 16)
  /-- MSTEP: Microword that accumulates one plane step or half-mode group into a tile. (R141) -/
  | mstep (x : BitVec 4) (y : BitVec 4)
  /-- MPCOR: Microword that adds the midpoint correction for k planes. (R142) -/
  | mpcor (x : BitVec 4) (y : BitVec 4) (wa : BitVec 3)
  /-- MSWAP: Microword that exchanges the names t0 and t1. (R150) -/
  | mswap
  /-- MCLR: Microword that clears a tile and sets its mode and base. (R150) -/
  | mclr (x : BitVec 4) (wa : BitVec 3)
  /-- MDRAIN: Microword that converts a tile through the drain path into rows. (R156) -/
  | mdrain (x : BitVec 4) (y : BitVec 4) (am : BitVec 2) (wa : BitVec 3) (h : BitVec 4) (off : BitVec 16)
  /-- MLOOP: Microword that decrements a work register and branches while it is nonzero. (R150) -/
  | mloop (wa : BitVec 3) (imm : BitVec 24)
  /-- MBR: Microword conditional branch. (R150) -/
  | mbr (x : BitVec 4) (wa : BitVec 3) (wb : BitVec 3) (imm : BitVec 24)
  /-- MWAITR: Microword that waits for filled or free ring slots. (R150) -/
  | mwaitr (y : BitVec 4) (h : BitVec 4) (imm : BitVec 24)
  /-- MRADV: Microword that advances a ring's read or write pointer. (R150) -/
  | mradv (y : BitVec 4) (h : BitVec 4) (imm : BitVec 24)
  /-- MPOST: Microword that writes a posted element to the completion ring. (R150) -/
  | mpost (h : BitVec 4) (imm : BitVec 24)
  /-- MFMT: Microword that selects the current format entry by a course counter. (R147) -/
  | mfmt (x : BitVec 4)
  /-- MSET: Microword that sets a work register from an immediate, a parameter or a counter. (R150) -/
  | mset (x : BitVec 4) (y : BitVec 4) (wa : BitVec 3) (imm : BitVec 24)
  /-- MADD: Microword that adds to a work register. (R150) -/
  | madd (y : BitVec 4) (wa : BitVec 3) (wb : BitVec 3) (imm : BitVec 24)
  /-- LOSS_REPORT: The context-lost record and progress entries are written once a ring slot is free. (R367) -/
  | lossReport (part : Nat)
  /-- GLOBAL_LOAD_RESPONSE: A global load's data or fault arrives and writes or marks its destination. (R197) -/
  | globalLoadResponse (core : Nat) (slot : Nat) (env : Resp)
  /-- MATRIX_COMPLETION: An ended matrix command writes its completion element once the ring has a free slot. (R152) -/
  | matrixCompletion (core : Nat)
  /-- COPY_TUPLE: The copy engine moves one run for the next index tuple in loop order. (R217) -/
  | copyTuple (core : Nat) (uid : Nat)
  /-- COPY_COMPLETION: An ended copy command writes its completion element once the ring has a free slot. (R221) -/
  | copyCompletion (core : Nat) (uid : Nat)
  /-- LAUNCH_BIND: The core selects an eligible launch-queue entry and binds it to a context slot. (R262) -/
  | launchBind (core : Nat)
  /-- OVERLAY_LOAD: The loader reads the log header and tables and expands the first segment before the first bundle. (R264) -/
  | overlayLoad (core : Nat) (slot : Nat)
  /-- BOOT_DOORBELL_DIRECT: A path 0 doorbell binds the mailbox record at once or reports busy. (R266) -/
  | bootDoorbellDirect (func : Nat) (core : Nat)
  /-- BOOT_DOORBELL_ENQUEUE: A path 1 doorbell queues the record's entries at the given priority. (R266) -/
  | bootDoorbellEnqueue (func : Nat) (core : Nat) (pr : BitVec 2)
  /-- JOB_INVAL: A JOB.INVAL write queues a TLB invalidation of the job. (R333) -/
  | jobInval (job : Nat) (v : BitVec 64)
  /-- REGISTER_REGION: JOB.REGCMD kind 1 registers a versioned region. (R248) -/
  | registerRegion (job : Nat) (desc : Nat)
  /-- DROP_REGION: JOB.REGCMD kind 2 drops a versioned region. (R334) -/
  | dropRegion (job : Nat) (desc : Nat)
  /-- REGISTER_WINDOW: JOB.REGCMD kind 3 registers a reduction window. (R244) -/
  | registerWindow (job : Nat) (desc : Nat)
  /-- DROP_WINDOW: JOB.REGCMD kind 4 drops a reduction window. (R334) -/
  | dropWindow (job : Nat) (desc : Nat)
  /-- REGISTER_TIERED_RANGE: JOB.REGCMD kind 5 registers a tiered range with every pallet low. (R307) -/
  | registerTieredRange (job : Nat) (desc : Nat)
  /-- DROP_TIERED_RANGE: JOB.REGCMD kind 6 drops a tiered range. (R334) -/
  | dropTieredRange (job : Nat) (desc : Nat)
  /-- ATTESTATION_REQUEST: A SEC.ATTREQ write forms and signs an attestation report. (R348) -/
  | attestationRequest (job : Nat) (v : BitVec 64)
  /-- SWAP_OUT: RCV.CMD op 1 halts a partition's cores to swap it out. (R371) -/
  | swapOut (part : Nat)
  /-- KILL_JOB: RCV.CMD op 2 loses the named job with cause 53. (R365) -/
  | killJob (part : Nat) (job : Nat)
  /-- PARTITION_ENABLE: Writing PART.CTL.en = 1 enables the partition if its configuration is valid. (R327) -/
  | partitionEnable (part : Nat)
  /-- PARTITION_DISABLE: Writing PART.CTL.en = 0 disables an idle partition and discards its state. (R327) -/
  | partitionDisable (part : Nat)
  /-- JOB_CTL_WRITE: A JOB.CTL or JOB.PTROOT write, accepted only for an idle disabled job. (R327) -/
  | jobCtlWrite (job : Nat) (root : Bool) (v : BitVec 64)
  /-- DIF_EXPORT_WRITE: A DIF.EXPe write that sets v is checked against one partition's HBM. (R343) -/
  | difExportWrite (e : Nat) (v : BitVec 64)
  /-- GCTL_INVALIDATE: CORE.GCTL inval invalidates a row group. (R184) -/
  | gctlInvalidate (core : Nat) (group : Nat)
  /-- GCTL_SET_CLASS: CORE.GCTL setcls sets a row group's lifetime class. (R184) -/
  | gctlSetClass (core : Nat) (group : Nat) (cls : BitVec 3)
  /-- REGISTER_WRITE: A write to a register without behaviour of its own sets its fields under Table 0.2. (R8) -/
  | registerWrite (who : Requester) (off : Nat) (v : BitVec 64)
  /-- PHY_READ_TEST: PHY.TEST kind 1 runs a read training test. (R399) -/
  | phyReadTest (ch : Nat)
  /-- PHY_WRITE_TEST: PHY.TEST kind 2 runs a write training test. (R399) -/
  | phyWriteTest (ch : Nat)
  /-- PHY_CONFIRM_TEST: PHY.TEST kind 3 runs the PRBS confirm test. (R399) -/
  | phyConfirmTest (ch : Nat)
  /-- PHY_REPAIR_WRITE: A PHY.REPAIR write sets lane repair and sends it to the stack. (R399) -/
  | phyRepairWrite (ch : Nat) (v : BitVec 64)
  /-- PHY_LANE_WRITE: A PHY.LANEn write sets lane delays, deferred while a test runs. (R399) -/
  | phyLaneWrite (ch : Nat) (lane : Nat) (v : BitVec 64)
  /-- STORE_PERFORMED: A store-queue entry is performed at its home and leaves the queue. (R198) -/
  | storePerformed (core : Nat) (slot : Nat)
  /-- ISSUE_CYCLE: In each core cycle the selector offers the issue port to contexts and issues a bundle. (R294) -/
  | issueCycle (core : Nat)
  /-- REMOTE_ROW_RESPONSE: A remote bonded row load returns from the home core. (R204) -/
  | remoteRowResponse (core : Nat) (slot : Nat)
  /-- VIEW_UPDATE: Hardware sets a bound flag's view to 1 after its condition holds. (R287) -/
  | viewUpdate (core : Nat) (slot : Nat) (flag : Nat)
  /-- MATRIX_COMMAND_START: A matrix command reaching the queue head checks its routine entry and starts. (R148) -/
  | matrixCommandStart (core : Nat)
  /-- FORMAT_ENTRY_WRITE: An FMTSET entry reaching the queue head writes the format entry. (R134) -/
  | formatEntryWrite (core : Nat)
  /-- OP_TRANSITION_SETTLE: A voltage ramp ends and the clock switch freezes the core for 16 cycles. (R303) -/
  | opTransitionSettle (core : Nat)
  /-- BOND_TRANSFER_ARRIVAL: A given bond is installed, held, once the target handle is empty. (R192) -/
  | bondTransferArrival (core : Nat) (slot : Nat) (k : Nat)
  /-- LEND_ARRIVAL: A lent bond becomes borrowed in a borrower's empty handle. (R193) -/
  | lendArrival (core : Nat) (slot : Nat) (k : Nat)
  /-- CORE_HALTED: A halted core invalidates expire-class groups, exchanges state and resumes the other holder. (R371) -/
  | coreHalted (core : Nat)
  /-- ENGINE_RESTORE_COMPLETE: The restore of engine state completes and blocked engine instructions may issue. (R372) -/
  | engineRestoreComplete (core : Nat)
  /-- PALLET_MOVE_COMPLETE: A pallet move ends and switches the mapping in one step. (R310) -/
  | palletMoveComplete (job : Nat) (m : MoveEnd)
  /-- PALLET_MOVE_START: The migration engine begins a queued promote or evict move in a slot of the partition's migration budget. (R311) -/
  | palletMoveStart (part : Nat)
  /-- SEGMENT_PREFETCH: The prefetch engine expands the next segment and its image into the idle half. (R292) -/
  | segmentPrefetch (core : Nat) (slot : Nat)
  /-- BUDGET_PERIOD_BOUNDARY: At the end of each budget period every slot's issue quota is restored. (R296) -/
  | budgetPeriodBoundary (core : Nat)
  /-- STORE_REFUSAL: A store refused after issue leaves a held cause against the context. (R197) -/
  | storeRefusal (core : Nat) (slot : Nat) (cause : Nat)
  /-- WAITA_REREAD: The core rereads a WAITA location after a write to its block or every 4,096 cycles. (R200) -/
  | waitaReread (core : Nat) (slot : Nat)
  /-- RETSTAT_READ: An SRR of CORE.RETSTAT is an observer that is logged or replayed. (R375) -/
  | retstatRead (core : Nat) (slot : Nat) (d : BitVec 5)
  /-- REPLAY_CONSUME: In replay the core consumes the log record due at the current step. (R381) -/
  | replayConsume (core : Nat) (slot : Nat)
  /-- COPY_DEADLINE_EXPIRY: A copy command's deadline passes, and the command stops at the next boundary. (R220) -/
  | copyDeadlineExpiry (core : Nat) (uid : Nat)
  /-- RETENTION_TICK: Each age unit, every row group ages, expires or raises a refresh request. (R182) -/
  | retentionTick (cluster : Nat)
  /-- TEMPERATURE_SAMPLE: Every 1 µs the retention clock samples the hottest sensor and may change band. (R178) -/
  | temperatureSample (cluster : Nat) (milliC : Int)
  /-- REFRESH_ROW_REWRITE: A refresh slot rewrites one row of the oldest requesting group. (R183) -/
  | refreshRowRewrite (core : Nat)
  /-- THERMAL_INTERVAL: At each residency interval the cluster adjusts its thermal cap or sends a thermal event. (R305) -/
  | thermalInterval (cluster : Nat) (milliC : Int)
  /-- PROGRESS_MONITOR_EXPIRY: The idle count reaching the limit sends a no-progress event. (R258) -/
  | progressMonitorExpiry (part : Nat)
  /-- HOST_POSTED_WRITE: A posted host write is performed at system scope in arrival order. (R338) -/
  | hostPostedWrite (func : Nat) (addr : Nat) (data : List (BitVec 8)) (poison : Bool)
  /-- HOST_READ: A host read is checked and completed after earlier writes of its function. (R337) -/
  | hostRead (func : Nat) (addr : Nat) (n : Nat)
  /-- HOST_ATOMIC_OP: The device completes a host AtomicOp on its memory. (R336) -/
  | hostAtomicOp (func : Nat) (op : HostAtomic) (addr : Nat) (n : Nat) (x : BitVec 64) (y : BitVec 64)
  /-- BACK_INVALIDATION_RESPONSE: A host response to a back-invalidation snoop releases the waiting device access. (R341) -/
  | backInvalidationResponse (block : Nat) (writeback : List (BitVec 8))
  /-- HDM_DECODER_COMMIT: Committing an HDM decoder is refused when its range spans more than one enabled partition. (R337) -/
  | hdmDecoderCommit (dec : Nat) (base : Nat) (size : Nat)
  /-- DIFOSAL_REQUEST: An incoming Difosal request is checked against export entries and performed or refused. (R344) -/
  | difosalRequest (src : Nat) (tag : BitVec 16) (req : DifReq)
  /-- WINDOW_CONTRIBUTION: A contribution arriving at the window home joins its round. (R245) -/
  | windowContribution (part : Nat) (wid : Nat) (dev : Nat) (elem : Nat) (round : Nat) (x : BitVec 64)
  /-- PORT_UP: A Difosal port completes training and link initialisation. (R342) -/
  | portUp (port : Nat)
  /-- FLIT_RETRY: A flit failing its CRC is retried. (R342) -/
  | flitRetry (port : Nat)
  /-- PORT_DEAD: A port is declared dead after an idle timeout, 16 retries or failed retraining. (R386) -/
  | portDead (port : Nat)
  /-- LINK_STATE_UPDATE: Receipt of a link-state update starts three timeout rounds. (R387) -/
  | linkStateUpdate (party : Nat) (port : Nat) (epoch : BitVec 16) (up : Bool)
      (affected cut : List Nat)
  /-- LBCTL_ARM: Setting CTX.LBCTL.arm arms a copy-filled loop-buffer half. (R293) -/
  | lbctlArm (core : Nat) (slot : Nat) (half : Nat) (count : BitVec 9)
  /-- PHY_TEST_COMPLETE: A finished test writes its pass bits and increments done in one step. (R400) -/
  | phyTestComplete (ch : Nat) (pass : BitVec 66)
  /-- ALARM: A security sensor raises the alarm and the provisioned policy acts. (R350) -/
  | alarm (sensor : Nat)
  /-- UNCORRECTABLE_ERROR: An uncorrectable check-code error poisons a row or location, or loses a job. (R370) -/
  | uncorrectableError (site : ErrSite)
  /-- CORRECTED_ERROR: A corrected soft error is counted in CORE.ECCSTAT. (R370) -/
  | correctedError (core : Nat)
  /-- PALLET_EVICT: An evict request from policy or frame shortage starts or defers a move down. (R308) -/
  | palletEvict (job : Nat) (va : Nat)
  /-- PREF_DEADLINE_EXPIRY: A PREF whose move has not begun by its deadline is withdrawn. (R311) -/
  | prefDeadlineExpiry (job : Nat) (id : Nat)
  /-- TRANSLATION_WALK: A walk sent to the translation service on a TLB miss completes and fills the cluster TLB or reports a translation fault. (R332) -/
  | translationWalk (cluster : Nat) (job : Nat) (va : BitVec 64)
  /-- VERSION_UNIT_ANSWER: The version unit homing a block accepts or refuses a version instruction, or answers a waiting VLD. (R249) -/
  | versionUnitAnswer (core : Nat) (slot : Nat)
  /-- HOST_PORT_TRAINED: The host port completes link training in PCIe or CXL mode. (R336) -/
  | hostPortTrained (cxl : Bool)
  /-- NO_COMPLETION: A request to the host window that receives no completion ends with cause host abort. (R339) -/
  | noCompletion (core : Nat) (slot : Nat)
  /-- SNOOP_NO_RESPONSE: A back-invalidation snoop that receives no response marks its access with link lost. (R341) -/
  | snoopNoResponse (core : Nat) (slot : Nat)
  /-- PACKAGE_TRIP: A sensor above 110 °C stops the compute islands and loses the bulk store. (R306) -/
  | packageTrip
  /-- TIMEOUT_ROUND: The end of a timeout round reroutes, discards or fails requests, and closes window rounds. (R387) -/
  | timeoutRound (n : Nat)
  /-- INVALIDATION_COMPLETE: After its accesses drain, the invalidation completes and increments JOB.INVST.done. (R333) -/
  | invalidationComplete
  /-- POWER_UP: Power-up resets the device and starts the boot stages. (R395) -/
  | powerUp
  /-- PERST: A PCIe fundamental reset restarts the boot stages. (R395) -/
  | perst
  /-- WARM_RESET: BOOT.CTL.reset causes a warm reset. (R395) -/
  | warmReset
  /-- BOOT_TRAINING_DONE: Stage 1 finds every PHY.RESULT nonzero and reports ready or HBM failed. (R395) -/
  | bootTrainingDone
  /-- HOST_PORT_LINK_DOWN: The host-port link goes down, so that accesses the port cannot send fail with link lost. (R339) -/
  | hostPortLinkDown
  deriving DecidableEq, Repr

end Sys2Proof
end

