-- ==== Sys2Proof/WellFormed.lean ====
section
/-! DEFINITION. What makes a term of Instr a word the device accepts: the coded fields of R33, R36, R37, R44 and
R45 (02_bundle_and_assembly.md), the microword rules of R149 (06_matrix_unit.md), and, for the steps of the
other agents, unit numbers that exist (01_machine.md R11). -/
namespace Sys2Proof

/-- Table 2.2: lane width in bits of a type code. -/
def laneWidth (t : BitVec 4) : Nat :=
  match t.toNat with
  | 0 => 32
  | 1 => 16
  | 2 => 16
  | 3 => 16
  | 4 => 32
  | 5 => 64
  | 6 => 16
  | 7 => 32
  | _ => 64

/-- Table 2.2: lanes of a type code. -/
def laneCount (t : BitVec 4) : Nat := 1024 / laneWidth t

def isType (t : BitVec 4) : Bool := decide (t.toNat ≤ 8)
def isFloat (t : BitVec 4) : Bool := decide (t.toNat ≤ 2)
def isInteger (t : BitVec 4) : Bool := decide (3 ≤ t.toNat ∧ t.toNat ≤ 8)

/-- Table 2.3, integer column: codes 0 to 9. -/
def isIntCond (c : BitVec 4) : Bool := decide (c.toNat ≤ 9)

/-- Table 2.3, floating column. -/
def isFloatCond (c : BitVec 4) : Bool := [0, 1, 2, 3, 6, 7, 10, 11].contains c.toNat

/-- R37, R108: the condition codes of a V-slot compare of type t. -/
def isLaneCond (c t : BitVec 4) : Bool :=
  isType t && (if isFloat t then isFloatCond c else [0, 1, 2, 3, 6, 7].contains c.toNat)

/-- R25: scope codes 0 to 5. -/
def isScope (c : BitVec 3) : Bool := decide (c.toNat ≤ 5)

/-- Table 14.4: the events of BINDF and the ix bits each uses (14 R286). -/
def isEvent (e : BitVec 6) (i : BitVec 8) : Bool :=
  match e.toNat with
  | 0 => decide (i = 0)
  | 1 => true
  | 2 => true
  | 3 => decide (i = 0)
  | 4 => decide (i = 0)
  | 5 => decide (i = 0)
  | 6 => decide (fld i 4 4 = 0#4)
  | 7 => decide (fld i 4 4 = 0#4)
  | _ => false

/-- Table 21.10: the system registers of user mode. -/
def userSys : List Nat :=
  [0x001, 0x002, 0x003, 0x004, 0x005, 0x006, 0x007, 0x008, 0x009, 0x00A, 0x00B,
   0x010, 0x011, 0x012, 0x013, 0x014, 0x015, 0x100, 0x101, 0x102, 0x103]

/-- Table 21.10: the privileged system registers. -/
def privSys : List Nat :=
  [0x01A, 0x01B, 0x020, 0x021, 0x022, 0x024, 0x025, 0x110, 0x111, 0x112, 0x113, 0x114, 0x115, 0x116,
   0x117, 0x118, 0x200, 0x201, 0x202, 0x203, 0x204]

def isSys (n : BitVec 12) : Bool := userSys.contains n.toNat || privSys.contains n.toNat

/-- R103: the pairs (t, ts) of FCVT. -/
def isFcvt (t s : BitVec 4) : Bool := [(0, 1), (0, 2), (1, 0), (2, 0)].contains (t.toNat, s.toNat)

/-- Table 2.14: the pairs (t, ts) of CVT. -/
def isCvt (t s : BitVec 4) : Bool :=
  [(0, 1), (0, 2), (1, 0), (2, 0), (4, 3), (7, 6), (3, 4), (6, 7)].contains (t.toNat, s.toNat)

/-- R118: groups of 2^gl lanes, gl 1 to 6, not above the lane count. -/
def isGroup (l : BitVec 3) (t : BitVec 4) : Bool :=
  decide (1 ≤ l.toNat ∧ l.toNat ≤ 6 ∧ 2 ^ l.toNat ≤ laneCount t)

/-- R149, R151: an address operand of a microword. -/
def isAddr (am : BitVec 2) (h : BitVec 4) : Bool := decide (am.toNat ≠ 3 ∧ (am = 0 → h = 0))

def isCore (c : Nat) : Bool := decide (c < 1024)
def isContext (c k : Nat) : Bool := decide (c < 1024 ∧ k < 4)
def isCluster (c : Nat) : Bool := decide (c < 64)
def isPart (p : Nat) : Bool := decide (p < 64)
def isJob (j : Nat) : Bool := decide (j < 256)
def isFunc (f : Nat) : Bool := decide (f < 256)
/-- Who a host access to memory comes from: a function, or (256) none, through an HDM decoder. -/
def isHostSource (f : Nat) : Bool := decide (f ≤ 256)
def isPort (p : Nat) : Bool := decide (p < 18)
def isChannel (c : Nat) : Bool := decide (c < 256)

def Instr.wf : Instr → Bool
  | .nop => true
  | .br _ _ _ => true
  | .bem _ => true
  | .bnem _ => true
  | .call _ _ => true
  | .ret _ => true
  | .sjmp _ _ _ => true
  | .loop c _ _ _ => Decidable.decide (c.toNat ≤ 5)
  | .loopi c _ _ _ => Decidable.decide (c.toNat ≤ 5)
  | .igate c _ _ => Decidable.decide (c.toNat ≤ 5)
  | .rwait _ _ _ => true
  | .bindf f e i => Decidable.decide (f ≠ 0) && isEvent e i
  | .yield => true
  | .exit => true
  | .spawn _ _ => true
  | .spawns _ _ _ _ => true
  | .decide _ _ => true
  | .oppt _ => true
  | .hint h => Decidable.decide (h ≠ 3)
  | .sbar m => Decidable.decide (m ≠ 0)
  | .grow _ => true
  | .shrink _ => true
  | .trap _ => true
  | .eret => true
  | .srr _ s => isSys s
  | .srw _ s => isSys s
  | .halt => true
  | .pwait _ _ _ _ _ _ _ => true
  | .add _ _ _ _ => true
  | .sub _ _ _ _ => true
  | .and _ _ _ _ => true
  | .or _ _ _ _ => true
  | .xor _ _ _ _ => true
  | .andn _ _ _ _ => true
  | .shl _ _ _ _ => true
  | .shr _ _ _ _ => true
  | .sar _ _ _ _ => true
  | .ror _ _ _ _ => true
  | .fshl _ _ _ _ _ => true
  | .fshr _ _ _ _ _ => true
  | .mul _ _ _ _ => true
  | .mulh _ _ _ _ => true
  | .mulhu _ _ _ _ => true
  | .div _ _ _ _ => true
  | .divu _ _ _ _ => true
  | .rem _ _ _ _ => true
  | .remu _ _ _ _ => true
  | .min _ _ _ _ => true
  | .max _ _ _ _ => true
  | .minu _ _ _ _ => true
  | .maxu _ _ _ _ => true
  | .sel _ _ _ _ _ => true
  | .clz _ _ _ => true
  | .popc _ _ _ => true
  | .brev _ _ _ => true
  | .addi _ _ _ _ => true
  | .andi _ _ _ _ => true
  | .ori _ _ _ _ => true
  | .xori _ _ _ _ => true
  | .shli _ _ _ _ => true
  | .shri _ _ _ _ => true
  | .sari _ _ _ _ => true
  | .rori _ _ _ _ => true
  | .movi _ _ _ => true
  | .movs _ _ _ => true
  | .cmp _ _ c _ _ => isIntCond c
  | .cmpi _ _ c _ _ => isIntCond c
  | .cb _ c _ _ _ => isIntCond c
  | .fadd _ _ _ _ => true
  | .fsub _ _ _ _ => true
  | .fmul _ _ _ _ => true
  | .fma _ _ _ _ => true
  | .fcmp _ _ c _ _ => isFloatCond c
  | .fcvt _ _ _ s t => isFcvt t s
  | .ld _ _ _ _ => true
  | .ldx _ _ z _ => Decidable.decide (z.toNat ≤ 2)
  | .st _ _ _ _ => true
  | .ldaq _ _ _ c _ => isScope c
  | .strl _ _ _ c _ => isScope c
  | .mark => true
  | .fence c => isScope c
  | .aadd _ _ _ z c => Decidable.decide (2 ≤ z.toNat) && isScope c
  | .aand _ _ _ z c => Decidable.decide (2 ≤ z.toNat) && isScope c
  | .aor _ _ _ z c => Decidable.decide (2 ≤ z.toNat) && isScope c
  | .axor _ _ _ z c => Decidable.decide (2 ≤ z.toNat) && isScope c
  | .amin _ _ _ z c => Decidable.decide (2 ≤ z.toNat) && isScope c
  | .amax _ _ _ z c => Decidable.decide (2 ≤ z.toNat) && isScope c
  | .aminu _ _ _ z c => Decidable.decide (2 ≤ z.toNat) && isScope c
  | .amaxu _ _ _ z c => Decidable.decide (2 ≤ z.toNat) && isScope c
  | .afadd _ _ _ c => isScope c
  | .afmin _ _ _ c => isScope c
  | .afmax _ _ _ c => isScope c
  | .aswp _ _ _ z c => Decidable.decide (2 ≤ z.toNat) && isScope c
  | .acas _ _ _ _ z c => Decidable.decide (2 ≤ z.toNat) && isScope c
  | .vld _ _ _ _ => true
  | .vldle _ _ _ _ => true
  | .vst _ _ _ _ => true
  | .vpub _ _ => true
  | .vfloor _ _ => true
  | .vdrop _ _ => true
  | .vquery _ _ => true
  | .waita _ _ _ _ => true
  | .tlook _ _ => true
  | .tset _ _ => true
  | .tclr _ => true
  | .spill _ _ => true
  | .fill _ _ => true
  | .vFadd _ _ _ _ t => isFloat t
  | .vFsub _ _ _ _ t => isFloat t
  | .vFmul _ _ _ _ t => isFloat t
  | .vFma _ _ _ _ t => isFloat t
  | .vFmin _ _ _ _ t => isFloat t
  | .vFmax _ _ _ _ t => isFloat t
  | .fabs _ _ _ t => isFloat t
  | .fneg _ _ _ t => isFloat t
  | .rcp _ _ _ => true
  | .rsqrt _ _ _ => true
  | .exp2 _ _ _ => true
  | .log2 _ _ _ => true
  | .cvt _ _ _ _ s t => isCvt t s
  | .vAdd _ _ _ _ t => isInteger t
  | .vSub _ _ _ _ t => isInteger t
  | .vMul _ _ _ _ t => isInteger t
  | .vMin _ _ _ _ t => isInteger t
  | .vMax _ _ _ _ t => isInteger t
  | .vAnd _ _ _ _ t => isInteger t
  | .vOr _ _ _ _ t => isInteger t
  | .vXor _ _ _ _ t => isInteger t
  | .vShl _ _ _ _ t => isInteger t
  | .vShr _ _ _ _ t => isInteger t
  | .vSar _ _ _ _ t => isInteger t
  | .vShli _ _ _ i t => isInteger t && Decidable.decide (i.toNat < laneWidth t)
  | .vShri _ _ _ i t => isInteger t && Decidable.decide (i.toNat < laneWidth t)
  | .vSari _ _ _ i t => isInteger t && Decidable.decide (i.toNat < laneWidth t)
  | .vFshl _ _ _ _ t => isInteger t
  | .vFshr _ _ _ _ t => isInteger t
  | .cmpm _ c _ _ t => isLaneCond c t
  | .vSel _ _ _ _ t => isType t
  | .mpush _ c _ _ t => isLaneCond c t
  | .minv _ => true
  | .mpop _ => true
  | .chkb _ _ _ _ t => Decidable.decide (t.toNat ≤ 4)
  | .red _ _ _ l k t => isType t && Decidable.decide (k.toNat ≤ 2) && isGroup l t
  | .scan _ _ _ l k t => isType t && Decidable.decide (k.toNat ≤ 1) && isGroup l t
  | .bcast _ _ _ i t => isType t && Decidable.decide (i.toNat < laneCount t)
  | .perm _ _ _ _ t => isType t
  | .rotm _ _ _ _ => true
  | .rndb _ _ => true
  | .rndf _ _ t => isFloat t
  | .rndi _ _ _ t => Decidable.decide (t.toNat = 7 ∨ t.toNat = 8)
  | .sampc _ _ _ => true
  | .vldrRow _ _ _ => true
  | .vstrRow _ _ m _ => Decidable.decide (m.toNat % 2 = 0)
  | .vldrRing _ _ _ => true
  | .vstrRing _ _ m _ => Decidable.decide (m.toNat % 2 = 0)
  | .vldrGenerator _ _ => true
  | .vstrGenerator _ _ m => Decidable.decide (m.toNat % 2 = 0)
  | .vldrBond _ _ _ => true
  | .vstrBond _ _ m _ => Decidable.decide (m.toNat % 2 = 0)
  | .rcfg _ _ => true
  | .radvr _ _ => true
  | .radvw _ _ => true
  | .aset _ _ => true
  | .bond _ _ _ => true
  | .give _ _ => true
  | .lend _ _ => true
  | .recall _ => true
  | .unbond _ => true
  | .mcall _ => true
  | .mpset _ _ => true
  | .mpgo => true
  | .cpy _ _ _ c => isScope c
  | .cpyNoRing _ _ => true
  | .pref _ _ _ => true
  | .fmtset _ _ => true
  | .bndset _ _ _ p => Decidable.decide (p ≠ 3)
  | .bndget _ _ => true
  | .mend => true
  | .mlda am _ h _ _ => isAddr am h
  | .mldb y am _ h _ => Decidable.decide (y.toNat ≤ 1) && isAddr am h
  | .mstep x y => Decidable.decide (x.toNat ≤ 1 ∧ y.toNat ≤ 1)
  | .mpcor x y _ => Decidable.decide (x.toNat ≤ 1 ∧ y.toNat ≤ 1)
  | .mswap => true
  | .mclr x _ => Decidable.decide (x.toNat ≤ 1)
  | .mdrain x y am _ h _ => Decidable.decide (x.toNat ≤ 1 ∧ y.toNat ≤ 4) && isAddr am h
  | .mloop _ imm => Decidable.decide (imm.toNat < 4096)
  | .mbr x wa wb imm => Decidable.decide (imm.toNat < 4096 ∧ x.toNat ≤ 3 ∧ (x = 0 → wa = 0) ∧ (x ≠ 3 → wb = 0))
  | .mwaitr y _ imm => Decidable.decide (y.toNat ≤ 1 ∧ 1 ≤ imm.toNat ∧ imm.toNat ≤ 256)
  | .mradv y _ imm => Decidable.decide (y.toNat ≤ 1 ∧ 1 ≤ imm.toNat ∧ imm.toNat ≤ 256)
  | .mpost _ _ => true
  | .mfmt x => Decidable.decide (x.toNat ≤ 5)
  | .mset x y _ imm => match y.toNat with
    | 0 => Decidable.decide (x = 0)
    | 1 => Decidable.decide (x.toNat ≤ 7 ∧ imm = 0)
    | 2 => Decidable.decide (x.toNat ≤ 7 ∧ imm = 0)
    | 3 => Decidable.decide (x.toNat ≤ 5 ∧ imm = 0)
    | _ => false
  | .madd y _ wb _ => Decidable.decide (y.toNat ≤ 1 ∧ (y = 0 → wb = 0))
  | .issueCycle core => isCore core
  | .budgetPeriodBoundary core => isCore core
  | .lossReport part => isPart part
  | .globalLoadResponse core slot _ => isContext core slot
  | .remoteRowResponse core slot => isContext core slot
  | .storeRefusal core slot _ => isContext core slot
  | .waitaReread core slot => isContext core slot
  | .viewUpdate core slot flag => isContext core slot && Decidable.decide (1 ≤ flag ∧ flag < 16)
  | .retstatRead core slot _ => isContext core slot
  | .replayConsume core slot => isContext core slot
  | .matrixCommandStart core => isCore core
  | .formatEntryWrite core => isCore core
  | .matrixCompletion core => isCore core
  | .copyTuple core _ => isCore core
  | .copyDeadlineExpiry core _ => isCore core
  | .copyCompletion core _ => isCore core
  | .retentionTick cluster => isCluster cluster
  | .temperatureSample cluster _ => isCluster cluster
  | .refreshRowRewrite core => isCore core
  | .thermalInterval cluster _ => isCluster cluster
  | .packageTrip => true
  | .progressMonitorExpiry part => isPart part
  | .opTransitionSettle core => isCore core
  | .launchBind core => isCore core
  | .overlayLoad core slot => isContext core slot
  | .segmentPrefetch core slot => isContext core slot
  | .bondTransferArrival core slot k => isContext core slot && Decidable.decide (k < 16)
  | .lendArrival core slot k => isContext core slot && Decidable.decide (k < 16)
  | .bootDoorbellDirect func core => isCore core && isFunc func
  | .bootDoorbellEnqueue func core _ => isCore core && isFunc func
  | .hostPostedWrite func _ _ _ => isHostSource func
  | .hostRead func _ _ => isHostSource func
  | .hostAtomicOp func _ _ _ _ _ => isFunc func
  | .backInvalidationResponse _ _ => true
  | .hdmDecoderCommit dec _ _ => Decidable.decide (dec < 4)
  | .difosalRequest _ _ _ => true
  | .windowContribution part _ _ _ _ _ => isPart part
  | .portUp port => isPort port
  | .flitRetry port => isPort port
  | .portDead port => isPort port
  | .linkStateUpdate _ port _ _ _ _ => isPort port
  | .timeoutRound _ => true
  | .jobInval job _ => isJob job
  | .invalidationComplete => true
  | .registerRegion job _ => isJob job
  | .dropRegion job _ => isJob job
  | .registerWindow job _ => isJob job
  | .dropWindow job _ => isJob job
  | .registerTieredRange job _ => isJob job
  | .dropTieredRange job _ => isJob job
  | .attestationRequest job _ => isJob job
  | .swapOut part => isPart part
  | .coreHalted core => isCore core
  | .engineRestoreComplete core => isCore core
  | .killJob part job => isPart part && isJob job
  | .partitionEnable part => isPart part
  | .partitionDisable part => isPart part
  | .jobCtlWrite job _ _ => isJob job
  | .difExportWrite e _ => Decidable.decide (e < 64)
  | .gctlInvalidate core group => isCore core && Decidable.decide (group < 512)
  | .gctlSetClass core group _ => isCore core && Decidable.decide (group < 512)
  | .lbctlArm core slot half _ => isContext core slot && Decidable.decide (half < 2)
  | .registerWrite _ _ _ => true
  | .phyReadTest ch => isChannel ch
  | .phyWriteTest ch => isChannel ch
  | .phyConfirmTest ch => isChannel ch
  | .phyTestComplete ch _ => isChannel ch
  | .phyRepairWrite ch _ => isChannel ch
  | .phyLaneWrite ch lane _ => isChannel ch && Decidable.decide (lane < 66)
  | .powerUp => true
  | .perst => true
  | .warmReset => true
  | .bootTrainingDone => true
  | .alarm sensor => Decidable.decide (sensor < 5)
  | .uncorrectableError _ => true
  | .correctedError core => isCore core
  | .palletEvict job _ => isJob job
  | .palletMoveComplete job _ => isJob job
  | .prefDeadlineExpiry job _ => isJob job
  | .translationWalk cluster job _ => isCluster cluster && isJob job
  | .versionUnitAnswer core slot => isContext core slot
  | .storePerformed core slot => isContext core slot
  | .hostPortTrained _ => true
  | .hostPortLinkDown => true
  | .noCompletion core slot => isContext core slot
  | .snoopNoResponse core slot => isContext core slot
  | .palletMoveStart part => isPart part

end Sys2Proof
end

