-- ==== Sys2Proof/Machine/Num.lean ====
section
/-! DEFINITION. Numbers: exact extended reals, the two roundings, the fixed reduction trees, bit-plane nested
integers, the random mixer and the four correctly rounded functions (03_number_formats.md, 05 R110, R111, R122,
R123). -/
namespace Sys2Proof.Machine

/-! ## Exact values -/

/-- An extended real with a signed zero, or NaN (03 R70, R77): num s m e is (−1)^s · m · 2^e. -/
inductive FV where
  | nan
  | inf (s : Bool)
  | num (s : Bool) (m : Nat) (e : Int)
  deriving DecidableEq, Repr

/-- A binary floating format: exponent bits and fraction bits (Table 3.1). -/
structure Fmt where
  eb : Nat
  fb : Nat
  deriving DecidableEq, Repr

def fp32 : Fmt := ⟨8, 23⟩
def fp16 : Fmt := ⟨5, 10⟩
def bf16 : Fmt := ⟨8, 7⟩

/-- The bias of a format, which is its Emax. -/
def Fmt.bias (f : Fmt) : Int := 2 ^ (f.eb - 1) - 1
/-- Table 3.1: Emin = 1 − bias. -/
def Fmt.emin (f : Fmt) : Int := 1 - f.bias
def Fmt.width (f : Fmt) : Nat := f.eb + f.fb + 1
/-- The magnitude bits of an infinity. -/
def Fmt.infBits (f : Fmt) : Nat := (2 ^ f.eb - 1) * 2 ^ f.fb
/-- R69, Table 3.1: the canonical NaN. -/
def Fmt.canon (f : Fmt) : Nat := f.infBits + 2 ^ (f.fb - 1)
def Fmt.signBit (f : Fmt) : Nat := 2 ^ (f.eb + f.fb)

/-- The value an encoding stands for; subnormals are exact (R67, R68). -/
def Fmt.read (f : Fmt) (w : Nat) : FV :=
  let s : Bool := Nat.testBit w (f.eb + f.fb)
  let x : Nat := (w / 2 ^ f.fb) % 2 ^ f.eb
  let m : Nat := w % 2 ^ f.fb
  if x = 2 ^ f.eb - 1 then (if m = 0 then .inf s else .nan)
  else if x = 0 then .num s m (f.emin - f.fb)
  else .num s (m + 2 ^ f.fb) ((x : Int) - f.bias - f.fb)

/-- A NaN with its quiet bit clear (R241). -/
def Fmt.signalling (f : Fmt) (w : Nat) : Bool :=
  decide (f.read w = .nan) && !(Nat.testBit w (f.fb - 1))

/-- R77 RoundTo: mode false is RoundNE, mode true is RoundSR with the 32-bit draw d. -/
def roundTo (x : FV) (f : Fmt) (sr : Bool) (d : Nat) : Nat :=
  match x with
  | .nan => f.canon
  | .inf s => bit s * f.signBit + f.infBits
  | .num s 0 _ => bit s * f.signBit
  | .num s m e =>
    let lg : Int := (Nat.log2 m : Int) + e
    let e0 : Int := if lg < f.emin then f.emin else lg
    let qe : Int := e0 - f.fb
    let k : Nat := (qe - e).toNat
    let whole : Nat := if qe ≤ e then m * 2 ^ (e - qe).toNat else m / 2 ^ k
    let rest : Nat := if qe ≤ e then 0 else m % 2 ^ k
    let up : Bool :=
      if sr then decide (rest * 2 ^ 32 > d * 2 ^ k)
      else decide (2 * rest > 2 ^ k) || (decide (2 * rest = 2 ^ k) && decide (whole % 2 = 1))
    let mag : Nat := (e0 - f.emin).toNat * 2 ^ f.fb + (whole + bit (up && decide (rest ≠ 0)))
    bit s * f.signBit + (if f.infBits ≤ mag then f.infBits else mag)

def roundNE (x : FV) (f : Fmt) : Nat := roundTo x f false 0

def FV.isNan : FV → Bool
  | .nan => true
  | _ => false

def FV.isInf : FV → Bool
  | .inf _ => true
  | _ => false

/-- Sign of a value, of a zero included. -/
def FV.sign : FV → Bool
  | .nan => false
  | .inf s => s
  | .num s _ _ => s

def FV.isZero : FV → Bool
  | .num _ 0 _ => true
  | _ => false

def FV.neg : FV → FV
  | .nan => .nan
  | .inf s => .inf (!s)
  | .num s m e => .num (!s) m e

/-- R70 ExactProduct. -/
def exactProduct (a b : FV) : FV :=
  match a, b with
  | .nan, _ => .nan
  | _, .nan => .nan
  | .inf s, .inf t => .inf (s != t)
  | .inf s, .num t m _ => if m = 0 then .nan else .inf (s != t)
  | .num s m _, .inf t => if m = 0 then .nan else .inf (s != t)
  | .num s m e, .num t n f => .num (s != t) (m * n) (e + f)

/-- The integer (−1)^s · m · 2^(e − low) of a finite value whose exponent is not below low. -/
def FV.scaled (low : Int) : FV → Int
  | .num s m e => (if s then -1 else 1) * ((m * 2 ^ (e - low).toNat : Nat) : Int)
  | _ => 0

def FV.exponent : FV → Int
  | .num _ _ e => e
  | _ => 0

/-- A finite value from an exact integer times 2^e; zero is +0. -/
def FV.ofInt (v e : Int) : FV := .num (decide (v < 0)) v.natAbs e

/-- R70 ExactSum of any number of terms. -/
def exactSum (t : List FV) : FV :=
  if t.any FV.isNan then .nan
  else if t.contains (.inf false) && t.contains (.inf true) then .nan
  else if t.contains (.inf false) then .inf false
  else if t.contains (.inf true) then .inf true
  else
    let low : Int := t.foldl (fun a x => if x.exponent < a then x.exponent else a) 0
    let v : Int := t.foldl (fun a x => a + x.scaled low) 0
    if v = 0 then .num (t.all (fun x => x.isZero && x.sign)) 0 0 else .ofInt v low

/-- Order of two finite or infinite values: −1, 0 or 1; −0 and +0 are equal. -/
def FV.cmp (a b : FV) : Int :=
  match a, b with
  | .inf s, .inf t => bit t - bit s
  | .inf s, _ => if s then -1 else 1
  | _, .inf t => if t then 1 else -1
  | .num _ _ _, .num _ _ _ =>
    let low : Int := if a.exponent < b.exponent then a.exponent else b.exponent
    if a.scaled low < b.scaled low then -1 else if a.scaled low = b.scaled low then 0 else 1
  | _, _ => 0

/-! ## Floating operations on encodings -/

def fAdd (f : Fmt) (a b : Nat) : Nat := roundNE (exactSum [f.read a, f.read b]) f
def fSub (f : Fmt) (a b : Nat) : Nat := roundNE (exactSum [f.read a, (f.read b).neg]) f
def fMul (f : Fmt) (a b : Nat) : Nat := roundNE (exactProduct (f.read a) (f.read b)) f
/-- R70: the product is never rounded on its own. -/
def fMulAdd (f : Fmt) (a b c : Nat) : Nat := roundNE (exactSum [exactProduct (f.read a) (f.read b), f.read c]) f
def fAbs (f : Fmt) (a : Nat) : Nat := if (f.read a).isNan then f.canon else a % f.signBit
def fNeg (f : Fmt) (a : Nat) : Nat :=
  if (f.read a).isNan then f.canon else if a / f.signBit % 2 = 1 then a % f.signBit else a % f.signBit + f.signBit

/-- R110 MaxNum. -/
def maxNum (f : Fmt) (a b : Nat) : Nat :=
  let x := f.read a
  let y := f.read b
  if x.isNan then (if y.isNan then f.canon else b)
  else if y.isNan then a
  else if x.cmp y = 1 || (x.isZero && y.isZero && y.sign) then a else b

/-- R110 MinNum. -/
def minNum (f : Fmt) (a b : Nat) : Nat :=
  let x := f.read a
  let y := f.read b
  if x.isNan then (if y.isNan then f.canon else b)
  else if y.isNan then a
  else if x.cmp y = -1 || (x.isZero && y.isZero && x.sign) then a else b

/-- Conversion between two formats, rounded once (R103, R112). -/
def fConvert (src dst : Fmt) (a : Nat) : Nat := roundNE (src.read a) dst

/-! ## The correctly rounded functions (R111) -/

/-- Newton's iteration from above for the integer square root. -/
def sqrtStep : Nat → Nat → Nat → Nat
  | 0, _, x => x
  | k + 1, n, x => if (x + n / x) / 2 < x then sqrtStep k n ((x + n / x) / 2) else x

/-- ⌊√n⌋. -/
def isqrt (n : Nat) : Nat := if n = 0 then 0 else sqrtStep 64 n (2 ^ (Nat.log2 n / 2 + 1))

/-- 1/x with 64 further bits and a sticky bit, which rounds as the exact quotient does. -/
def exactRcp : FV → FV
  | .nan => .nan
  | .inf s => .num s 0 0
  | .num s 0 _ => .inf s
  | .num s m e =>
    let k : Nat := Nat.log2 m + 64
    .num s (2 * (2 ^ k / m) + bit (decide (2 ^ k % m ≠ 0))) (-(k : Int) - e - 1)

/-- x^(−1/2), with a sticky bit as in exactRcp; Table 5.4 gives the zeros and negatives. -/
def exactRsqrt : FV → FV
  | .nan => .nan
  | .inf false => .num false 0 0
  | .inf true => .nan
  | .num s 0 _ => .inf s
  | .num true _ _ => .nan
  | .num false m e =>
    let odd : Bool := decide (e % 2 = 1)
    let n : Nat := if odd then 2 * m else m
    let h : Int := (if odd then e - 1 else e) / 2
    let k : Nat := Nat.log2 n + 64
    let r : Nat := isqrt (2 ^ (2 * k) / n)
    .num false (2 * r + bit (decide (r * r * n ≠ 2 ^ (2 * k)))) (-(k : Int) - h - 1)

/-- The product of 2^(2^(−i)) over the set bits of a fraction, most significant first, in 256-bit fixed point;
c is the last root taken, n the bits left of the fraction below bit k. -/
def exp2Product : Nat → Nat → Nat → Nat → Nat
  | 0, _, _, p => p
  | k + 1, n, c, p =>
    let r : Nat := isqrt (c * 2 ^ 256)
    exp2Product k n r (if Nat.testBit n k then p * r / 2 ^ 256 else p)

/-- 2^x: exact when x is an integer; else 256 bits and a sticky bit (2^x is then irrational). -/
def exactExp2 : FV → FV
  | .nan => .nan
  | .inf false => .inf false
  | .inf true => .num false 0 0
  | .num s m e =>
    let v : Int := (if s then -1 else 1) * (m : Int)
    if m ≠ 0 ∧ 9 ≤ (Nat.log2 m : Int) + e then .num false 1 (if s then -400 else 400)
    else if 0 ≤ e then .num false 1 (v * 2 ^ e.toNat)
    else
      let k : Nat := (-e).toNat
      let n : Int := v / 2 ^ k
      let f : Nat := (v % 2 ^ k).toNat
      if f = 0 then .num false 1 n
      else .num false (2 * exp2Product k f (2 * 2 ^ 256) (2 ^ 256) + 1) (n - 257)

/-- The first k bits after the point of log2 y, y in [1, 2) in 400-bit fixed point. -/
def log2Bits : Nat → Nat → Nat → Nat
  | 0, _, acc => acc
  | k + 1, y, acc =>
    let z : Nat := y * y / 2 ^ 400
    if 2 * 2 ^ 400 ≤ z then log2Bits k (z / 2) (2 * acc + 1) else log2Bits k z (2 * acc)

/-- log2 x: exact at powers of two; else 200 bits and a sticky bit. -/
def exactLog2 : FV → FV
  | .nan => .nan
  | .inf false => .inf false
  | .inf true => .nan
  | .num _ 0 _ => .inf true
  | .num true _ _ => .nan
  | .num false m e =>
    let l : Nat := Nat.log2 m
    let n : Int := (l : Int) + e
    if m = 2 ^ l then .ofInt n 0
    else .ofInt (2 * (n * 2 ^ 200 + (log2Bits 200 (m * 2 ^ 400 / 2 ^ l) 0 : Int)) + 1) (-201)

/-! ## Trees, scans and integer helpers -/

/-- One level of TreeRed (R79). -/
def treeLevel (op : Nat → Nat → Nat) : List Nat → List Nat
  | a :: b :: t => op a b :: treeLevel op t
  | l => l

/-- R79 TreeRed over 2^g lanes: g levels. R246 WinTree passes an odd last value up by the same levels. -/
def treeRed (op : Nat → Nat → Nat) : Nat → List Nat → Nat
  | 0, l => l.headD 0
  | g + 1, l => treeRed op g (treeLevel op l)

/-- R80: the running values after the first. -/
def scanFrom (op : Nat → Nat → Nat) : Nat → List Nat → List Nat
  | _, [] => []
  | y, x :: t => op y x :: scanFrom op (op y x) t

/-- R80 inclusive scan; first is the single-operand op. -/
def scanIncl (op : Nat → Nat → Nat) (first : Nat → Nat) : List Nat → List Nat
  | [] => []
  | x :: t => first x :: scanFrom op (first x) t

/-- R77 RShiftNE. -/
def rshiftNE (x n : Int) : Int :=
  if n ≤ 0 then x * 2 ^ (-n).toNat
  else
    let p : Int := 2 ^ n.toNat
    let y : Int := x / p
    let f : Int := x % p
    if 2 * f > p ∨ (2 * f = p ∧ y % 2 = 1) then y + 1 else y

/-- R77 SatAdd64: the value and its saturation indication. -/
def satAdd64 (a x : Int) : Int × Bool :=
  if a + x > 2 ^ 63 - 1 then (2 ^ 63 - 1, true)
  else if a + x < -2 ^ 63 then (-2 ^ 63, true)
  else (a + x, false)

/-! ## Bit-plane nested integers -/

/-- R72 BpniValue without its 2^e, in half units: twice the prefix value of k of P planes. -/
def bpniTwice (u p k : Nat) : Int := (2 * ((u / 2 ^ (p - k) : Nat) : Int) - 2 ^ k + 1) * 2 ^ (p - k)

/-- |x| ≤ (2^(P−1) − 1/2) · 2^e. -/
def bpniFits (a : FV) (p : Nat) (e : Int) : Bool :=
  decide (a.cmp (.num false (2 ^ p - 1) (e - 1)) ≠ 1)

def bpniSearch (a : FV) (p : Nat) : Nat → Int → Int
  | 0, e => e
  | k + 1, e => if bpniFits a p e then e else bpniSearch a p k (e + 1)

/-- R74 BpniScale. -/
def bpniScale (x : List FV) (p : Nat) : Int :=
  let a : FV := x.foldl (fun a v =>
    match v with
    | .num _ m e => if (FV.num false m e).cmp a = 1 then .num false m e else a
    | _ => a) (.num false 0 0)
  bpniSearch a p 255 (-128)

/-- R74 BpniQuant: the code of value q at index n of its block; sr selects the stochastic mode with draw d. -/
def bpniQuant (q : FV) (p : Nat) (e : Int) (n : Nat) (sr : Bool) (d : Nat) : Nat :=
  let topCode : Nat := 2 ^ p - 1
  let fin (s : Bool) (m : Nat) (x : Int) : Nat :=
    let y : FV := .num s m (x - e)
    let top : FV := .num false topCode (-1)
    if y.cmp top ≠ -1 then topCode
    else if y.cmp top.neg ≠ 1 then 0
    else
      let low : Int := if x - e < -1 then x - e else -1
      let v : Int := y.scaled low
      let one : Int := 2 ^ (-low).toNat
      let half : Int := 2 ^ (-low - 1).toNat
      let lo : Int := (v - half) / one
      let gap : Int := v - (lo * one + half)
      let up : Bool :=
        if sr then decide (gap * 2 ^ 32 > (d : Int) * one)
        else decide (gap > half) || (decide (gap = half) && decide (n % 2 = 0))
      ((if up then lo + 1 else lo) + 2 ^ (p - 1)).toNat
  match q with
  | .nan => fin false 0 0
  | .inf false => topCode
  | .inf true => 0
  | .num s m x => fin s m x

/-! ## The mixer (R122, R123) -/

structure Quad where
  x0 : BitVec 32
  x1 : BitVec 32
  x2 : BitVec 32
  x3 : BitVec 32
  deriving DecidableEq, Repr

/-- Key words of a round. -/
def mixKeys (kw : List (BitVec 32)) (r : Nat) : BitVec 32 × BitVec 32 :=
  (kw.getD (2 * (r % 3)) 0 + BitVec.ofNat 32 r * 0x6A09E667#32,
   kw.getD (2 * (r % 3) + 1) 0 + BitVec.ofNat 32 r * 0xBB67AE85#32)

/-- One round of Mix. -/
def mixRound (x : Quad) (kw : List (BitVec 32)) (r : Nat) : Quad :=
  let p : BitVec 64 := x.x0.setWidth 64 * 0x10010001#64
  let q : BitVec 64 := x.x2.setWidth 64 * 0x10100001#64
  let k := mixKeys kw r
  { x0 := (fld q 32 32 ^^^ x.x1) + k.1
    x1 := fld p 0 32
    x2 := (fld p 32 32 ^^^ x.x3) + k.2
    x3 := fld q 0 32 }

/-- R122 Mix: ten rounds. -/
def mix (x : Quad) (kw : List (BitVec 32)) : Quad :=
  (List.range 10).foldl (fun y r => mixRound y kw r) x

/-- K0 to K3 of a 128-bit key. -/
def keyWords (key : BitVec 128) : List (BitVec 32) := [fld key 0 32, fld key 32 32, fld key 64 32, fld key 96 32]

/-- R123 Draw. -/
def draw (key : BitVec 128) (stream c : BitVec 64) (i : BitVec 32) : BitVec 128 :=
  let x := mix ⟨fld c 0 32, fld c 32 32, i, 0⟩ (keyWords key ++ [fld stream 0 32, fld stream 32 32])
  x.x3 ++ x.x2 ++ x.x1 ++ x.x0

/-- R123 Split. -/
def splitStream (key : BitVec 128) (stream : BitVec 64) (n : BitVec 32) : BitVec 64 :=
  let x := mix ⟨fld stream 0 32, fld stream 32 32, n, 1⟩ (keyWords key ++ [0, 0])
  x.x1 ++ x.x0

end Sys2Proof.Machine
end

