-- ==== Sys2Proof/Machine/State.lean ====
section
/-! DEFINITION. The state of the device, plain data throughout: the contexts, cores, clusters, partitions, jobs,
links and services the spec names, global memory as listed bytes, and the agenda of the agents' next moves.
INVENTORY.md lists each field's rule and reset value. -/
namespace Sys2Proof.Machine

/-- A stop that is a fault of the machine. No spec behaviour ends this way: every failure the spec names is a trap,
a mark, a held cause, a command failure, a job loss or an event, and all of these are next states. -/
inductive Fault where
  /-- raised by every step of another agent whose unit number does not exist (01 R11): safe -/
  | noSuchUnit
  deriving DecidableEq, Repr

/-- A refusal: an instruction without a meaning. -/
inductive Refusal where
  /-- raised by an arm of exec whose instruction has no meaning yet: safe -/
  | notModelled (mnemonic : String)
  deriving DecidableEq, Repr

/-- A core and a context slot of it. -/
structure Who where
  core : Nat
  slot : Nat
  deriving DecidableEq, Repr

/-- One course (14 R278). -/
structure Course where
  active : Bool := false
  trip : BitVec 32 := 0
  index : BitVec 32 := 0
  first : Nat := 0
  last : Nat := 0
  am : BitVec 4 := 0
  /-- order of the LOOPs that set courses up -/
  start : Nat := 0
  deriving DecidableEq, Repr

/-- A stream generator: its pattern record and position (09 R208). -/
structure Gen where
  set : Bool := false
  base : Nat := 0
  indirect : Bool := false
  wrap : Bool := false
  listFirst : Nat := 0
  listLen : Nat := 0
  counts : List Nat := []
  strides : List Int := []
  p : Nat := 0
  deriving DecidableEq, Repr

/-- Handle states of Table 8.12. -/
inductive HandleState where
  | empty
  | held
  | lent
  | borrowed
  | given
  deriving DecidableEq, Repr

/-- A bond handle: its state and the bond, named by home core and number. -/
structure Handle where
  st : HandleState := .empty
  home : Nat := 0
  bond : Nat := 0
  deriving DecidableEq, Repr

/-- A bond over rows of its home core (08 R190). -/
structure Bond where
  id : Nat
  first : Nat
  count : Nat
  /-- contexts that the lend names and that have not released it -/
  borrowers : List Who := []
  /-- the lender's job was lost: the bond dissolves when the last borrower releases (21 R366) -/
  dying : Bool := false
  deriving DecidableEq, Repr

/-- A GIVE or LEND under way to one target (08 R192, R193). -/
structure Transfer where
  target : Who
  k : Nat
  home : Nat
  bond : Nat
  lend : Bool
  /-- the partition whose contexts take part; its transfers rest while it is swapped out (Table 21.9) -/
  part : Option Nat
  deriving DecidableEq, Repr

/-- The mark that a failed copy command leaves on a ring slot, with the frame behind cause 12 (10 R222, 21 R366). -/
structure RingMark where
  slot : Nat
  cause : Nat
  frame : Option Nat := none
  deriving DecidableEq, Repr

/-- A ring (09 R206, R207). -/
structure Ring where
  conf : Bool := false
  first : Nat := 0
  slots : Nat := 0
  rows : Nat := 0
  rp : Nat := 0
  wp : Nat := 0
  filled : Nat := 0
  free : Nat := 0
  marks : List RingMark := []
  deriving DecidableEq, Repr

/-- A loop-buffer half (14 R292, R293). -/
structure Half where
  valid : Bool := false
  addr : Word := 0
  next : Word := 0
  count : Nat := 0
  bundles : List BundleWord := []
  /-- the mode in which its segment was validated (R50) -/
  priv : Bool := false
  /-- the engine command image and its first row (R49) -/
  imageRow : Nat := 0
  image : List Row := []
  /-- the copy command that claims the half (10 R215) -/
  claim : Option Nat := none
  deriving DecidableEq, Repr

/-- Destination of a result. -/
inductive Dst where
  | s (n : Nat)
  | f (n : Nat)
  | v (n : Nat)
  deriving DecidableEq, Repr

/-- A pending result (04 R87, 14 R290); a vector result writes the bits of its mask. -/
structure Pending where
  due : Nat
  issued : Nat
  slot : Nat
  handler : Bool
  dst : Dst
  val : Row
  mask : Row
  deriving DecidableEq, Repr

/-- Kinds of load-queue entry (09 R198, 12 R243, R249). -/
inductive LoadKind where
  | plain
  /-- a redirected FILL with the forwarded value of the latest SPILL (09 R201) -/
  | fill (fwd : Option Word)
  /-- the twin of a MARK, FENCE or VPUB-like entry -/
  | mark
  /-- an atomic: opcode of Table 12.1, operand, compare operand's new value -/
  | atomic (op : Nat) (x y : Word)
  /-- a contribution to a window of this device or another (12 R245) -/
  | contribution (op : Nat) (x : Word)
  /-- a version load that the unit accepted: version u of the block, whether its writer issued the load, and the bytes
  and the poison that the version had then (12 R252, 08 R403) -/
  | version (u : Nat) (own : Bool) (seen : BitVec 512) (bad : Bool)
  /-- VQUERY and what the unit answered (12 R254) -/
  | query (v : Word)
  deriving DecidableEq, Repr

structure LoadEntry where
  ord : Nat
  kind : LoadKind
  dst : Nat
  n : Nat
  sext : Bool
  va : Word
  pa : Nat
  acquire : Bool
  /-- it orders the context's accesses at a scope wider than the context (11 R229) -/
  wide : Bool := false
  deriving DecidableEq, Repr

/-- Kinds of store-queue entry. -/
inductive StoreKind where
  | plain
  /-- the twin of a MARK, FENCE or atomic -/
  | mark
  /-- the version store of version v (12 R250) -/
  | version (v : Nat)
  deriving DecidableEq, Repr

structure StoreEntry where
  ord : Nat
  kind : StoreKind
  n : Nat
  va : Word
  pa : Nat
  data : Word
  release : Bool
  deriving DecidableEq, Repr

/-- A remote row access on its way to the home core (09 R204). -/
structure Remote where
  home : Nat
  row : Nat
  load : Bool
  v : Nat
  data : Row
  bytes : BitVec 128
  /-- the number of pushes and queue entries that its context had made -/
  ord : Nat
  deriving DecidableEq, Repr

/-- A fault mark of a register (09 R197) with the HBM frame behind cause 12 (21 R366). -/
structure Mark where
  vec : Bool
  reg : Nat
  cause : Nat
  frame : Option Nat
  deriving DecidableEq, Repr

/-- A held cause with the frame behind cause 12, and the address that the trap it raises reports (21 Table 21.4). -/
structure Held where
  cause : Nat
  frame : Option Nat
  addr : Word := 0
  deriving DecidableEq, Repr

/-- The mark of a speculative task: its parent, the pair's index, and which successor it is (13 R268). -/
structure Speculative where
  parent : Nat
  index : BitVec 32
  side : Bool
  /-- which of the pairs that its parent ever made, since an index can be used again (13 R270) -/
  pair : Nat
  deriving DecidableEq, Repr

/-- An undecided pair of a parent (13 R268): index and the two successors' task numbers. -/
structure Pair where
  index : BitVec 32
  uid : Nat
  a : List Nat
  b : List Nat
  deriving DecidableEq, Repr

/-- Membership of a gang (01 R17): lead core, member cores in order, skew. -/
structure Gang where
  lead : Nat
  members : List Nat
  skew : Nat
  deriving DecidableEq, Repr

/-- The 8-byte blocks of a piece of memory, by memory key, as they stood before a write of a copy command of the context (11
R229, R231, R235). -/
structure Older where
  /-- the command's place in its context's order -/
  ord : Nat
  start : Nat
  bytes : List Byte
  /-- an access of the context has been performed since -/
  late : Bool := false
  deriving DecidableEq, Repr

/-- The latest SBAR of each class of access, by its place in its context's order (11 R236). -/
structure Bars where
  srd : Nat := 0
  swr : Nat := 0
  mem : Nat := 0
  deriving DecidableEq, Repr

/-- Which job and partition a task runs in; a boot task runs in none (24 R397). -/
structure Owner where
  boot : Bool := false
  part : Nat := 0
  job : Nat := 0
  deriving DecidableEq, Repr

/-- One execution context. -/
structure Ctx where
  resident : Bool := false
  /-- the loader has not yet made the task's first bundle ready (13 R264) -/
  loading : Bool := false
  /-- the loader's step that failed: cause, address and frame; the trap waits for the gang's other loaders (13 R264) -/
  loadFault : Option (Nat × Word × Option Nat) := none
  /-- frozen by a job loss or halted for a swap (21 R366, R371) -/
  stopped : Bool := false
  /-- its task was squashed: what it issued is still performed, and then its slot becomes free (13 R271) -/
  squashed : Bool := false
  waiting : Bool := false
  /-- its EXIT has issued; the context leaves once what the EXIT's own bundle began has ended (13 R273) -/
  exiting : Bool := false
  owner : Owner := {}
  task : Nat := 0
  spec : Option Speculative := none
  gang : Option Gang := none
  /-- on a gang's lead: the point that the gang requests (15 R301) -/
  gangReq : Option (BitVec 3) := none
  record : List Byte := []
  member : Nat := 0
  members : Nat := 0
  sregs : Tab Word := []
  flags : BitVec 16 := 0
  /-- bound flags: event and ix; the flag's bit is the view (14 R286) -/
  binds : Tab (Option (BitVec 6 × BitVec 8)) := []
  courses : Tab Course := []
  savedCourses : Tab Course := []
  courseClock : Nat := 0
  mask : List Word := [0xFFFFFFFFFFFFFFFF#64]
  gens : Tab Gen := []
  pShadow : Tab Word := []
  pCommit : Tab Word := []
  vregs : Tab Row := []
  allot : Nat := 0
  rings : Tab (Option Nat) := []
  bonds : Tab Handle := []
  half : Nat := 0
  index : Nat := 0
  halves : Tab Half := []
  /-- the segment that the executing half is to hold: fetch waits until a copy's claim of the half has ended and its
  image has been written (14 R292) -/
  incoming : Option Half := none
  /-- CTX.LBCTL: the armed half and its bundle count less one -/
  armed : Option (Nat × BitVec 9) := none
  lbHalf : Nat := 0
  lbCount : BitVec 9 := 0
  step : Nat := 0
  inTrap : Bool := false
  handlerStep : Nat := 0
  priv : Bool := false
  pend : List Pending := []
  marks : List Mark := []
  order : Nat := 0
  loadQ : List LoadEntry := []
  storeQ : List StoreEntry := []
  /-- stores older than this place in the context's order are performed at context scope: its later reads of their bytes
  wait for them (13 R267, 11 R228) -/
  seen : Nat := 0
  /-- what stood before writes of the context's own copy commands that no edge orders before its later accesses, latest
  first (11 R231, R233, R235) -/
  older : List Older := []
  remoteQ : List Remote := []
  heldStore : Option Held := none
  ringless : Option Held := none
  spilled : Tab (Option Word) := []
  key : BitVec 128 := 0
  stream : Word := 0
  drawCnt : Word := 0
  spawnIx : BitVec 32 := 0
  mdraw : Word := 0x8000000000000000#64
  mseq : BitVec 32 := 0
  cseq : BitVec 32 := 0
  sbar : Bars := {}
  spillFirst : Nat := 0
  spillRows : Nat := 0
  ovfp : Word := 0
  pairs : List Pair := []
  /-- VPUBs of a speculative task held until DECIDE: region base and version, in issue order (12 R255) -/
  heldPubs : List (Nat × Nat) := []
  /-- highest version this task published in each region (21 R369) -/
  published : Tab Nat := []
  logPtr : Word := 0
  logCap : BitVec 24 := 0
  logLeft : BitVec 24 := 0
  logOvf : Bool := false
  logMode : BitVec 2 := 0
  logHeader : Word := 0
  cause : Word := 0
  tpc : Word := 0
  taddr : Word := 0
  /-- Table 21.4 gives the last trap a value in CTX.TADDR (21 R368) -/
  located : Bool := false
  scr0 : Word := 0
  scr1 : Word := 0
  /-- the frame behind the last trap's cause 12, kept until the next trap (21 R366) -/
  trapFrame : Option Nat := none
  hint : BitVec 2 := 0
  deriving DecidableEq, Repr

/-- A scratchpad row: its bytes, valid bit and poison bit (08 R177). -/
structure RowCell where
  data : Row := 0
  valid : Bool := true
  poison : Bool := false
  deriving DecidableEq, Repr

/-- Row-group state, Table 8.1. -/
structure Group where
  age : Nat := 0
  first : Nat := 0
  mask : Word := 0
  cls : BitVec 3 := 0
  req : Bool := false
  /-- its class was set since the last tick (08 R184) -/
  reclassed : Bool := false
  deriving DecidableEq, Repr

/-- A bound register, Table 7.3. -/
structure BoundReg where
  low : BitVec 32 := 0xFF800000#32
  high : BitVec 32 := 0x7F800000#32
  count : BitVec 32 := 0
  pol : BitVec 2 := 0
  deriving DecidableEq, Repr

/-- A declared set: up to two row ranges (06 Table 6.2). -/
structure RowSet where
  ranges : List (Nat × Nat) := []
  deriving DecidableEq, Repr

/-- A matrix command as MCALL captured it (06 R133, R162). -/
structure MCmd where
  slot : Nat
  task : Nat
  routine : Nat
  p : Tab Word
  c : List (BitVec 32)
  rings : Tab (Option Nat)
  bonds : Tab Handle
  key : BitVec 128
  stream : Word
  seq : BitVec 32
  rd : RowSet
  wr : RowSet
  ord : Nat
  bar : Bars
  deriving DecidableEq, Repr

/-- An entry of the matrix queue (06 R131). -/
inductive MEntry where
  | cmd (c : MCmd)
  | fmt (e : Nat) (v : Word) (slot : Nat)
  deriving DecidableEq, Repr

/-- A buffer row with its mark: 0 none, 1 expired, 2 poisoned (06 R144). -/
structure BufRow where
  data : Row
  mark : Nat
  deriving DecidableEq, Repr

/-- The A buffer or a B half as loaded (06 R139). -/
structure Buffer where
  fmt : Word
  plane : Nat
  rows : List BufRow
  deriving DecidableEq, Repr

/-- An accumulator tile (06 R140); cells not listed are zero. -/
structure Tile where
  halfMode : Bool := false
  base : Int := 0
  cells : List (List Word) := []
  sat : BitVec 128 := 0
  poison : Tab Nat := []
  deriving DecidableEq, Repr

/-- The running matrix command (06 R149 to R152). -/
structure MRun where
  cmd : MCmd
  w : Tab (BitVec 32) := []
  pc : Nat := 0
  fmt : Option Word := none
  a : Option Buffer := none
  b0 : Option Buffer := none
  b1 : Option Buffer := none
  /-- ended: kind, cause, maddr, waiting for its completion element -/
  ended : Option (Nat × Nat × Nat) := none
  drains : Nat := 0
  lastDrain : Nat := 0xFFFF
  deriving DecidableEq, Repr

/-- The matrix unit of a core. -/
structure MUnit where
  queue : List MEntry := []
  run : Option MRun := none
  t0 : Tile := {}
  t1 : Tile := {}
  formats : Tab Word := []
  words : Tab Word := []
  entries : Tab Word := []
  deriving DecidableEq, Repr

/-- A copy record as parsed from its 256 bytes (10 R214). -/
structure CopyRec where
  raw : List Byte := []
  src : Word := 0
  dst : Word := 0
  srcSpace : BitVec 8 := 0
  dstSpace : BitVec 8 := 0
  levels : Nat := 0
  ind : BitVec 8 := 0
  run : Nat := 0
  listFirst : Nat := 0
  listLen : Nat := 0
  rd : RowSet := {}
  wr : RowSet := {}
  tag : BitVec 32 := 0
  counts : List Nat := []
  sstrides : List Int := []
  dstrides : List Int := []
  deriving DecidableEq, Repr

/-- An active copy command (10 R212, R213, R220). -/
structure CCmd where
  uid : Nat
  slot : Nat
  task : Nat
  owner : Owner
  spec : Bool
  priv : Bool
  desc : CopyRec
  deadline : Nat
  expired : Bool := false
  ring : Option Nat
  qh : Nat
  scope : BitVec 3
  seq : BitVec 32
  srcBond : Handle
  dstBond : Handle
  /-- the cause with which the record failed its checks at push (10 R216) -/
  refused : Option Nat := none
  /-- the context's handles at push, by which it may name bonded rows of its core (08 R191) -/
  rights : Tab Handle := []
  ord : Nat
  bar : Bars
  /-- it has passed the boundary before its first iteration (10 R212, R220) -/
  begun : Bool := false
  /-- tuples moved, and bytes written -/
  tuple : Nat := 0
  /-- bytes of the present tuple's run that have moved -/
  moved : Nat := 0
  bytes : Nat := 0
  iters : Nat := 0
  /-- in replay, the kind and k of the record handed to it (22 R381) -/
  handed : Option (Nat × Nat) := none
  /-- ended: kind and cause, waiting for its element -/
  ended : Option (Nat × Nat) := none
  /-- the HBM frame behind a failure of cause 12, and the address of a failure (21 Table 21.4) -/
  frame : Option Nat := none
  addr : Word := 0
  deriving DecidableEq, Repr

/-- An entry of the launch queue (13 R261). -/
structure Launch where
  image : List Byte
  prio : Nat
  cls : Nat
  passes : Nat := 0
  key : BitVec 128
  stream : Word
  logMode : BitVec 2
  member : Nat
  members : Nat
  spec : Option Speculative := none
  owner : Owner
  task : Nat
  gang : Option Gang := none
  deriving DecidableEq, Repr

/-- The refresh service in progress (08 R183). -/
structure Refresh where
  group : Nat
  row : Nat
  ticks : Nat
  deriving DecidableEq, Repr

/-- A leaf in a cluster TLB, tagged by job and partition (18 R332, R335): pages of 2^bits bytes. -/
structure Leaf where
  job : Nat
  va : Nat
  bits : Nat
  pa : Nat
  u : Bool
  x : Bool
  w : Bool
  part : Nat
  deriving DecidableEq, Repr

/-- An entry of the walk cache (18 R329, R335): the table that a job's walk reaches past a level of it, for the virtual
range from va that one entry of the level maps. -/
structure WalkEntry where
  job : Nat
  level : Nat
  va : Nat
  table : Nat
  deriving DecidableEq, Repr

/-- A translation that a copy command keeps for a side (18 R332). -/
structure CopyPage where
  uid : Nat
  dst : Bool
  leaf : Leaf
  deriving DecidableEq, Repr

/-- A core's selector, limiter and governor: their registers, counts and history (15 R296, R300; 07 R170). -/
structure Meters where
  current : Nat := 0
  period : BitVec 17 := 4096
  quotas : Tab (BitVec 16) := []
  iperiod : BitVec 17 := 4096
  iquota : Tab (BitVec 16) := []
  used : Tab Nat := []
  window : List Nat := []
  curlim : BitVec 12 := 3072
  freezeLimiter : BitVec 32 := 0
  freezeTransition : BitVec 32 := 0
  mgov : BitVec 9 := 256
  mgstall : Word := 0
  bed : List Bool := []
  deriving DecidableEq, Repr

/-- What a core keeps for one holding partition (18 R324): contexts, fast store, tables and engines. -/
structure Hold where
  part : Option Nat := none
  ctxs : Tab Ctx := []
  fast : Tab RowCell := []
  rings : Tab Ring := []
  bonds : List Bond := []
  nextBond : Nat := 0
  tags : Tab (Option (BitVec 54)) := []
  bounds : Tab BoundReg := []
  lclassA : Word := 0x0080006000400020#64
  lclassB : Word := 0x016001A000C000A0#64
  /-- the class table in force: what CORE.LCLASSA and CORE.LCLASSB held at the last tick (08 R181) -/
  forceA : Word := 0x0080006000400020#64
  forceB : Word := 0x016001A000C000A0#64
  retServed : BitVec 32 := 0
  retLost : BitVec 16 := 0
  retExpired : BitVec 16 := 0
  queue : List Launch := []
  tvec : Word := 0
  opReq : BitVec 3 := 5
  matrix : MUnit := {}
  copies : List CCmd := []
  pages : List CopyPage := []
  nextUid : Nat := 0
  refresh : Option Refresh := none
  /-- not running: its issue is stopped; it has halted on this core; engine state not yet restored (21 R371, R372) -/
  halting : Bool := false
  halted : Bool := false
  restoring : Bool := false
  /-- not running: the core's meters as it left them (18 R322) -/
  meters : Meters := {}
  deriving DecidableEq, Repr

/-- A core. -/
structure Core where
  cur : Hold := {}
  out : Hold := {}
  /-- bulk-store rows by physical row 2,048 + 64 g + n; an unlisted one is invalid -/
  bulk : Tab RowCell := []
  groups : Tab Group := []
  /-- the selector's current context -/
  current : Nat := 0
  yielded : Bool := false
  period : BitVec 17 := 4096
  quotas : Tab (BitVec 16) := []
  /-- what CORE.IPERIOD and CORE.IQUOTA hold, in force from the next period -/
  iperiod : BitVec 17 := 4096
  iquota : Tab (BitVec 16) := []
  used : Tab Nat := []
  /-- weights issued in the last 64 cycles, latest first (15 R300) -/
  window : List Nat := []
  curlim : BitVec 12 := 3072
  freezeLimiter : BitVec 32 := 0
  freezeTransition : BitVec 32 := 0
  mgov : BitVec 9 := 256
  mgstall : Word := 0
  /-- the bed's last 256 cycles, latest first: plane-step or not (07 R170) -/
  bed : List Bool := []
  opCap : BitVec 3 := 7
  opEff : BitVec 3 := 5
  opBusy : Bool := false
  /-- the unsettled transition is upward, its clock switch still to come (15 R303) -/
  opUp : Bool := false
  /-- a bundle's OPPT has frozen the core until its transition settles (15 R303) -/
  opWait : Bool := false
  eccCorrected : BitVec 32 := 0
  eccRows : BitVec 16 := 0
  eccState : BitVec 16 := 0
  bootRec : List Byte := []
  bootAccepted : BitVec 32 := 0
  bootResult : BitVec 8 := 0
  stopped : Bool := false
  /-- CORE.GCTL writes from the core window that wait to invalidate a physical row group and then to set its class (08
  R184) -/
  gctlWait : List (Nat × Option (BitVec 3)) := []
  deriving DecidableEq, Repr

/-- What a cluster shares. -/
structure Cluster where
  tlb : List Leaf := []
  band : Nat := 0
  /-- the run of samples cooler than the band's lower edge, latest first, in thousandths of a degree -/
  cool : List Int := []
  retTab : Tab (BitVec 16) := []
  events : BitVec 16 := 0
  tcap : BitVec 3 := 7
  resid : BitVec 16 := 100
  hot : BitVec 8 := 100
  hotwait : Bool := false
  deriving DecidableEq, Repr

/-- One stored version of a block (12 R248 to R250); the writer is a task number. -/
structure Version where
  block : Nat
  v : Nat
  data : BitVec 512
  writer : Option Nat
  published : Bool
  /-- a VPUB of its writer holds it until DECIDE (12 R255) -/
  held : Bool := false
  /-- its bytes hold those of a poisoned block (08 R403) -/
  poison : Bool := false
  deriving DecidableEq, Repr

/-- A versioned region (12 R248). -/
structure Region where
  base : Nat
  size : Nat
  span : Nat
  pool : Nat
  poolSize : Nat
  floor : Nat := 0
  versions : List Version := []
  reclaimed : List (Nat × Nat) := []
  exhausted : Bool := false
  deriving DecidableEq, Repr

/-- Pallet states of Table 15.11. -/
inductive PalletState where
  | low
  | movingUp
  | high
  | movingDown
  deriving DecidableEq, Repr

/-- A write that waits at a moving pallet's home (15 R308, R309): the head of a context's store queue, the head of its
load queue for an atomic, or a copy command. -/
inductive Arrival where
  | store (w : Who)
  | atomic (w : Who)
  | copy (core uid : Nat)
  deriving DecidableEq, Repr

structure Pallet where
  st : PalletState := .low
  /-- high-tier frame, when high or moving -/
  frame : Nat := 0
  restarts : Nat := 0
  /-- a request deferred until the move ends -/
  deferred : Bool := false
  /-- order of promotion, for policy 1 -/
  promoted : Nat := 0
  /-- writes that wait for the end of the move, in arrival order -/
  waiting : List Arrival := []
  deriving DecidableEq, Repr

/-- A tiered range (18 Table 18.9). -/
structure Tiered where
  base : Nat
  size : Nat
  low : Nat
  pool : Nat
  frames : Nat
  policy : Nat
  pallets : Tab Pallet := []
  clock : Nat := 0
  deriving DecidableEq, Repr

/-- The key pair and the tweak under which a 64-byte block of a low copy is stored (19 R345): the reset and the enabling
that drew the pair, its partition, and the pallet's virtual address bits [55:6]. -/
structure Seal where
  boot : Nat
  part : Nat
  gen : Nat
  line : Nat
  deriving DecidableEq, Repr

/-- A run of 64-byte blocks of the host window by memory key, and what its first is stored under: none is in clear. -/
structure SealRun where
  first : Nat
  count : Nat
  under : Option Seal
  deriving DecidableEq, Repr

/-- A queued request to the migration engine (15 R311). -/
structure MoveReq where
  id : Nat := 0
  job : Nat
  va : Nat
  up : Bool
  deadline : Bool
  deriving DecidableEq, Repr

/-- An open round of a window element (12 R245, R246). -/
structure Round where
  elem : Nat
  k : Nat
  got : List (Nat × Word)
  /-- participants lost to it: they had no path when it opened, or it lacks them at the end of an update's rounds (22
  R389) -/
  lost : List Nat := []
  deriving DecidableEq, Repr

/-- A reduction window (12 Table 12.2). -/
structure Window where
  base : Nat
  elements : Nat
  op : Nat
  size : Nat
  wid : Nat
  status : Nat
  loss : Nat
  members : List Nat
  job : Nat
  /-- contributions each participant has sent, key 576 e + d -/
  sent : Tab Nat := []
  closed : Tab Nat := []
  rounds : List Round := []
  deriving DecidableEq, Repr

/-- A job (18 R326, R333, R334). -/
structure Job where
  fv : Bool := false
  func : BitVec 8 := 0
  en : Bool := false
  part : BitVec 6 := 0
  root : Nat := 0
  invReq : BitVec 32 := 0
  invDone : BitVec 32 := 0
  regSeq : BitVec 32 := 0
  regResult : BitVec 8 := 0
  attSeq : BitVec 32 := 0
  attResult : BitVec 8 := 0
  regions : List Region := []
  tiered : List Tiered := []
  /-- a loss of the job is under way until its record is written -/
  losing : Bool := false
  deriving DecidableEq, Repr

/-- A loss waiting for its report: record bytes and progress entries (21 R366 to R369). -/
structure Loss where
  job : Nat
  /-- what the job's contexts had issued is still being performed (21 R366 step 2), and the frames to retire then -/
  draining : Bool := false
  frames : List Nat := []
  record : List Byte
  progress : List (List Byte)
  deriving DecidableEq, Repr

/-- A partition with its recovery block (18 R324 to R328; 21 Table 21.6). -/
structure Part where
  en : Bool := false
  rej : Bool := false
  state : BitVec 2 := 0
  clusters : Word := 0
  hbmCount : BitVec 10 := 0
  hbmBase : BitVec 9 := 0
  bulkCount : BitVec 9 := 0
  bulkBase : BitVec 9 := 0
  progmon : BitVec 32 := 0
  idleReported : Bool := false
  budgets : Tab (BitVec 16) := []
  keyGen : Nat := 0
  keyLive : Bool := false
  windows : List Window := []
  evBase : Word := 0
  evEn : Bool := false
  evSlots : BitVec 16 := 0
  evLost : BitVec 32 := 0
  evWp : BitVec 32 := 0
  evRp : BitVec 32 := 0
  /-- records whose place in the ring lies in lines that the host may hold (19 R341) -/
  evWaiting : List (List Byte) := []
  pBase : Word := 0
  pWp : BitVec 32 := 0
  pEntries : BitVec 24 := 0
  mSave : Word := 0
  cmdDone : BitVec 32 := 0
  cmdBusy : Bool := false
  retired : Tab (Option Nat) := []
  eventNo : BitVec 32 := 0
  losses : List Loss := []
  moves : List MoveReq := []
  moveCount : Nat := 0
  deriving DecidableEq, Repr

/-- The write held or deferred at a PHY (24 R399). -/
inductive PhyWrite where
  | repair (v : Word)
  | lane (n : Nat) (v : Word)
  deriving DecidableEq, Repr

/-- One channel's PHY (24 Table 24.5). -/
structure Phy where
  running : Option Nat := none
  held : Option Nat := none
  deferred : List PhyWrite := []
  done : BitVec 32 := 0
  pass0 : Word := 0
  pass1 : BitVec 2 := 0
  repair : BitVec 16 := 0
  /-- the repair last sent to the stack's mode registers -/
  sent : BitVec 16 := 0
  result : BitVec 8 := 0
  lanes : Tab Word := []
  deriving DecidableEq, Repr

/-- A completion the host port returns (19 R337): none is Unsupported Request. -/
structure HostReply where
  func : Nat
  data : Option (List Byte)
  poison : Bool
  deriving DecidableEq, Repr

/-- A Difosal export entry (19 Table 19.4). -/
structure Export where
  v : Bool := false
  w : Bool := false
  tag : BitVec 16 := 0
  count : BitVec 10 := 0
  base : BitVec 9 := 0
  deriving DecidableEq, Repr

/-- A pending TLB invalidation (18 R333). -/
structure Invalidation where
  job : Nat
  v : Word
  dropped : Bool := false
  /-- the accesses that used a dropped entry: task, order number, load or store -/
  waits : List (Nat × Nat × Bool) := []
  deriving DecidableEq, Repr

/-- A request that a device has sent: the entry at the head of a queue, by its context, task and place in the context's
order, load or store (22 R387). -/
structure Sent where
  who : Who
  task : Nat
  ord : Nat
  load : Bool
  deriving DecidableEq, Repr

/-- A link-state update under its timeout rounds (22 R387): the requests that had been sent and the window rounds that were
open when it arrived. -/
structure LinkUpdate where
  /-- participants whose path here used the dead port -/
  affected : List Nat
  round : Nat
  sent : List Sent
  /-- partition, window, element and round -/
  rounds : List (Nat × Nat × Nat × Nat)
  deriving DecidableEq, Repr

/-- A link-state update that this device sends: whose port it tells of, and the ports on which it leaves (22 R386,
R387). -/
structure SentUpdate where
  dev : Nat
  port : Nat
  epoch : BitVec 16
  up : Bool
  ports : BitVec 18
  deriving DecidableEq, Repr

/-- The answer to an incoming Difosal request: the source, a cause or 0, and bytes. -/
structure DifReply where
  src : Nat
  cause : Nat
  data : List Byte
  deriving DecidableEq, Repr

/-- The security processor and boot logic (19 R346 to R350; 24 R395, R396). -/
structure Secure where
  policy : BitVec 2 := 0
  sensors : BitVec 5 := 0
  active : Bool := false
  /-- what the boot flash holds, provisioned outside the device: bit 0 and bit 1, the stage-1 image and its copy at
  32 MiB fail their checks; bit 2, the stage-2 image fails its check (19 R347; 24 Table 24.3) -/
  flash : BitVec 3 := 0
  /-- the host mode that the stage-1 image's header names, CXL when set (19 R336), and the stage-2 image (24 Table 24.3):
  provisioned with the flash -/
  modeBit : Bool := false
  image : List Byte := []
  /-- firmware signature checks that have failed since power-up (19 Table 19.6) -/
  failedChecks : Nat := 0
  erased : Bool := false
  deviceKey : Nat := 0
  keysLive : Bool := true
  stages : Nat := 0
  chain : List (List Byte) := []
  hmode : Bool := false
  cause : BitVec 8 := 0
  stage : BitVec 4 := 1
  result : BitVec 4 := 0
  diesStopped : Bool := false
  /-- channels whose training task was lost once and retried (24 R397) -/
  retried : List Nat := []
  deriving DecidableEq, Repr

/-- The move an agent makes next: a step of the opcode table, or the running matrix command's next microword. -/
inductive Act where
  | event (i : Instr)
  | micro (core : Nat)
  deriving DecidableEq, Repr

/-- The device. -/
structure State where
  agenda : List Act
  /-- with an empty agenda: the engines and queues move next, before the core in focus (log 5) -/
  turn : Bool
  focus : Who
  /-- where the round of the engines' and queues' moves stands (log 5) -/
  rotor : Nat
  freeCount : Nat
  cores : Tab Core
  clusters : Tab Cluster
  /-- the walk cache of the translation service, by partition, latest first (18 R329) -/
  walks : Tab (List WalkEntry)
  mem : List Host.Cell
  /-- under which keys and tweaks blocks of the host window are stored, latest first; mem holds their plain bytes (19
  R345) -/
  seals : List SealRun
  /-- poisoned 64-byte blocks of HBM (08 R403) -/
  poison : List Nat
  parts : Tab Part
  jobs : Tab Job
  transfers : List Transfer
  nextTask : Nat
  invalidations : List Invalidation
  /-- speculative successors that have exited: their held publications (13 R271) -/
  exitedPubs : List (Nat × Nat × Nat × Nat)
  difEn : Bool
  difIndex : BitVec 10
  difUp : BitVec 18
  /-- DIF.PTAGn: v in bit 16, tag below (19 Table 19.3) -/
  ptags : Tab (BitVec 17)
  exports : Tab Export
  updates : List LinkUpdate
  seenUpdates : List (Nat × Nat × BitVec 16)
  /-- devices with no path to this one (22 R388, R389) -/
  cutOff : List Nat
  /-- the next epoch of each port that this device has declared (22 R386) -/
  portEpochs : Tab Nat
  /-- link-state updates that this device sent, its own and those it floods (22 R386, R387) -/
  sentUpdates : List SentUpdate
  difReplies : List DifReply
  /-- requests of other devices, by source and tag, that wait for a back-invalidation response (19 R341) -/
  difWaiting : List (Nat × BitVec 16 × DifReq)
  hostUp : Bool
  /-- how the next accesses outside the device that hardware makes for a context end, one after another: with a fault, or
  well; those past the list end well (09 R197, R200) -/
  foreign : List (Option Nat)
  /-- commands of the job registers that wait for a back-invalidation response (19 R341) -/
  later : List Instr
  hdm : Tab (Option (Nat × Nat))
  replies : List HostReply
  msix : List Nat
  /-- lines an HDM host cache holds (19 R341) -/
  hostLines : List Nat
  phys : Tab Phy
  sec : Secure
  deriving DecidableEq, Repr

/-- The device right after power-up reset (24 R395, R396): every register at its field map's value, no partition or
job enabled, no task resident, every queue empty, memory with nothing listed. -/
def State.reset : State where
  agenda := []
  turn := false
  focus := ⟨0, 0⟩
  rotor := 0
  freeCount := 0
  cores := []
  clusters := []
  walks := []
  mem := []
  seals := []
  poison := []
  parts := []
  jobs := []
  transfers := []
  nextTask := 1
  invalidations := []
  exitedPubs := []
  difEn := false
  difIndex := 0
  difUp := 0
  ptags := []
  exports := []
  updates := []
  seenUpdates := []
  cutOff := []
  portEpochs := []
  sentUpdates := []
  difReplies := []
  difWaiting := []
  hostUp := false
  foreign := []
  later := []
  hdm := []
  replies := []
  msix := []
  hostLines := []
  phys := []
  sec := {}

end Sys2Proof.Machine
end

