-- ==== Sys2Proof/Machine/Access.lean ====
section
/-! DEFINITION. Reading and changing the parts of State by the names the spec gives them: units by number,
registers by number, global memory by byte, rows by row number. Every register and every byte of memory is read and
written through these operations only. -/
namespace Sys2Proof.Machine

/-! ## Units -/

def State.core (s : State) (g : Nat) : Core := s.cores.get {} g
def State.setCore (s : State) (g : Nat) (c : Core) : State := { s with cores := s.cores.put g c }
def State.hold (s : State) (g : Nat) : Hold := (s.core g).cur
def State.setHold (s : State) (g : Nat) (h : Hold) : State := s.setCore g { s.core g with cur := h }
def State.ctx (s : State) (w : Who) : Ctx := (s.hold w.core).ctxs.get {} w.slot
def State.setCtx (s : State) (w : Who) (c : Ctx) : State :=
  s.setHold w.core { s.hold w.core with ctxs := (s.hold w.core).ctxs.put w.slot c }
def State.updCtx (s : State) (w : Who) (f : Ctx → Ctx) : State := s.setCtx w (f (s.ctx w))
def State.updHold (s : State) (g : Nat) (f : Hold → Hold) : State := s.setHold g (f (s.hold g))
def State.updCore (s : State) (g : Nat) (f : Core → Core) : State := s.setCore g (f (s.core g))
/-- 01 R11: core g lies in cluster ⌊g / 16⌋. -/
def clusterOf (g : Nat) : Nat := g / 16
def State.cluster (s : State) (c : Nat) : Cluster := s.clusters.get {} c
def State.setCluster (s : State) (c : Nat) (x : Cluster) : State := { s with clusters := s.clusters.put c x }
def State.part (s : State) (p : Nat) : Part := s.parts.get {} p
def State.setPart (s : State) (p : Nat) (x : Part) : State := { s with parts := s.parts.put p x }
def State.updPart (s : State) (p : Nat) (f : Part → Part) : State := s.setPart p (f (s.part p))
def State.job (s : State) (j : Nat) : Job := s.jobs.get {} j
def State.setJob (s : State) (j : Nat) (x : Job) : State := { s with jobs := s.jobs.put j x }
def State.updJob (s : State) (j : Nat) (f : Job → Job) : State := s.setJob j (f (s.job j))
def State.phy (s : State) (c : Nat) : Phy := s.phys.get {} c
def State.setPhy (s : State) (c : Nat) (x : Phy) : State := { s with phys := s.phys.put c x }
/-- An event or a device action that follows the present step. -/
def State.soon (s : State) (i : Instr) : State := { s with agenda := .event i :: s.agenda }

/-- The core takes part in no cycle: its island stopped, or its holder is not running (15 R306; 21 R371). -/
def State.coreOff (s : State) (g : Nat) : Bool := s.sec.diesStopped || (s.core g).stopped || (s.hold g).halting

/-- What another party does reaches the dies only while they run (15 R306). -/
def State.whileRunning (s : State) (f : State → State) : Host.Outcome State Fault Refusal :=
  .next (if s.sec.diesStopped then s else f s)

/-- The four context slots of a core. -/
def slotNumbers : List Nat := [0, 1, 2, 3]
def contextsOf (g : Nat) : List Who := slotNumbers.map (fun k => ⟨g, k⟩)
/-- The cores of a cluster. -/
def coresOf (c : Nat) : List Nat := (List.range 16).map (fun k => c * 16 + k)
/-- Clusters named in a cluster map. -/
def clustersIn (m : Word) : List Nat := (List.range 64).filter (fun c => m.getLsbD c)
/-- The cores a partition holds. -/
def State.partCores (s : State) (p : Nat) : List Nat := (clustersIn (s.part p).clusters).flatMap coresOf

/-! ## Cause codes (Table 21.1) -/
namespace Cause
/-- No cause has code 0: the access waits for a back-invalidation response (19 R341). -/
abbrev later : Nat := 0
abbrev routine : Nat := 1
abbrev microword : Nat := 2
abbrev format : Nat := 3
abbrev planes : Nat := 4
abbrev operand : Nat := 5
abbrev phaseSet : Nat := 6
abbrev rowRange : Nat := 7
abbrev ring : Nat := 8
abbrev bond : Nat := 9
abbrev bound : Nat := 10
abbrev expired : Nat := 11
abbrev poisoned : Nat := 12
abbrev badRecord : Nat := 13
abbrev space : Nat := 14
abbrev list : Nat := 15
abbrev nonCanonical : Nat := 16
abbrev noSuchDevice : Nat := 17
abbrev unmapped : Nat := 18
abbrev translation : Nat := 19
abbrev linkLost : Nat := 20
abbrev speculativeStore : Nat := 21
abbrev versioned : Nat := 22
abbrev permission : Nat := 23
abbrev illegal : Nat := 24
abbrev privilege : Nat := 25
abbrev allotment : Nat := 26
abbrev branchRange : Nat := 27
abbrev segment : Nat := 28
abbrev segmentEnd : Nat := 29
abbrev matrixOwner : Nat := 30
abbrev matrixRing : Nat := 31
abbrev maskStack : Nat := 32
abbrev generator : Nat := 33
abbrev storeLost : Nat := 34
abbrev hostAbort : Nat := 35
abbrev hostAtomic : Nat := 36
abbrev window : Nat := 37
abbrev notVersioned : Nat := 38
abbrev versionRange : Nat := 39
abbrev missingVersion : Nat := 40
abbrev versionWriter : Nat := 41
abbrev versionPublished : Nat := 42
abbrev speculative : Nat := 43
abbrev launch : Nat := 44
abbrev decide : Nat := 45
abbrev wait : Nat := 46
abbrev software : Nat := 47
abbrev diverged : Nat := 48
abbrev gang : Nat := 49
abbrev halted : Nat := 50
abbrev hardware : Nat := 51
abbrev nested : Nat := 52
abbrev killed : Nat := 53
end Cause

/-- What raising a trap changes besides entering the handler: a mark or held cause that the trap clears (09 R197,
10 R222). -/
inductive Fix where
  | none
  | mark (vec : Bool) (reg : Nat)
  | store
  | ringless
  | ringMark (ring slot : Nat)
  deriving DecidableEq, Repr

/-- A trap of one slot of a bundle (Tables 21.1 to 21.4). -/
structure TrapInfo where
  cause : Nat
  sub : Nat := 0
  code : Nat := 0
  slot : Nat := 0
  addr : Word := 0
  frame : Option Nat := none
  fix : Fix := .none
  /-- a cause of Table 21.4's rows that arose from no row access: CTX.TADDR is 0 -/
  bare : Bool := false
  deriving DecidableEq, Repr

/-- Causes for which Table 21.4 gives a value. -/
def taddrListed (c : Nat) : Bool :=
  [6, 7, 8, 9, 10, 11, 12, 16, 17, 18, 19, 20, 21, 22, 23, 28, 33, 35, 36, 37, 38, 39, 40, 41, 42].contains c
/-- Table 21.4 gives the trap's CTX.TADDR; a mark of a ring slot is none of its rows (10 R222), and neither is "bond" of an
instruction on handles or "row range" of MCALL's declared rows. -/
def TrapInfo.located (t : TrapInfo) : Bool :=
  taddrListed t.cause && !t.bare && (match t.fix with | .ringMark _ _ => false | _ => true)

/-! ## Registers of a context -/

/-- s0 reads zero (04 R84). -/
def Ctx.sreg (c : Ctx) (n : Nat) : Word := if n = 0 then 0 else c.sregs.get 0 n
/-- A write to s0 is discarded (04 R84). -/
def Ctx.setS (c : Ctx) (n : Nat) (v : Word) : Ctx := if n = 0 then c else { c with sregs := c.sregs.put n v }
/-- f0 reads 1 (04 R84, Table 1.4). -/
def Ctx.flag (c : Ctx) (n : Nat) : Bool := if n = 0 then true else c.flags.getLsbD n
/-- Writes the value of a flag; f0 discards it. -/
def Ctx.setFlag (c : Ctx) (n : Nat) (v : Bool) : Ctx :=
  if n = 0 then c else { c with flags := setFld c.flags n 1 (bit v) }
/-- A compare result that commits to a bound flag first unbinds it (14 R286). -/
def Ctx.commitFlag (c : Ctx) (n : Nat) (v : Bool) : Ctx :=
  if n = 0 then c else { c.setFlag n v with binds := c.binds.drop n }
def Ctx.vreg (c : Ctx) (n : Nat) : Row := c.vregs.get 0 n
/-- Writes the bits of a vector register that a mask names (05 R106). -/
def Ctx.setV (c : Ctx) (n : Nat) (v mask : Row) : Ctx :=
  { c with vregs := c.vregs.put n ((c.vreg n &&& ~~~mask) ||| (v &&& mask)) }
/-- The lane mask: the top of the mask stack (05 R106). -/
def Ctx.top (c : Ctx) : Word := c.mask.headD 0
/-- The entry below the top, or all ones (05 R108). -/
def Ctx.parent (c : Ctx) : Word :=
  match c.mask with
  | _ :: p :: _ => p
  | _ => 0xFFFFFFFFFFFFFFFF#64
def Ctx.course (c : Ctx) (n : Nat) : Course := c.courses.get {} n
def Ctx.ringOf (c : Ctx) (q : Nat) : Option Nat := c.rings.get none q
def Ctx.handle (c : Ctx) (k : Nat) : Handle := c.bonds.get {} k
/-- The half that is executing, and the other (14 R292). -/
def Ctx.execHalf (c : Ctx) : Half := c.halves.get {} c.half
def Ctx.otherHalf (c : Ctx) : Half := c.halves.get {} (1 - c.half)

def allOnes : Row := BitVec.allOnes 1024

/-- One result written at its due step (14 R290); a vector result beyond the allotment is discarded (R289). -/
def Ctx.commit (c : Ctx) (p : Pending) : Ctx :=
  match p.dst with
  | .s n => c.setS n (p.val.setWidth 64)
  | .f n => c.commitFlag n (p.val.getLsbD 0)
  | .v n => if n < c.allot then c.setV n p.val p.mask else c

/-- The count the results of the running code fall due against: program steps, or handler steps (21 R361). -/
def Ctx.now (c : Ctx) : Nat := if c.inTrap then c.handlerStep else c.step

/-- A result of the running code that is due before step n. -/
def Pending.due? (p : Pending) (inTrap : Bool) (n : Nat) : Bool := (p.handler == inTrap) && decide (p.due ≤ n)

/-- 14 R290: every result due at step n commits, in issue and slot order, before the bundle of step n reads. -/
def Ctx.commitDue (c : Ctx) (n : Nat) : Ctx :=
  let c' := (c.pend.filter (fun p => p.due? c.inTrap n)).foldl Ctx.commit c
  { c' with pend := c.pend.filter (fun p => !(p.due? c.inTrap n)) }

/-- A destination that the context has: a vector register within the allotment (14 R289). -/
def Ctx.hasDst (c : Ctx) : Dst → Bool
  | .s _ => true
  | .f _ => true
  | .v n => decide (n < c.allot)

/-- Schedules a result: latency l from the bundle being issued at step n (01 R16). One for a register that the
bundle's own SHRINK releases is discarded (14 R289). -/
def Ctx.schedule (c : Ctx) (n slot l : Nat) (d : Dst) (v m : Row) : Ctx :=
  if c.hasDst d then { c with pend := c.pend ++ [⟨n + l, n, slot, c.inTrap, d, v, m⟩] } else c

def rangesMeet (a n b m : Nat) : Bool := decide (a < b + m) && decide (b < a + n)

/-- 11 R230, R233: an edge orders every write before it ahead of the context's later accesses. -/
def Ctx.meet (c : Ctx) : Ctx := { c with older := [] }
/-- The context has seen, or written, the 8-byte blocks of n bytes at a memory key: no older bytes of them are read (11
R227), and the access comes after every write of its commands so far. -/
def Ctx.forget (c : Ctx) (k n : Nat) : Ctx :=
  let a := k / 8 * 8
  { c with older := (c.older.filter (fun e => !(rangesMeet e.start e.bytes.length a (k + n + 7 - a)))).map (fun e =>
      { e with late := true }) }
/-- 11 R229, R232: an access after an ordering wider than the context comes after the accesses before it, and so after each
write of the context's commands that one of those came after. -/
def Ctx.fenced (c : Ctx) : Ctx := { c with older := c.older.filter (fun e => !e.late) }
/-- 11 R236: the writes of the commands pushed before place n of the context's order are performed at device scope. -/
def Ctx.settledTo (c : Ctx) (n : Nat) : Ctx := { c with older := c.older.filter (fun e => decide (n ≤ e.ord)) }
/-- The n bytes at a memory key, as one write of the context's copy commands found them: its latest there (11 R227). -/
def Ctx.past (c : Ctx) (k n : Nat) : Option (List Byte) :=
  (c.older.find? (fun e => decide (e.start ≤ k) && decide (k < e.start + e.bytes.length) &&
    decide (k + n ≤ e.start + e.bytes.length))).map (fun e => (e.bytes.drop (k - e.start)).take n)

/-- An interlocked load becomes the last writer of its destination: the running code's results that are pending for it
leave (03 R63, log 75). -/
def Ctx.supersede (c : Ctx) (d : Dst) : Ctx :=
  { c with pend := c.pend.filter (fun p => !(decide (p.dst = d) && (p.handler == c.inTrap))) }

/-- 14 R288: r more registers, every bit 0. -/
def Ctx.grow (c : Ctx) (r : Nat) : Ctx :=
  { c with vregs := c.vregs.filter (fun e => decide (e.1 < c.allot)), allot := c.allot + r }

/-- 14 R289: the top r registers leave with their contents, their marks and the results pending for them. -/
def Ctx.shrink (c : Ctx) (r : Nat) : Ctx :=
  let a := c.allot - r
  { c with
    allot := a
    vregs := c.vregs.filter (fun e => decide (e.1 < a))
    marks := c.marks.filter (fun m => !m.vec || decide (m.reg < a))
    pend := c.pend.filter (fun p => match p.dst with | .v n => decide (n < a) | _ => true)
    remoteQ := c.remoteQ.filter (fun x => !x.load || decide (x.v < a)) }

/-- A list in rising order of a relation; equals keep their order. -/
def insertBy {α : Type} (le : α → α → Bool) (x : α) : List α → List α
  | [] => [x]
  | y :: t => if le x y then x :: y :: t else y :: insertBy le x t
def sortBy {α : Type} (le : α → α → Bool) : List α → List α
  | [] => []
  | x :: t => insertBy le x (sortBy le t)

/-- Sixteen bits of an address word and the like, as a row value. -/
def wordRow (v : Word) : Row := v.setWidth 1024

/-! ## Global memory -/

/-- What a byte that nothing has written reads as (DESIGN CHOICE, log 2). -/
def emptyByte : Byte := 0

/-- 01 R24: device index and local address of a physical address. -/
def deviceOf (pa : Nat) : Nat := (pa / 2 ^ 42) % 1024
def localOf (pa : Nat) : Nat := pa % 2 ^ 42

/-- The key of a byte in State.mem: this device's bytes under their local address, another device's above 2^52. -/
def State.key (s : State) (pa : Nat) : Nat :=
  if deviceOf pa = s.difIndex.toNat then localOf pa else 2 ^ 52 + pa % 2 ^ 52

/-- The canonical form of memory. -/
def Memory.wf (m : List Host.Cell) : Bool := Tab.canon emptyByte m

def Memory.read (m : List Host.Cell) (a : Nat) : Byte := Tab.get emptyByte m a
def Memory.write (m : List Host.Cell) (a : Nat) (v : Byte) : List Host.Cell := Tab.set emptyByte m a v

/-- Writes consecutive bytes. -/
def Memory.writeList : List Host.Cell → Nat → List Byte → List Host.Cell
  | m, _, [] => m
  | m, a, b :: t => Memory.writeList (Memory.write m a b) (a + 1) t

/-- Consecutive bytes. -/
def Memory.readList (m : List Host.Cell) : Nat → Nat → List Byte
  | _, 0 => []
  | a, n + 1 => Memory.read m a :: Memory.readList m (a + 1) n

/-- Drops the bytes from a to b − 1, which then read as unwritten. -/
def Memory.clear (m : List Host.Cell) (a b : Nat) : List Host.Cell :=
  List.filter (fun e => !(decide (a ≤ e.1) && decide (e.1 < b))) m

/-- The little-endian number of bytes (00 R7). -/
def leNat : List Byte → Nat
  | [] => 0
  | b :: t => b.toNat + 256 * leNat t

/-- The low n bytes of a number, little-endian. -/
def toBytes : Nat → Nat → List Byte
  | 0, _ => []
  | n + 1, v => BitVec.ofNat 8 v :: toBytes n (v / 256)

/-- One byte of global memory by physical address: the model's read of memory. -/
def State.byte (s : State) (pa : Nat) : Byte := Memory.read s.mem (s.key pa)
/-- n bytes as a number. -/
def State.readMem (s : State) (pa n : Nat) : Nat := leNat (Memory.readList s.mem (s.key pa) n)
def State.readBytes (s : State) (pa n : Nat) : List Byte := Memory.readList s.mem (s.key pa) n
def State.writeBytes (s : State) (pa : Nat) (l : List Byte) : State :=
  { s with mem := Memory.writeList s.mem (s.key pa) l }
def State.writeMem (s : State) (pa n v : Nat) : State := s.writeBytes pa (toBytes n v)
/-- A run of bytes replaced in one pass. -/
def Memory.putRun (m : List Host.Cell) (a : Nat) (l : List Byte) : List Host.Cell :=
  List.filter (fun e => decide (e.1 < a)) m ++
    (((List.range l.length).zip l).filter (fun e => decide (e.2 ≠ emptyByte))).map (fun e => (a + e.1, e.2)) ++
    List.filter (fun e => decide (a + l.length ≤ e.1)) m

/-- 08 R403: the poison bit of the 64-byte block of an address. -/
def State.poisonedAt (s : State) (pa : Nat) : Bool := s.poison.contains (s.key pa / 64)
/-- The blocks that n bytes touch hold poison. -/
def State.poisonedRange (s : State) (pa n : Nat) : Bool :=
  s.poison.any (fun b => decide (s.key pa / 64 ≤ b) && decide (b ≤ (s.key pa + n - 1) / 64))
/-- A write of clean data clears the poison of the whole blocks it covers (08 R403). -/
def State.cleanPoison (s : State) (pa n : Nat) : State :=
  let a := s.key pa
  { s with poison := s.poison.filter (fun b => !(decide (a ≤ 64 * b) && decide (64 * b + 64 ≤ a + n))) }
/-- A write without poison: bytes and the poison rule. -/
def State.storeBytes (s : State) (pa : Nat) (l : List Byte) : State :=
  (s.writeBytes pa l).cleanPoison pa l.length
def State.setPoison (s : State) (pa : Nat) : State :=
  if s.poisonedAt pa then s else { s with poison := (s.key pa / 64) :: s.poison }

/-- 19 R341: n bytes touch a line that a host cache holds and whose back-invalidation response has not arrived. -/
def State.snoopingRange (s : State) (pa n : Nat) : Bool :=
  decide (deviceOf pa = s.difIndex.toNat) && decide (localOf pa < 2 ^ 39) &&
    s.hostLines.any (fun b => decide (localOf pa / 64 ≤ b) && decide (b ≤ (localOf pa + n - 1) / 64))

/-- 21 R366: the 64 KiB frame of an address is retired in some partition's table. -/
def State.retired (s : State) (pa : Nat) : Bool :=
  s.parts.any (fun p => p.2.retired.any (fun e => decide (e.2 = some (localOf pa / 65536)))) &&
    decide (deviceOf pa = s.difIndex.toNat)

/-! ## Rows -/

/-- An invalid, unpoisoned bulk row: what an unlisted bulk row is (08 R177). -/
def invalidRow : RowCell := { data := 0, valid := false, poison := false }

/-- 18 Table 18.3: a count of 1 to 512 row groups in nine bits, so that a field of 0 names 512 (log 69). -/
def Part.groups (p : Part) : Nat := if p.bulkCount = 0 then 512 else p.bulkCount.toNat

/-- 18 R325: first physical group and group count of the holder of a core; boot tasks have all. -/
def Hold.bulk (s : State) (h : Hold) : Nat × Nat :=
  match h.part with
  | some p => ((s.part p).bulkBase.toNat, (s.part p).groups)
  | none => (0, 512)

/-- A row number inside the holder's rows (01 R20, 18 R325). -/
def State.rowOk (s : State) (g n : Nat) : Bool :=
  decide (n ≤ 34815) && decide (n < 2048 + 64 * (Hold.bulk s (s.hold g)).2)

/-- The physical bulk row of row number n. -/
def State.physRow (s : State) (g n : Nat) : Nat := 2048 + 64 * (Hold.bulk s (s.hold g)).1 + (n - 2048)

/-- 08 R174: a row as one indivisible read. -/
def State.row (s : State) (g n : Nat) : RowCell :=
  if n < 2048 then (s.hold g).fast.get {} n else (s.core g).bulk.get invalidRow (s.physRow g n)

/-- Threshold and policy in force of a lifetime class (08 R181, Table 8.4). -/
def Hold.cls (h : Hold) (c : BitVec 3) : Nat × Bool :=
  let w : Word := if c.toNat < 4 then h.forceA else h.forceB
  let f := fld w (16 * (c.toNat % 4)) 16
  ((fld f 0 8).toNat, f.getLsbD 8)

/-- 08 R180: a row write of row n of a group. -/
def Group.written (g : Group) (n thr : Nat) : Group :=
  let first := if g.mask = 0 then g.age else g.first
  let mask := setFld g.mask n 1 1
  if mask = BitVec.allOnes 64 then
    { g with age := g.age - first, first := first, mask := 0,
             req := g.req && !decide (g.age - first < thr) }
  else { g with first := first, mask := mask }

/-- Replaces a whole row (08 R174) and notes the write in its group. -/
def State.putRow (s : State) (g n : Nat) (r : RowCell) : State :=
  if n < 2048 then s.updHold g (fun h => { h with fast := h.fast.set {} n { r with valid := true } })
  else
    let p := s.physRow g n
    let grp := (p - 2048) / 64
    s.updCore g (fun c =>
      let gs := c.groups.get {} grp
      { c with bulk := c.bulk.set invalidRow p r
               groups := c.groups.put grp (gs.written ((p - 2048) % 64) (c.cur.cls gs.cls).1) })

/-- The bits that a byte mask enables. -/
def byteBits (m : BitVec 128) : Row :=
  if m = BitVec.allOnes 128 then allOnes
  else BitVec.ofNat 1024 ((List.range 128).foldl (fun a i => if m.getLsbD i then a + 255 * 2 ^ (8 * i) else a) 0)

/-- 08 Table 8.7: a store of some or all bytes of a row. -/
def RowCell.store (r : RowCell) (v : Row) (m : BitVec 128) : RowCell :=
  let b := byteBits m
  { data := ((if r.valid then r.data else 0) &&& ~~~b) ||| (v &&& b)
    valid := true
    poison := r.poison && decide (m ≠ BitVec.allOnes 128) }

/-- The 128 bytes of a row. -/
def rowBytes (r : Row) : List Byte := toBytes 128 r.toNat
def bytesRow (l : List Byte) : Row := BitVec.ofNat 1024 (leNat l)

/-- Rows first to first + n − 1 meet the rows of the other run. -/
def runsMeet (a n b m : Nat) : Bool := decide (0 < n ∧ 0 < m ∧ a < b + m ∧ b < a + n)

/-! ## Sets, rings and bonds of a core -/

def RowSet.has (t : RowSet) (r : Nat) : Bool := t.ranges.any (fun x => decide (x.1 ≤ r) && decide (r ≤ x.2))
/-- A run of rows lies inside one set. -/
def RowSet.meets (t u : RowSet) : Bool :=
  t.ranges.any (fun x => u.ranges.any (fun y => decide (x.1 ≤ y.2) && decide (y.1 ≤ x.2)))

/-- The matrix commands of a core that are queued or running (06 R131). -/
def MEntry.cmd? : MEntry → Option MCmd
  | .cmd c => some c
  | .fmt _ _ _ => none
/-- The slot whose context pushed an entry. -/
def MEntry.slot : MEntry → Nat
  | .cmd c => c.slot
  | .fmt _ _ n => n
def Hold.matrixCmds (h : Hold) : List MCmd :=
  (match h.matrix.run with | some r => [r.cmd] | none => []) ++ h.matrix.queue.filterMap MEntry.cmd?

/-- Declared read and write sets of the active commands of a core with their issuing slots (09 R211). -/
def Hold.sets (h : Hold) : List (Nat × RowSet × RowSet) :=
  h.matrixCmds.map (fun c => (c.slot, c.rd, c.wr)) ++ h.copies.map (fun c => (c.slot, c.desc.rd, c.desc.wr))

/-- Table 9.7: a row access against the active commands. -/
def Hold.phaseClash (h : Hold) (r : Nat) (write : Bool) : Bool :=
  h.sets.any (fun t => t.2.2.has r || (write && t.2.1.has r))

/-- Table 9.7: a new command's sets against the active commands. -/
def Hold.setClash (h : Hold) (rd wr : RowSet) : Bool :=
  h.sets.any (fun t => t.2.2.meets rd || t.2.2.meets wr || t.2.1.meets wr)

def Hold.ring (h : Hold) (q : Nat) : Ring := h.rings.get {} q
def Hold.setRing (h : Hold) (q : Nat) (r : Ring) : Hold := { h with rings := h.rings.put q r }
/-- Row numbers of a configured ring. -/
def Ring.run (r : Ring) : Nat × Nat := (r.first, if r.conf then r.slots * r.rows else 0)
def Hold.bond? (h : Hold) (id : Nat) : Option Bond := h.bonds.find? (fun b => b.id = id)
/-- The bond that covers a row of its home core. -/
def Hold.bondAt (h : Hold) (r : Nat) : Option Bond :=
  h.bonds.find? (fun b => decide (b.first ≤ r) && decide (r < b.first + b.count))
/-- A run meets a bond, a configured ring or a resident context's carve-out. -/
def Hold.meetsBond (h : Hold) (a n : Nat) : Bool := h.bonds.any (fun b => runsMeet a n b.first b.count)
def Hold.meetsRing (h : Hold) (a n : Nat) : Bool := h.rings.any (fun r => runsMeet a n r.2.run.1 r.2.run.2)
def Hold.meetsCarve (h : Hold) (a n : Nat) : Bool :=
  h.ctxs.any (fun c => c.2.resident && runsMeet a n c.2.spillFirst c.2.spillRows)

/-- 08 R191: handles that hold a bond of their own core, or have lent it for a read. -/
def numberRight (l : Tab Handle) (g id : Nat) (write : Bool) : Bool :=
  l.any (fun e =>
    decide (e.2.home = g) && decide (e.2.bond = id) &&
      (decide (e.2.st = .held) || (decide (e.2.st = .lent) && !write)))
/-- 08 R191: the right of a context of the home core to a row it names by number. -/
def State.rowRight (s : State) (w : Who) (r : Nat) (write : Bool) : Bool :=
  match (s.hold w.core).bondAt r with
  | none => true
  | some b => numberRight (s.ctx w).bonds w.core b.id write

/-- A free value's next draw. -/
def State.freshFree (s : State) : Nat × State := (s.freeCount, { s with freeCount := s.freeCount + 1 })

end Sys2Proof.Machine
end

