-- ==== Sys2Proof/Machine/Cipher.lean ====
section
/-! DEFINITION. AES-256-XTS over data units of 64 bytes, under which low copies are stored (19 R345); the cipher is that of
FIPS 197 and of IEEE 1619, which the spec names and does not restate (log 50). -/
namespace Sys2Proof.Machine

/-! ## AES-256 -/

/-- The product of x and 2 in GF(2^8). -/
def gfDouble (x : Byte) : Byte := if x.getLsbD 7 then (x <<< 1) ^^^ 0x1B#8 else x <<< 1
def gfMul (x y : Byte) : Byte :=
  ((List.range 8).foldl (fun p i => (if y.getLsbD i then p.1 ^^^ p.2 else p.1, gfDouble p.2)) ((0 : Byte), x)).1
/-- The inverse, x to the power 254; that of 0 is 0. -/
def gfInv (x : Byte) : Byte :=
  ((List.range 7).foldl (fun p _ => (gfMul p.1 (gfMul p.2 p.2), gfMul p.2 p.2)) ((1 : Byte), x)).1

def subByte (x : Byte) : Byte :=
  let y := gfInv x
  y ^^^ y.rotateLeft 1 ^^^ y.rotateLeft 2 ^^^ y.rotateLeft 3 ^^^ y.rotateLeft 4 ^^^ 0x63#8
def unsubByte (x : Byte) : Byte := gfInv (x.rotateLeft 1 ^^^ x.rotateLeft 3 ^^^ x.rotateLeft 6 ^^^ 0x05#8)

def xorBytes (x y : List Byte) : List Byte := List.zipWith (· ^^^ ·) x y

/-- The next word of the key schedule, from the words so far, the newest first. -/
def nextKeyWord (l : List (List Byte)) : List (List Byte) :=
  let i := l.length
  let w := l.headD []
  let t :=
    if i % 8 = 0 then xorBytes ((w.drop 1 ++ w.take 1).map subByte) [gfDouble^[i / 8 - 1] 1, 0, 0, 0]
    else if i % 8 = 4 then w.map subByte
    else w
  xorBytes (l.getD 7 []) t :: l
/-- The fifteen round keys of a key of 32 bytes. -/
def roundKeys (key : List Byte) : List (List Byte) :=
  let first := ((List.range 8).map (fun i => (key.drop (4 * i)).take 4)).reverse
  let words := ((List.range 52).foldl (fun l _ => nextKeyWord l) first).reverse
  (List.range 15).map (fun r => ((words.drop (4 * r)).take 4).flatten)

/-- Row r of a block turns left by d r bytes; a block holds its columns in order. -/
def shiftRows (d : Nat) (b : List Byte) : List Byte :=
  (List.range 16).map (fun k => b.getD (k % 4 + 4 * ((k / 4 + d * (k % 4)) % 4)) 0)
/-- Each column is multiplied by the circulant matrix of a row of coefficients. -/
def mixColumns (m : List Byte) (b : List Byte) : List Byte :=
  (List.range 16).map (fun k => (List.range 4).foldl (fun x i =>
    x ^^^ gfMul (m.getD ((i + 4 - k % 4) % 4) 0) (b.getD (k / 4 * 4 + i) 0)) (0 : Byte))

/-- The cipher of one block of 16 bytes, and its inverse, under the round keys. -/
def aesBlock (ks : List (List Byte)) (b : List Byte) : List Byte :=
  let inner := ((ks.drop 1).take 13).foldl
    (fun x k => xorBytes (mixColumns [2, 3, 1, 1] (shiftRows 1 (x.map subByte))) k) (xorBytes b (ks.getD 0 []))
  xorBytes (shiftRows 1 (inner.map subByte)) (ks.getD 14 [])
def unaesBlock (ks : List (List Byte)) (b : List Byte) : List Byte :=
  let inner := ((ks.drop 1).take 13).reverse.foldl
    (fun x k => mixColumns [14, 11, 13, 9] (xorBytes ((shiftRows 3 x).map unsubByte) k)) (xorBytes b (ks.getD 14 []))
  xorBytes ((shiftRows 3 inner).map unsubByte) (ks.getD 0 [])

/-! ## XTS -/

/-- The mask of block j of a data unit: the tweak under the second key, times 2^j in GF(2^128). -/
def xtsMask (tweakKeys : List (List Byte)) (tweak : Nat) : Nat → List Byte
  | 0 => aesBlock tweakKeys (toBytes 16 tweak)
  | j + 1 =>
    let t := leNat (xtsMask tweakKeys tweak j)
    toBytes 16 ((2 * t % 2 ^ 128) ^^^ (if 2 ^ 127 ≤ t then 0x87 else 0))
/-- A data unit under a function of blocks, a tweak and the round keys of the tweak. -/
def xtsUnit (f : List Byte → List Byte) (tweakKeys : List (List Byte)) (tweak : Nat) (l : List Byte) : List Byte :=
  (List.range (l.length / 16)).flatMap (fun j =>
    let m := xtsMask tweakKeys tweak j
    xorBytes (f (xorBytes ((l.drop (16 * j)).take 16) m)) m)

/-! ## Low copies -/

/-- The two keys of a pair (19 R346): what its draw gave, which no path reads. -/
def Seal.keys (t : Seal) (i : Nat) : List Byte := (List.range 32).map (fun k => Config.keyByte t.boot t.part t.gen (32 * i + k))
/-- The bytes that stand in the host's memory for 64 bytes stored under a pair and a tweak, and what bytes there decrypt
to. -/
def Seal.encrypt (t : Seal) (l : List Byte) : List Byte :=
  xtsUnit (aesBlock (roundKeys (t.keys 0))) (roundKeys (t.keys 1)) t.line l
def Seal.decrypt (t : Seal) (l : List Byte) : List Byte :=
  xtsUnit (unaesBlock (roundKeys (t.keys 0))) (roundKeys (t.keys 1)) t.line l

end Sys2Proof.Machine
end

