-- ==== Sys2Proof/Machine/Translate.lean ====
section
/-! DEFINITION. Address translation (18_isolation_translation.md R330 to R332; boot tasks 24 R397), the checks of
physical addresses (01 R24, R402), and reading and validating segments (02 R48 to R50). -/
namespace Sys2Proof.Machine

/-- What an access does to its page (18 R331). -/
inductive Kind where
  | read
  | write
  | fetch
  deriving DecidableEq, Repr

/-- 01 R23: bits [63:56] are zero. -/
def canonical (va : Word) : Bool := decide (va.toNat < 2 ^ 56)

/-- 18 R326: local HBM of a partition. -/
def State.inHbm (s : State) (p pa : Nat) : Bool :=
  let x := s.part p
  decide (deviceOf pa = s.difIndex.toNat) && decide (x.hbmBase.toNat * 2 ^ 30 ≤ localOf pa) &&
    decide (localOf pa < (x.hbmBase.toNat + x.hbmCount.toNat) * 2 ^ 30)

/-- The index of a table level and the page bits of a leaf there (Table 1.6). -/
def levelIndex (va level : Nat) : Nat :=
  match level with
  | 0 => bits va 55 39
  | 1 => bits va 38 30
  | 2 => bits va 29 21
  | _ => bits va 20 16
def levelBits : Nat → Nat
  | 0 => 39
  | 1 => 30
  | 2 => 21
  | _ => 16

/-- Local HBM addresses are those below 512 GiB of this device (Table 1.7). -/
def State.isLocalHbm (s : State) (pa : Nat) : Bool :=
  decide (deviceOf pa = s.difIndex.toNat) && decide (localOf pa < 2 ^ 39)

/-- 12 R244, 15 R307: the tiered range and pallet of an address of a job. -/
def Job.palletAt (j : Job) (va : Nat) : Option (Tiered × Nat) :=
  (j.tiered.find? (fun t => decide (t.base ≤ va) && decide (va < t.base + t.size))).map
    (fun t => (t, (va - t.base) / 65536))
/-- A virtual address in a tiered range of its job. -/
def State.inTier (s : State) (o : Owner) (va : Nat) : Bool := !o.boot && ((s.job o.job).palletAt va).isSome

/-- Why a walk ends without a leaf, with the frame behind cause 12. -/
structure WalkFault where
  cause : Nat
  frame : Option Nat := none
  deriving DecidableEq, Repr

/-- The range of addresses that one entry of a level maps. -/
def levelBase (va level : Nat) : Nat := va / 2 ^ levelBits level * 2 ^ levelBits level

/-- 18 R330: a table of level 1 or 2 is aligned to 4 KiB, one of level 3 to 256 B; the low bits of an entry that names
one are ignored (log 73). -/
def tableAt (level addr : Nat) : Nat := if level = 3 then addr else addr / 4096 * 4096

/-- A line that the host may hold makes an access wait, until the snoop fails (19 R341). -/
def State.snoopCause (s : State) : Nat := if s.foreign.head?.join = some Cause.linkLost then Cause.linkLost else Cause.later

/-- The snoop that an access waits for has failed. -/
def State.snoopLost (s : State) : Bool := decide (s.snoopCause = Cause.linkLost)
/-- What another party answered to a read that the attempt made is used up. -/
def State.settled (s : State) : State := { s with foreign := [] }

/-- 18 R331: the walk from a table at a level: the leaf and the entries of upper levels that it read. An entry that is
poisoned or lies in a retired frame gives no value (21 R356, log 73). -/
def State.walkFrom (s : State) (p j va : Nat) : List Nat → Nat → Except WalkFault (Leaf × List WalkEntry)
  | [], _ => .error ⟨Cause.translation, none⟩
  | level :: more, table =>
    let a := table + 8 * levelIndex va level
    if s.inHbm p table = false then .error ⟨Cause.translation, none⟩
    else if s.snoopingRange a 8 then
      .error ⟨s.snoopCause, none⟩
    else if s.retired a || s.poisonedRange a 8 then .error ⟨Cause.poisoned, some (localOf a / 65536)⟩
    else
      let e := s.readMem a 8
      let addr := bits e 51 8 * 256
      if e % 2 = 0 ∨ bits e 55 52 ≠ 0 ∨ bits e 7 5 ≠ 0 then .error ⟨Cause.translation, none⟩
      else if Nat.testBit e 1 then
        if level = 0 then .error ⟨Cause.translation, none⟩
        else if addr % 2 ^ levelBits level ≠ 0 then .error ⟨Cause.translation, none⟩
        else if s.isLocalHbm addr && !(s.inHbm p addr) then .error ⟨Cause.translation, none⟩
        else .ok ({ job := j, va := levelBase va level, bits := levelBits level, pa := addr, u := Nat.testBit e 4,
                    x := Nat.testBit e 3, w := Nat.testBit e 2, part := p }, [])
      else if level = 3 then .error ⟨Cause.translation, none⟩
      else
        let next := tableAt (level + 1) addr
        match s.walkFrom p j va more next with
        | .error f => .error f
        | .ok (l, es) => .ok (l, ⟨j, level, levelBase va level, next⟩ :: es)

/-- 18 R329, R335: the walk cache of a partition. -/
def State.walksOf (s : State) (p : Nat) : List WalkEntry := s.walks.get [] p
/-- The deepest cached entry on the way to an address. -/
def State.walkHit (s : State) (p j va : Nat) : Option WalkEntry :=
  [2, 1, 0].findSome? (fun level =>
    (s.walksOf p).find? (fun e => decide (e.job = j) && decide (e.level = level) && decide (e.va = levelBase va level)))

/-- A walk of a job's tables (18 R331), from the deepest table that the walk cache holds (R329). -/
def State.walk (s : State) (j : Nat) (va : Word) : Except WalkFault (Leaf × List WalkEntry) :=
  let p := (s.job j).part.toNat
  match s.walkHit p j va.toNat with
  | some e => s.walkFrom p j va.toNat ([0, 1, 2, 3].drop (e.level + 1)) e.table
  | none => s.walkFrom p j va.toNat [0, 1, 2, 3] (s.job j).root

def Leaf.covers (l : Leaf) (j p va : Nat) : Bool :=
  decide (l.job = j) && decide (l.part = p) && decide (l.va = va / 2 ^ l.bits * 2 ^ l.bits)

/-- 18 R324: a partition's share of the entries of a cluster's TLB. -/
def State.tlbShare (s : State) (c : Nat) : Nat :=
  if 2 ≤ (s.parts.filter (fun e => e.2.en && e.2.clusters.getLsbD c)).length then 2048 else 4096

/-- 18 R332: a leaf joins the cluster TLB, within its partition's share of the entries. -/
def State.fillTlb (s : State) (c : Nat) (l : Leaf) : State :=
  let x := s.cluster c
  let mine := x.tlb.filter (fun e => decide (e.part = l.part))
  let others := x.tlb.filter (fun e => !decide (e.part = l.part))
  s.setCluster c { x with tlb := l :: mine.take (s.tlbShare c - 1) ++ others }

/-- 18 R329: the entries that a walk read join its partition's walk cache, 16 for each of its walkers. -/
def State.fillWalks (s : State) (p : Nat) (es : List WalkEntry) : State :=
  let old := (s.walksOf p).filter (fun e => !(es.any (fun x => decide (x.job = e.job) && decide (x.level = e.level) && decide (x.va = e.va))))
  { s with walks := s.walks.put p ((es.reverse ++ old).take (16 * ((s.part p).budgets.get 0 3).toNat)) }

/-- The leaf for an address: from the TLB, or by a walk that fills it (18 R332). -/
def State.leafFor (s : State) (c j : Nat) (va : Word) : Except WalkFault (Leaf × State) :=
  match (s.cluster c).tlb.find? (fun l => l.covers j (s.job j).part.toNat va.toNat) with
  | some l => .ok (l, s)
  | none =>
    match s.walk j va with
    | .ok (l, es) => .ok (l, (s.fillTlb c l).fillWalks l.part es)
    | .error f => .error f

/-- 18 R331: permission of a leaf for a kind of access in a mode. -/
def Leaf.allows (l : Leaf) (priv : Bool) (k : Kind) : Bool :=
  (l.u || priv) &&
    (match k with
     | .read => true
     | .write => l.w
     | .fetch => l.x)

/-! ## Physical addresses -/

/-- Where a physical address lies (01 Table 1.7, R402; the boot store 24 R397). -/
inductive Place where
  | hbm
  | host
  | registers
  | bootStore
  | remote
  | hole
  | noDevice
  deriving DecidableEq, Repr

def State.place (s : State) (pa : Nat) : Place :=
  let a := localOf pa
  if 576 ≤ deviceOf pa then .noDevice
  else if deviceOf pa ≠ s.difIndex.toNat then .remote
  else if a < 2 ^ 39 then .hbm
  else if a < 2 ^ 40 then .hole
  else if a < 2 ^ 41 then .host
  else if 0x20007000000 ≤ a ∧ a < 0x20007100000 then .bootStore
  else if a < 2 ^ 41 + 2 ^ 32 then .registers
  else .hole

/-- 18 R331, R402: the check of a leaf and the physical address it gives: a page that maps register space has u = 0. -/
def State.through (s : State) (l : Leaf) (priv : Bool) (va : Word) (k : Kind) : Except Nat Nat :=
  let pa := l.pa + va.toNat % 2 ^ l.bits
  if l.allows priv k && (priv || decide (s.place pa ≠ .registers)) then .ok pa else .error Cause.permission

/-- 18 R331, 24 R397: the physical address, or the cause: non-canonical, then translation, then permission. -/
def State.translate (s : State) (c : Nat) (o : Owner) (priv : Bool) (va : Word) (k : Kind) :
    Except Nat (Nat × State) :=
  if o.boot then
    if va.toNat < 2 ^ 42 then .ok (s.difIndex.toNat * 2 ^ 42 + va.toNat, s) else .error Cause.translation
  else if canonical va = false then .error Cause.nonCanonical
  else
    match s.leafFor c o.job va with
    | .error f => .error f.cause
    | .ok (l, s') =>
      match s.through l priv va k with
      | .ok pa => .ok (pa, s')
      | .error e => .error e

/-- 21 R366: the frame of the table entry whose poison an access met in its walk. -/
def State.walkFrame (s : State) (c : Nat) (o : Owner) (va : Word) (cause : Nat) : Option Nat :=
  if cause = Cause.poisoned && !o.boot then
    match s.leafFor c o.job va with
    | .error f => f.frame
    | .ok _ => none
  else none

/-- 01 R24, R402; 19 R339; 24 R397: the cause of an access that never reaches its place; reg says whether the
access form may reach device registers. -/
def State.placeOnly (s : State) (o : Owner) (pa : Nat) (k : Kind) (reg : Bool) : Option Nat :=
  match s.place pa with
  | .hbm => none
  | .remote => none
  | .noDevice => some Cause.noSuchDevice
  | .hole => some Cause.unmapped
  | .host => if s.sec.hmode || o.boot || (s.job o.job).fv then none else some Cause.unmapped
  | .registers => if reg then none else some Cause.unmapped
  | .bootStore =>
    if o.boot then (if k = .write then some Cause.permission else none) else some Cause.unmapped

/-- 12 R244: the window of some partition that holds a physical address. -/
def Window.holds (w : Window) (pa : Nat) : Bool := decide (w.base ≤ pa) && decide (pa < w.base + w.elements * 2 ^ w.size)
def State.windowOwner (s : State) (pa : Nat) : Option Nat :=
  (s.parts.find? (fun e => e.2.windows.any (fun w => w.holds pa))).map (fun e => e.1)
/-- 12 R244: no other partition can map a window's addresses. -/
def State.windowShut (s : State) (o : Owner) (pa : Nat) : Bool :=
  !o.boot && (s.windowOwner pa).any (fun p => decide (p ≠ o.part))

/-- The check of the place that a virtual address of a context reaches; a pallet's tier changes no fault (15 R307);
an access of another partition to a window's addresses finds no translation (DESIGN CHOICE, log 104). -/
def State.placeCause (s : State) (o : Owner) (va : Word) (pa : Nat) (k : Kind) (reg : Bool) : Option Nat :=
  if s.windowShut o pa then some Cause.translation
  else if s.inTier o va.toNat && (decide (s.place pa = .host) || decide (s.place pa = .hbm)) then none
  else s.placeOnly o pa k reg

/-- 08 R175: the address an access of n bytes covers. -/
def alignTo (va : Word) (n : Nat) : Word := BitVec.ofNat 64 (va.toNat / n * n)

/-- 12 R248: the versioned region of a job that holds a virtual address. -/
def Job.regionAt (j : Job) (va : Nat) : Option Region :=
  j.regions.find? (fun r => decide (r.base ≤ va) && decide (va < r.base + r.size))

def State.regionAt (s : State) (o : Owner) (va : Nat) : Option Region :=
  if o.boot then none else (s.job o.job).regionAt va

/-- 19 R344: a request to another device can leave this one. -/
def State.route (s : State) (p : Nat) : Bool :=
  s.difEn && (s.ptags.get 0 p).getLsbD 16 && decide (s.difUp ≠ 0)

/-- 19 R339, R344; 22 R388: an access that leaves the device and cannot be sent. -/
def State.unsent (s : State) (p pa : Nat) : Bool :=
  match s.place pa with
  | .remote => !(s.route p) || s.cutOff.contains (deviceOf pa)
  | .host => !s.hostUp
  | _ => false

/-- 22 R387: a request that had been sent when a link-state update arrived which is still under its rounds. -/
def State.wasSent (s : State) (r : Sent) : Bool := s.updates.any (fun u => u.sent.contains r)
/-- Where such a request goes, while it has no response. -/
def State.sentPa (s : State) (r : Sent) : Option Nat :=
  let c := s.ctx r.who
  if c.task ≠ r.task then none
  else if r.load then (c.loadQ.head?.filter (fun l => decide (l.ord = r.ord))).map (fun l => l.pa)
  else (c.storeQ.head?.filter (fun t => decide (t.ord = r.ord))).map (fun t => t.pa)
/-- 22 R388: once the ports that are up have changed, a request to a block waits for the earlier ones to that block. -/
def State.blockBusy (s : State) (pa : Nat) : Bool :=
  decide (s.place pa = .remote) &&
    s.updates.any (fun u => u.sent.any (fun r => (s.sentPa r).any (fun a => decide (a / 64 = pa / 64))))

/-- The faults that the party an access reaches can answer with: "link lost"; "host abort" from the host in PCIe mode
(19 R339); "permission" or "poisoned" from another device (R344, 08 R403). -/
def State.answers (s : State) (pa cause : Nat) : Bool :=
  match s.place pa with
  | .remote => decide (cause = Cause.linkLost) || decide (cause = Cause.permission) || decide (cause = Cause.poisoned)
  | .host => decide (cause = Cause.linkLost) || (decide (cause = Cause.hostAbort) && !s.sec.hmode)
  | _ => false

/-- What the next access outside ends with, when its party can answer so. -/
def State.outsideFault (s : State) (pa : Nat) : Option Nat := s.foreign.head?.join.filter (s.answers pa)
/-- The answer to an access outside is used up. -/
def State.answered (s : State) (pa : Nat) : State :=
  if s.place pa = .remote ∨ s.place pa = .host then { s with foreign := s.foreign.tail } else s

/-- The fault a read of bytes at a physical address meets: a line that the host may hold (19 R341), a retired frame or
poison (08 R403, 15 R308, 21 R366), a dead route (19 R344) or a dead host link (R339), or what the party outside answers. -/
def State.readFault (s : State) (p pa n : Nat) : Option Nat :=
  match s.place pa with
  | .hbm =>
    if s.snoopingRange pa n then some s.snoopCause
    else if s.retired pa || s.poisonedRange pa n then some Cause.poisoned
    else none
  | _ =>
    if s.unsent p pa then some Cause.linkLost
    else if s.blockBusy pa then some Cause.later
    else if decide (s.place pa = .host) && s.poisonedRange pa n then some Cause.poisoned
    else s.outsideFault pa

/-- The fault a write meets (09 R197). -/
def State.writeFault (s : State) (p pa : Nat) : Option Nat :=
  match s.place pa with
  | .hbm => if s.retired pa then some Cause.poisoned else none
  | _ => if s.unsent p pa then some Cause.linkLost else none

/-- Where in a run of n bytes at pa the first poisoned block begins. -/
def State.poisonOffset (s : State) (pa n : Nat) : Nat :=
  if s.retired pa || !(s.poisonedRange pa n) then 0
  else
    ((List.range (n / 64 + 2)).map (fun i => if i = 0 then 0 else 64 * i - s.key pa % 64)).find? (fun i =>
      decide (i < n) && s.poisonedAt (pa + i)) |>.getD 0

/-- 21 R366: the frame behind a cause 12 that came from HBM. -/
def State.frameOf (s : State) (cause pa : Nat) : Option Nat :=
  if cause = Cause.poisoned && s.isLocalHbm pa then some (localOf pa / 65536) else none

/-! ## Low copies seen by another path (19 R345) -/

/-- What the block at a physical address is stored under. -/
def State.sealAt (s : State) (pa : Nat) : Option Seal :=
  let b := s.key pa / 64
  (s.seals.find? (fun r => decide (r.first ≤ b) && decide (b < r.first + r.count))).bind (fun r =>
    r.under.map (fun t => { t with line := t.line + (b - r.first) }))
/-- Blocks are stored under t from now on. -/
def State.sealRun (s : State) (pa count : Nat) (t : Option Seal) : State :=
  let b := s.key pa / 64
  { s with seals := ⟨b, count, t⟩ ::
      s.seals.filter (fun r => !(decide (b ≤ r.first) && decide (r.first + r.count ≤ b + count))) }
/-- What an access by a job's tiered range stores its low copy under, and what a context's access does: the partition's keys
with the virtual address for a tiered range of its job, and nothing for any other path. -/
def State.tierSeal (s : State) (job va : Nat) : Seal :=
  let p := (s.job job).part.toNat
  ⟨s.sec.deviceKey, p, (s.part p).keyGen, va / 64⟩
def State.sealFor (s : State) (o : Owner) (va : Nat) : Option Seal :=
  if s.inTier o va then some (s.tierSeal o.job va) else none
/-- What the block at a stands as in the host's memory. -/
def State.rawLine (s : State) (a : Nat) : List Byte :=
  match s.sealAt a with
  | none => s.readBytes a 64
  | some t => t.encrypt (s.readBytes a 64)
/-- What the block at a reads as for an access under e. -/
def State.lineAs (s : State) (e : Option Seal) (a : Nat) : List Byte :=
  if s.sealAt a = e then s.readBytes a 64
  else
    match e with
    | none => s.rawLine a
    | some t => t.decrypt (s.rawLine a)
/-- The block at a is stored under e, and holds what an access under e reads. -/
def State.reseal (s : State) (e : Option Seal) (a : Nat) : State :=
  if s.sealAt a = e then s
  else ({ s with mem := Memory.putRun s.mem (s.key a) (s.lineAs e a) } : State).sealRun a 1 e
/-- The offsets of the blocks that n bytes at pa touch, from the first one's start. -/
def lineOffsets (pa n : Nat) : List Nat := (List.range ((pa + n + 63) / 64 - pa / 64)).map (fun i => 64 * i)
/-- An access reaches a block of the host window that is stored under other keys, or another tweak, than its own. -/
def State.sealed (s : State) (o : Owner) (va pa n : Nat) : Bool :=
  decide (s.place pa = .host) && (lineOffsets pa n).any (fun i =>
    decide (s.sealAt (pa / 64 * 64 + i) ≠ s.sealFor o (va / 64 * 64 + i)))
/-- The bytes that a read gives. -/
def State.readFor (s : State) (o : Owner) (va pa n : Nat) : List Byte :=
  if s.sealed o va pa n then
    (((lineOffsets pa n).flatMap (fun i => s.lineAs (s.sealFor o (va / 64 * 64 + i)) (pa / 64 * 64 + i))).drop (pa % 64)).take n
  else s.readBytes pa n
/-- A write leaves the blocks that it touches stored under its own keys and tweak. -/
def State.storeFor (s : State) (o : Owner) (va pa : Nat) (l : List Byte) : State :=
  if s.sealed o va pa l.length then
    ((lineOffsets pa l.length).foldl
      (fun x i => x.reseal (s.sealFor o (va / 64 * 64 + i)) (pa / 64 * 64 + i)) s).storeBytes pa l
  else s.storeBytes pa l

/-! ## Reads by hardware for a context -/

/-- A failed read by hardware on a context's behalf: cause, virtual address and frame. -/
structure ReadFault where
  cause : Nat
  addr : Word
  frame : Option Nat := none
  deriving DecidableEq, Repr

/-- The bytes of one page's part of a run, read on behalf of a context (segments, tables, records). -/
def State.fetchPart (s : State) (c : Nat) (o : Owner) (priv : Bool) (va : Word) (n : Nat) (k : Kind) :
    Except ReadFault (List Byte × State) :=
  match s.translate c o priv va k with
  | .error e => .error ⟨e, va, s.walkFrame c o va e⟩
  | .ok (pa, s') =>
    match s'.placeCause o va pa k false with
    | some e => .error ⟨e, va, none⟩
    | none =>
      match s'.readFault o.part pa n with
      | some e =>
        let i := if e = Cause.poisoned then s'.poisonOffset pa n else 0
        .error ⟨e, va + BitVec.ofNat 64 i, s'.frameOf e (pa + i)⟩
      | none => .ok (s'.readFor o va.toNat pa n, s'.answered pa)

/-- A run of bytes read in pieces that do not cross a 4 KiB line; k bounds the pieces. -/
def State.fetchRun (c : Nat) (o : Owner) (priv : Bool) (kd : Kind) :
    Nat → State → Word → Nat → Except ReadFault (List Byte × State)
  | 0, s, _, _ => .ok ([], s)
  | k + 1, s, va, n =>
    let m := min n (4096 - va.toNat % 4096)
    match s.fetchPart c o priv va m kd with
    | .error e => .error e
    | .ok (l, s') =>
      if n ≤ m then .ok (l, s')
      else
        match State.fetchRun c o priv kd k s' (va + BitVec.ofNat 64 m) (n - m) with
        | .error e => .error e
        | .ok (l2, s2) => .ok (l ++ l2, s2)

def State.fetchBytes (s : State) (c : Nat) (o : Owner) (priv : Bool) (va : Word) (n : Nat) (kd : Kind) :
    Except ReadFault (List Byte × State) :=
  if n = 0 then .ok ([], s) else State.fetchRun c o priv kd (n / 4096 + 2) s va n

/-! ## Segments -/

/-- CRC-32C, one bit (02 Table 2.18). -/
def crcBit (c : BitVec 32) : BitVec 32 :=
  if c.getLsbD 0 then (c >>> 1) ^^^ 0x82F63B78#32 else c >>> 1
def crcByte (c : BitVec 32) (b : Byte) : BitVec 32 :=
  (List.range 8).foldl (fun x _ => crcBit x) (c ^^^ b.setWidth 32)
def crc32c (l : List Byte) : BitVec 32 := ~~~(l.foldl crcByte 0xFFFFFFFF#32)

/-- A validated and expanded segment. -/
structure Segment where
  next : Word
  bundles : List BundleWord
  imageRow : Nat
  image : List Row
  deriving DecidableEq, Repr

/-- 02 R49: the present words of a compressed bundle, in ascending slot order, from slot k on. -/
def expandWords (p : Byte) : List Nat → List Byte → Option (Nat × List Byte)
  | [], l => some (0, l)
  | k :: ks, l =>
    if p.getLsbD k then
      match l with
      | b0 :: b1 :: b2 :: b3 :: t =>
        match expandWords p ks t with
        | some (v, r) => some (leNat [b0, b1, b2, b3] * 2 ^ (32 * k) + v, r)
        | none => none
      | _ => none
    else expandWords p ks l

/-- 02 R49, R50: exactly n bundles in exactly the bytes given. -/
def expandBundles : Nat → List Byte → Option (List BundleWord)
  | 0, [] => some []
  | 0, _ :: _ => none
  | _ + 1, [] => none
  | n + 1, p :: l =>
    match expandWords p [0, 1, 2, 3, 4, 5, 6, 7] l with
    | none => none
    | some (v, r) =>
      match expandBundles n r with
      | none => none
      | some t => some (BitVec.ofNat 256 v :: t)

/-- The rows of an image. -/
def imageRows : Nat → List Byte → List Row
  | 0, _ => []
  | n + 1, l => bytesRow (l.take 128) :: imageRows n (l.drop 128)

/-- 02 R48: the address of the header: bits [4:0] are ignored. -/
def segmentBase (va : Word) : Word := va &&& ~~~0x1F#64

/-- 02 R50: reads, validates and expands the segment at an address for a context's job; a fault of the reads of header,
body and image is reported in place of a failed check. -/
def State.readSegment (s : State) (c : Nat) (o : Owner) (priv : Bool) (va : Word) :
    Except ReadFault (Segment × State) :=
  let a := segmentBase va
  let bad : ReadFault := ⟨Cause.segment, a, none⟩
  match s.fetchBytes c o priv a 32 .fetch with
  | .error e => .error e
  | .ok (h, s1) =>
    let f (i n : Nat) : Nat := leNat ((h.drop i).take n)
    let count := f 4 2
    let flags := f 6 1
    let imgOff := f 16 4
    let imgRow := f 20 2
    let imgRows := f 22 2
    let body := f 24 4
    let check := f 28 4
    let badHeader : Bool := decide (f 0 4 ≠ 0x47455351 ∨ count = 0 ∨ 512 < count ∨ f 7 1 ≠ 0 ∨ 2 ≤ flags ∨ (flags = 0 ∧ check ≠ 0) ∨
        (imgRows = 0 ∧ (imgOff ≠ 0 ∨ imgRow ≠ 0)) ∨
        (imgRows ≠ 0 ∧ (imgOff = 0 ∨ imgOff % 32 ≠ 0 ∨ imgOff < 32 + body)) ∨ 2048 < imgRow + imgRows ∨
        33 * 512 < body)
    match s1.fetchBytes c o priv (a + 32) body .fetch with
    | .error e => .error e
    | .ok (l, s2) =>
      match s2.fetchBytes c o priv (a + BitVec.ofNat 64 imgOff) (128 * imgRows) .fetch with
      | .error e => .error e
      | .ok (img, s3) =>
        if badHeader then .error bad
        else
          let whole : Except ReadFault (List Byte × State) :=
            if flags = 0 then .ok ([], s3)
            else if imgRows = 0 then .ok (l, s3)
            else s3.fetchBytes c o priv (a + 32) (imgOff + 128 * imgRows - 32) .fetch
          match whole with
          | .error e => .error e
          | .ok (w, s4) =>
            match expandBundles count l with
            | none => .error bad
            | some bs =>
              if flags = 1 ∧ crc32c w ≠ BitVec.ofNat 32 check then .error bad
              else .ok (⟨BitVec.ofNat 64 (f 8 8), bs, imgRow, imageRows imgRows img⟩, s4)

end Sys2Proof.Machine
end

