-- ==== Sys2Proof/Machine/Digest.lean ====
section
/-! DEFINITION. SHAKE256 with 64 bytes of output, the digest of every measurement and report (19 R347); the function is
FIPS 202's, which the spec names and does not restate (log 30). -/
namespace Sys2Proof.Machine

abbrev Keccak := List Word

def kLane (s : Keccak) (x y : Nat) : Word := s.getD (x % 5 + 5 * (y % 5)) 0
/-- A state from a function of x and y. -/
def kLanes (f : Nat → Nat → Word) : Keccak := (List.range 25).map (fun i => f (i % 5) (i / 5))

def rhoOffsets : List Nat :=
  [0, 1, 62, 28, 27, 36, 44, 6, 55, 20, 3, 10, 43, 25, 39, 41, 45, 15, 21, 8, 18, 2, 61, 56, 14]

def roundConstants : List Word :=
  [0x0000000000000001, 0x0000000000008082, 0x800000000000808A, 0x8000000080008000, 0x000000000000808B,
   0x0000000080000001, 0x8000000080008081, 0x8000000000008009, 0x000000000000008A, 0x0000000000000088,
   0x0000000080008009, 0x000000008000000A] ++
  [0x000000008000808B, 0x800000000000008B, 0x8000000000008089, 0x8000000000008003, 0x8000000000008002,
   0x8000000000000080, 0x000000000000800A, 0x800000008000000A, 0x8000000080008081, 0x8000000000008080,
   0x0000000080000001, 0x8000000080008008]

def keccakTheta (s : Keccak) : Keccak :=
  let c : List Word := (List.range 5).map (fun x => kLane s x 0 ^^^ kLane s x 1 ^^^ kLane s x 2 ^^^ kLane s x 3 ^^^ kLane s x 4)
  let d : List Word := (List.range 5).map (fun x => c.getD ((x + 4) % 5) 0 ^^^ (c.getD ((x + 1) % 5) 0).rotateLeft 1)
  kLanes (fun x y => kLane s x y ^^^ d.getD x 0)

/-- The steps ρ and π: lane (x, y) turns and moves to (y, 2x + 3y). -/
def keccakRhoPi (s : Keccak) : Keccak :=
  kLanes (fun x y =>
    let u := (x + 3 * y) % 5
    (kLane s u x).rotateLeft (rhoOffsets.getD (u + 5 * x) 0))

def keccakChi (s : Keccak) : Keccak := kLanes (fun x y => kLane s x y ^^^ (~~~(kLane s (x + 1) y) &&& kLane s (x + 2) y))

def keccakRound (s : Keccak) (rc : Word) : Keccak :=
  match keccakChi (keccakRhoPi (keccakTheta s)) with
  | [] => []
  | a :: t => (a ^^^ rc) :: t

def keccak (s : Keccak) : Keccak := roundConstants.foldl keccakRound s

/-- One block of 136 bytes joins the state. -/
def absorbBlock (s : Keccak) (b : List Byte) : Keccak :=
  keccak ((List.range 25).map (fun i => s.getD i 0 ^^^ BitVec.ofNat 64 (leNat ((b.drop (8 * i)).take 8))))

def absorb : Nat → Keccak → List Byte → Keccak
  | 0, s, _ => s
  | n + 1, s, l => absorb n (absorbBlock s (l.take 136)) (l.drop 136)

/-- Padding: 0x1F, zeros, and the top bit of the last byte of the block. -/
def shakePad (l : List Byte) : List Byte :=
  let r := l.length % 136
  if r = 135 then l ++ [0x9F] else l ++ [0x1F] ++ List.replicate (134 - r) 0 ++ [0x80]

def shake256 (l : List Byte) : List Byte :=
  let p := shakePad l
  ((absorb (p.length / 136) (List.replicate 25 0) p).take 8).flatMap (fun w => toBytes 8 w.toNat)

end Sys2Proof.Machine
end

