-- ==== Sys2Proof/Decode.lean ====
section
/-! DEFINITION. The decoder: slot words by the major opcode of their slot's table (02_bundle_and_assembly.md
R38, Tables 2.4 to 2.9, layouts R39 to R47), microwords (06_matrix_unit.md Table 6.8a), and after it the encoder
from the same layouts. A word whose opcode is unassigned, that has a nonzero bit in a field shown as 0, or whose
coded field holds a value its instruction does not accept (R33) is refused. -/
namespace Sys2Proof

/-- The slot classes of Table 1.2. -/
inductive SlotClass where
  | control
  | scalar
  | memory
  | vector
  | row
  | engine
  deriving DecidableEq, Repr

/-- Table 1.2: the class of each slot. -/
def classOf : Nat → SlotClass
  | 0 => .control
  | 1 => .scalar
  | 2 => .scalar
  | 3 => .memory
  | 4 => .vector
  | 5 => .vector
  | 6 => .row
  | _ => .engine

/-- The major opcode, bits [31:26] (R29). -/
def opcode (w : SlotWord) : Nat := (fld w 26 6).toNat

/-- Control slot words, coded fields not yet checked. -/
def rawControl (w : SlotWord) : Option Instr :=
  match opcode w with
  | 0 => if fld w 0 26 = 0#26 then some .nop else none
  | 1 => if fld w 16 5 = 0#5 then some (.br (fld w 25 1) (fld w 21 4) (fld w 0 16)) else none
  | 2 => if fld w 16 10 = 0#10 then some (.bem (fld w 0 16)) else if fld w 16 10 = 512#10 then some (.bnem (fld w 0 16)) else none
  | 3 => if fld w 16 5 = 0#5 then some (.call (fld w 21 5) (fld w 0 16)) else none
  | 4 => if fld w 0 21 = 0#21 then some (.ret (fld w 21 5)) else none
  | 5 => if fld w 0 16 = 0#16 then some (.sjmp (fld w 25 1) (fld w 21 4) (fld w 16 5)) else none
  | 8 => if fld w 13 5 = 0#5 then some (.loop (fld w 23 3) (fld w 18 5) (fld w 4 9) (fld w 0 4)) else none
  | 9 => some (.loopi (fld w 23 3) (fld w 13 10) (fld w 4 9) (fld w 0 4))
  | 10 => if fld w 0 14 = 0#14 then some (.igate (fld w 23 3) (fld w 21 2) (fld w 14 7)) else none
  | 16 => if fld w 20 1 = 0#1 ∧ fld w 0 12 = 0#12 then some (.rwait (fld w 22 4) (fld w 21 1) (fld w 12 8)) else none
  | 17 => if fld w 0 8 = 0#8 then some (.bindf (fld w 22 4) (fld w 16 6) (fld w 8 8)) else none
  | 18 => if fld w 0 26 = 0#26 then some (.yield) else none
  | 19 => if fld w 0 26 = 0#26 then some (.exit) else none
  | 24 => if fld w 0 19 = 0#19 then some (.spawn (fld w 21 5) (fld w 19 2)) else none
  | 25 => if fld w 0 9 = 0#9 then some (.spawns (fld w 21 5) (fld w 16 5) (fld w 11 5) (fld w 9 2)) else none
  | 26 => if fld w 0 16 = 0#16 then some (.decide (fld w 21 5) (fld w 16 5)) else none
  | 32 => if fld w 0 23 = 0#23 then some (.oppt (fld w 23 3)) else none
  | 33 => if fld w 0 24 = 0#24 then some (.hint (fld w 24 2)) else none
  | 34 => if fld w 0 23 = 0#23 then some (.sbar (fld w 23 3)) else none
  | 35 => if fld w 0 23 = 0#23 then some (.grow (fld w 23 3)) else none
  | 36 => if fld w 0 23 = 0#23 then some (.shrink (fld w 23 3)) else none
  | 40 => if fld w 0 18 = 0#18 then some (.trap (fld w 18 8)) else none
  | 41 => if fld w 0 26 = 0#26 then some (.eret) else none
  | 42 => if fld w 0 9 = 0#9 then some (.srr (fld w 21 5) (fld w 9 12)) else none
  | 43 => if fld w 0 9 = 0#9 then some (.srw (fld w 21 5) (fld w 9 12)) else none
  | 44 => if fld w 0 26 = 0#26 then some (.halt) else none
  | 60 => some (.pwait (fld w 24 4) (fld w 20 4) (fld w 16 4) (fld w 12 4) (fld w 8 4) (fld w 4 4) (fld w 0 4))
  | 61 => some (.pwait (fld w 24 4) (fld w 20 4) (fld w 16 4) (fld w 12 4) (fld w 8 4) (fld w 4 4) (fld w 0 4))
  | 62 => some (.pwait (fld w 24 4) (fld w 20 4) (fld w 16 4) (fld w 12 4) (fld w 8 4) (fld w 4 4) (fld w 0 4))
  | 63 => some (.pwait (fld w 24 4) (fld w 20 4) (fld w 16 4) (fld w 12 4) (fld w 8 4) (fld w 4 4) (fld w 0 4))
  | _ => none

/-- Scalar slot words, coded fields not yet checked. -/
def rawScalar (w : SlotWord) : Option Instr :=
  match opcode w with
  | 0 => if fld w 0 26 = 0#26 then some .nop else none
  | 1 => if fld w 0 7 = 0#7 then some (.add (fld w 22 4) (fld w 17 5) (fld w 12 5) (fld w 7 5)) else none
  | 2 => if fld w 0 7 = 0#7 then some (.sub (fld w 22 4) (fld w 17 5) (fld w 12 5) (fld w 7 5)) else none
  | 3 => if fld w 0 7 = 0#7 then some (.and (fld w 22 4) (fld w 17 5) (fld w 12 5) (fld w 7 5)) else none
  | 4 => if fld w 0 7 = 0#7 then some (.or (fld w 22 4) (fld w 17 5) (fld w 12 5) (fld w 7 5)) else none
  | 5 => if fld w 0 7 = 0#7 then some (.xor (fld w 22 4) (fld w 17 5) (fld w 12 5) (fld w 7 5)) else none
  | 6 => if fld w 0 7 = 0#7 then some (.andn (fld w 22 4) (fld w 17 5) (fld w 12 5) (fld w 7 5)) else none
  | 8 => if fld w 0 7 = 0#7 then some (.shl (fld w 22 4) (fld w 17 5) (fld w 12 5) (fld w 7 5)) else none
  | 9 => if fld w 0 7 = 0#7 then some (.shr (fld w 22 4) (fld w 17 5) (fld w 12 5) (fld w 7 5)) else none
  | 10 => if fld w 0 7 = 0#7 then some (.sar (fld w 22 4) (fld w 17 5) (fld w 12 5) (fld w 7 5)) else none
  | 11 => if fld w 0 7 = 0#7 then some (.ror (fld w 22 4) (fld w 17 5) (fld w 12 5) (fld w 7 5)) else none
  | 12 => if fld w 0 2 = 0#2 then some (.fshl (fld w 22 4) (fld w 17 5) (fld w 12 5) (fld w 7 5) (fld w 2 5)) else none
  | 13 => if fld w 0 2 = 0#2 then some (.fshr (fld w 22 4) (fld w 17 5) (fld w 12 5) (fld w 7 5) (fld w 2 5)) else none
  | 16 => if fld w 0 7 = 0#7 then some (.mul (fld w 22 4) (fld w 17 5) (fld w 12 5) (fld w 7 5)) else none
  | 17 => if fld w 0 7 = 0#7 then some (.mulh (fld w 22 4) (fld w 17 5) (fld w 12 5) (fld w 7 5)) else none
  | 18 => if fld w 0 7 = 0#7 then some (.mulhu (fld w 22 4) (fld w 17 5) (fld w 12 5) (fld w 7 5)) else none
  | 19 => if fld w 0 7 = 0#7 then some (.div (fld w 22 4) (fld w 17 5) (fld w 12 5) (fld w 7 5)) else none
  | 20 => if fld w 0 7 = 0#7 then some (.divu (fld w 22 4) (fld w 17 5) (fld w 12 5) (fld w 7 5)) else none
  | 21 => if fld w 0 7 = 0#7 then some (.rem (fld w 22 4) (fld w 17 5) (fld w 12 5) (fld w 7 5)) else none
  | 22 => if fld w 0 7 = 0#7 then some (.remu (fld w 22 4) (fld w 17 5) (fld w 12 5) (fld w 7 5)) else none
  | 24 => if fld w 0 7 = 0#7 then some (.min (fld w 22 4) (fld w 17 5) (fld w 12 5) (fld w 7 5)) else none
  | 25 => if fld w 0 7 = 0#7 then some (.max (fld w 22 4) (fld w 17 5) (fld w 12 5) (fld w 7 5)) else none
  | 26 => if fld w 0 7 = 0#7 then some (.minu (fld w 22 4) (fld w 17 5) (fld w 12 5) (fld w 7 5)) else none
  | 27 => if fld w 0 7 = 0#7 then some (.maxu (fld w 22 4) (fld w 17 5) (fld w 12 5) (fld w 7 5)) else none
  | 28 => if fld w 0 3 = 0#3 then some (.sel (fld w 22 4) (fld w 17 5) (fld w 12 5) (fld w 7 5) (fld w 3 4)) else none
  | 29 => if fld w 0 12 = 0#12 then some (.clz (fld w 22 4) (fld w 17 5) (fld w 12 5)) else none
  | 30 => if fld w 0 12 = 0#12 then some (.popc (fld w 22 4) (fld w 17 5) (fld w 12 5)) else none
  | 31 => if fld w 0 12 = 0#12 then some (.brev (fld w 22 4) (fld w 17 5) (fld w 12 5)) else none
  | 32 => some (.addi (fld w 22 4) (fld w 17 5) (fld w 12 5) (fld w 0 12))
  | 33 => some (.andi (fld w 22 4) (fld w 17 5) (fld w 12 5) (fld w 0 12))
  | 34 => some (.ori (fld w 22 4) (fld w 17 5) (fld w 12 5) (fld w 0 12))
  | 35 => some (.xori (fld w 22 4) (fld w 17 5) (fld w 12 5) (fld w 0 12))
  | 36 => if fld w 6 6 = 0#6 then some (.shli (fld w 22 4) (fld w 17 5) (fld w 12 5) (fld w 0 6)) else none
  | 37 => if fld w 6 6 = 0#6 then some (.shri (fld w 22 4) (fld w 17 5) (fld w 12 5) (fld w 0 6)) else none
  | 38 => if fld w 6 6 = 0#6 then some (.sari (fld w 22 4) (fld w 17 5) (fld w 12 5) (fld w 0 6)) else none
  | 39 => if fld w 6 6 = 0#6 then some (.rori (fld w 22 4) (fld w 17 5) (fld w 12 5) (fld w 0 6)) else none
  | 40 => some (.movi (fld w 22 4) (fld w 17 5) (fld w 0 17))
  | 41 => if fld w 16 1 = 0#1 then some (.movs (fld w 22 4) (fld w 17 5) (fld w 0 16)) else none
  | 42 => if fld w 0 4 = 0#4 then some (.cmp (fld w 22 4) (fld w 18 4) (fld w 14 4) (fld w 9 5) (fld w 4 5)) else none
  | 43 => some (.cmpi (fld w 22 4) (fld w 18 4) (fld w 14 4) (fld w 9 5) (fld w 0 9))
  | 44 => some (.cb (fld w 22 4) (fld w 18 4) (fld w 13 5) (fld w 8 5) (fld w 0 8))
  | 48 => if fld w 0 7 = 0#7 then some (.fadd (fld w 22 4) (fld w 17 5) (fld w 12 5) (fld w 7 5)) else none
  | 49 => if fld w 0 7 = 0#7 then some (.fsub (fld w 22 4) (fld w 17 5) (fld w 12 5) (fld w 7 5)) else none
  | 50 => if fld w 0 7 = 0#7 then some (.fmul (fld w 22 4) (fld w 17 5) (fld w 12 5) (fld w 7 5)) else none
  | 51 => if fld w 0 7 = 0#7 then some (.fma (fld w 22 4) (fld w 17 5) (fld w 12 5) (fld w 7 5)) else none
  | 52 => if fld w 0 4 = 0#4 then some (.fcmp (fld w 22 4) (fld w 18 4) (fld w 14 4) (fld w 9 5) (fld w 4 5)) else none
  | 53 => if fld w 7 1 = 0#1 ∧ fld w 0 3 = 0#3 then some (.fcvt (fld w 22 4) (fld w 17 5) (fld w 12 5) (fld w 8 4) (fld w 3 4)) else none
  | _ => none

/-- Memory slot words, coded fields not yet checked. -/
def rawMemory (w : SlotWord) : Option Instr :=
  match opcode w with
  | 0 => if fld w 0 26 = 0#26 then some .nop else none
  | 1 => if fld w 11 3 = 0#3 then some (.ld (fld w 21 5) (fld w 16 5) (fld w 14 2) (fld w 0 11)) else none
  | 2 => if fld w 11 3 = 0#3 then some (.ldx (fld w 21 5) (fld w 16 5) (fld w 14 2) (fld w 0 11)) else none
  | 3 => if fld w 11 3 = 0#3 then some (.st (fld w 21 5) (fld w 16 5) (fld w 14 2) (fld w 0 11)) else none
  | 4 => some (.ldaq (fld w 21 5) (fld w 16 5) (fld w 14 2) (fld w 11 3) (fld w 0 11))
  | 5 => some (.strl (fld w 21 5) (fld w 16 5) (fld w 14 2) (fld w 11 3) (fld w 0 11))
  | 6 => if fld w 0 26 = 0#26 then some (.mark) else none
  | 7 => if fld w 14 12 = 0#12 ∧ fld w 0 11 = 0#11 then some (.fence (fld w 11 3)) else none
  | 8 => if fld w 6 5 = 0#5 ∧ fld w 0 1 = 0#1 then some (.aadd (fld w 21 5) (fld w 16 5) (fld w 11 5) (fld w 4 2) (fld w 1 3)) else none
  | 9 => if fld w 6 5 = 0#5 ∧ fld w 0 1 = 0#1 then some (.aand (fld w 21 5) (fld w 16 5) (fld w 11 5) (fld w 4 2) (fld w 1 3)) else none
  | 10 => if fld w 6 5 = 0#5 ∧ fld w 0 1 = 0#1 then some (.aor (fld w 21 5) (fld w 16 5) (fld w 11 5) (fld w 4 2) (fld w 1 3)) else none
  | 11 => if fld w 6 5 = 0#5 ∧ fld w 0 1 = 0#1 then some (.axor (fld w 21 5) (fld w 16 5) (fld w 11 5) (fld w 4 2) (fld w 1 3)) else none
  | 12 => if fld w 6 5 = 0#5 ∧ fld w 0 1 = 0#1 then some (.amin (fld w 21 5) (fld w 16 5) (fld w 11 5) (fld w 4 2) (fld w 1 3)) else none
  | 13 => if fld w 6 5 = 0#5 ∧ fld w 0 1 = 0#1 then some (.amax (fld w 21 5) (fld w 16 5) (fld w 11 5) (fld w 4 2) (fld w 1 3)) else none
  | 14 => if fld w 6 5 = 0#5 ∧ fld w 0 1 = 0#1 then some (.aminu (fld w 21 5) (fld w 16 5) (fld w 11 5) (fld w 4 2) (fld w 1 3)) else none
  | 15 => if fld w 6 5 = 0#5 ∧ fld w 0 1 = 0#1 then some (.amaxu (fld w 21 5) (fld w 16 5) (fld w 11 5) (fld w 4 2) (fld w 1 3)) else none
  | 16 => if fld w 4 7 = 2#7 ∧ fld w 0 1 = 0#1 then some (.afadd (fld w 21 5) (fld w 16 5) (fld w 11 5) (fld w 1 3)) else none
  | 17 => if fld w 4 7 = 2#7 ∧ fld w 0 1 = 0#1 then some (.afmin (fld w 21 5) (fld w 16 5) (fld w 11 5) (fld w 1 3)) else none
  | 18 => if fld w 4 7 = 2#7 ∧ fld w 0 1 = 0#1 then some (.afmax (fld w 21 5) (fld w 16 5) (fld w 11 5) (fld w 1 3)) else none
  | 19 => if fld w 6 5 = 0#5 ∧ fld w 0 1 = 0#1 then some (.aswp (fld w 21 5) (fld w 16 5) (fld w 11 5) (fld w 4 2) (fld w 1 3)) else none
  | 20 => if fld w 0 1 = 0#1 then some (.acas (fld w 21 5) (fld w 16 5) (fld w 11 5) (fld w 6 5) (fld w 4 2) (fld w 1 3)) else none
  | 24 => if fld w 0 9 = 0#9 then some (.vld (fld w 21 5) (fld w 16 5) (fld w 11 5) (fld w 9 2)) else none
  | 25 => if fld w 0 9 = 0#9 then some (.vldle (fld w 21 5) (fld w 16 5) (fld w 11 5) (fld w 9 2)) else none
  | 26 => if fld w 0 9 = 0#9 then some (.vst (fld w 21 5) (fld w 16 5) (fld w 11 5) (fld w 9 2)) else none
  | 27 => if fld w 21 5 = 0#5 ∧ fld w 0 11 = 0#11 then some (.vpub (fld w 16 5) (fld w 11 5)) else none
  | 28 => if fld w 21 5 = 0#5 ∧ fld w 0 11 = 0#11 then some (.vfloor (fld w 16 5) (fld w 11 5)) else none
  | 29 => if fld w 21 5 = 0#5 ∧ fld w 0 11 = 0#11 then some (.vdrop (fld w 16 5) (fld w 11 5)) else none
  | 30 => if fld w 0 16 = 0#16 then some (.vquery (fld w 21 5) (fld w 16 5)) else none
  | 32 => if fld w 0 13 = 0#13 then some (.waita (fld w 21 5) (fld w 16 5) (fld w 14 2) (fld w 13 1)) else none
  | 33 => if fld w 0 16 = 0#16 then some (.tlook (fld w 21 5) (fld w 16 5)) else none
  | 34 => if fld w 21 5 = 0#5 ∧ fld w 0 11 = 0#11 then some (.tset (fld w 16 5) (fld w 11 5)) else none
  | 35 => if fld w 21 5 = 0#5 ∧ fld w 0 16 = 0#16 then some (.tclr (fld w 16 5)) else none
  | 36 => if fld w 16 5 = 0#5 then some (.spill (fld w 21 5) (fld w 0 16)) else none
  | 37 => if fld w 16 5 = 0#5 then some (.fill (fld w 21 5) (fld w 0 16)) else none
  | _ => none

/-- Vector slot words, coded fields not yet checked. -/
def rawVector (w : SlotWord) : Option Instr :=
  match opcode w with
  | 0 => if fld w 0 26 = 0#26 then some .nop else none
  | 1 => some (.vFadd (fld w 22 4) (fld w 16 6) (fld w 10 6) (fld w 4 6) (fld w 0 4))
  | 2 => some (.vFsub (fld w 22 4) (fld w 16 6) (fld w 10 6) (fld w 4 6) (fld w 0 4))
  | 3 => some (.vFmul (fld w 22 4) (fld w 16 6) (fld w 10 6) (fld w 4 6) (fld w 0 4))
  | 4 => some (.vFma (fld w 22 4) (fld w 16 6) (fld w 10 6) (fld w 4 6) (fld w 0 4))
  | 5 => some (.vFmin (fld w 22 4) (fld w 16 6) (fld w 10 6) (fld w 4 6) (fld w 0 4))
  | 6 => some (.vFmax (fld w 22 4) (fld w 16 6) (fld w 10 6) (fld w 4 6) (fld w 0 4))
  | 8 => if fld w 4 6 = 0#6 then some (.fabs (fld w 22 4) (fld w 16 6) (fld w 10 6) (fld w 0 4)) else none
  | 9 => if fld w 4 6 = 0#6 then some (.fneg (fld w 22 4) (fld w 16 6) (fld w 10 6) (fld w 0 4)) else none
  | 10 => if fld w 0 10 = 0#10 then some (.rcp (fld w 22 4) (fld w 16 6) (fld w 10 6)) else none
  | 11 => if fld w 0 10 = 0#10 then some (.rsqrt (fld w 22 4) (fld w 16 6) (fld w 10 6)) else none
  | 12 => if fld w 0 10 = 0#10 then some (.exp2 (fld w 22 4) (fld w 16 6) (fld w 10 6)) else none
  | 13 => if fld w 0 10 = 0#10 then some (.log2 (fld w 22 4) (fld w 16 6) (fld w 10 6)) else none
  | 14 => if fld w 8 1 = 0#1 then some (.cvt (fld w 22 4) (fld w 16 6) (fld w 10 6) (fld w 9 1) (fld w 4 4) (fld w 0 4)) else none
  | 16 => some (.vAdd (fld w 22 4) (fld w 16 6) (fld w 10 6) (fld w 4 6) (fld w 0 4))
  | 17 => some (.vSub (fld w 22 4) (fld w 16 6) (fld w 10 6) (fld w 4 6) (fld w 0 4))
  | 18 => some (.vMul (fld w 22 4) (fld w 16 6) (fld w 10 6) (fld w 4 6) (fld w 0 4))
  | 19 => some (.vMin (fld w 22 4) (fld w 16 6) (fld w 10 6) (fld w 4 6) (fld w 0 4))
  | 20 => some (.vMax (fld w 22 4) (fld w 16 6) (fld w 10 6) (fld w 4 6) (fld w 0 4))
  | 21 => some (.vAnd (fld w 22 4) (fld w 16 6) (fld w 10 6) (fld w 4 6) (fld w 0 4))
  | 22 => some (.vOr (fld w 22 4) (fld w 16 6) (fld w 10 6) (fld w 4 6) (fld w 0 4))
  | 23 => some (.vXor (fld w 22 4) (fld w 16 6) (fld w 10 6) (fld w 4 6) (fld w 0 4))
  | 24 => some (.vShl (fld w 22 4) (fld w 16 6) (fld w 10 6) (fld w 4 6) (fld w 0 4))
  | 25 => some (.vShr (fld w 22 4) (fld w 16 6) (fld w 10 6) (fld w 4 6) (fld w 0 4))
  | 26 => some (.vSar (fld w 22 4) (fld w 16 6) (fld w 10 6) (fld w 4 6) (fld w 0 4))
  | 27 => some (.vShli (fld w 22 4) (fld w 16 6) (fld w 10 6) (fld w 4 6) (fld w 0 4))
  | 28 => some (.vShri (fld w 22 4) (fld w 16 6) (fld w 10 6) (fld w 4 6) (fld w 0 4))
  | 29 => some (.vSari (fld w 22 4) (fld w 16 6) (fld w 10 6) (fld w 4 6) (fld w 0 4))
  | 30 => some (.vFshl (fld w 22 4) (fld w 16 6) (fld w 10 6) (fld w 4 6) (fld w 0 4))
  | 31 => some (.vFshr (fld w 22 4) (fld w 16 6) (fld w 10 6) (fld w 4 6) (fld w 0 4))
  | 32 => if fld w 16 2 = 0#2 then some (.cmpm (fld w 22 4) (fld w 18 4) (fld w 10 6) (fld w 4 6) (fld w 0 4)) else none
  | 33 => some (.vSel (fld w 22 4) (fld w 16 6) (fld w 10 6) (fld w 4 6) (fld w 0 4))
  | 34 => if fld w 16 2 = 0#2 then some (.mpush (fld w 22 4) (fld w 18 4) (fld w 10 6) (fld w 4 6) (fld w 0 4)) else none
  | 35 => if fld w 0 22 = 0#22 then some (.minv (fld w 22 4)) else none
  | 36 => if fld w 0 22 = 0#22 then some (.mpop (fld w 22 4)) else none
  | 37 => if fld w 8 2 = 0#2 then some (.chkb (fld w 22 4) (fld w 16 6) (fld w 10 6) (fld w 4 4) (fld w 0 4)) else none
  | 40 => some (.red (fld w 22 4) (fld w 16 6) (fld w 10 6) (fld w 7 3) (fld w 4 3) (fld w 0 4))
  | 41 => some (.scan (fld w 22 4) (fld w 16 6) (fld w 10 6) (fld w 7 3) (fld w 4 3) (fld w 0 4))
  | 42 => some (.bcast (fld w 22 4) (fld w 16 6) (fld w 10 6) (fld w 4 6) (fld w 0 4))
  | 43 => some (.perm (fld w 22 4) (fld w 16 6) (fld w 10 6) (fld w 4 6) (fld w 0 4))
  | 44 => if fld w 0 3 = 0#3 then some (.rotm (fld w 22 4) (fld w 16 6) (fld w 10 6) (fld w 3 7)) else none
  | 48 => if fld w 0 16 = 0#16 then some (.rndb (fld w 22 4) (fld w 16 6)) else none
  | 49 => if fld w 4 12 = 0#12 then some (.rndf (fld w 22 4) (fld w 16 6) (fld w 0 4)) else none
  | 50 => if fld w 4 7 = 0#7 then some (.rndi (fld w 22 4) (fld w 16 6) (fld w 11 5) (fld w 0 4)) else none
  | 51 => if fld w 0 10 = 0#10 then some (.sampc (fld w 22 4) (fld w 16 6) (fld w 10 6)) else none
  | _ => none

/-- Row slot words, coded fields not yet checked. -/
def rawRow (w : SlotWord) : Option Instr :=
  match opcode w with
  | 0 => if fld w 0 26 = 0#26 then some .nop else none
  | 1 => if fld w 18 2 = 0#2 ∧ fld w 8 5 = 0#5 then some (.vldrRow (fld w 20 6) (fld w 13 5) (fld w 0 8)) else if fld w 18 2 = 1#2 ∧ fld w 8 6 = 0#6 then some (.vldrRing (fld w 20 6) (fld w 14 4) (fld w 0 8)) else if fld w 18 2 = 2#2 ∧ fld w 0 16 = 0#16 then some (.vldrGenerator (fld w 20 6) (fld w 16 2)) else if fld w 18 2 = 3#2 ∧ fld w 8 5 = 0#5 ∧ fld w 0 4 = 0#4 then some (.vldrBond (fld w 20 6) (fld w 13 5) (fld w 4 4)) else none
  | 2 => if fld w 18 2 = 0#2 then some (.vstrRow (fld w 20 6) (fld w 13 5) (fld w 8 5) (fld w 0 8)) else if fld w 18 2 = 1#2 ∧ fld w 13 1 = 0#1 then some (.vstrRing (fld w 20 6) (fld w 14 4) (fld w 8 5) (fld w 0 8)) else if fld w 18 2 = 2#2 ∧ fld w 13 3 = 0#3 ∧ fld w 0 8 = 0#8 then some (.vstrGenerator (fld w 20 6) (fld w 16 2) (fld w 8 5)) else if fld w 18 2 = 3#2 ∧ fld w 0 4 = 0#4 then some (.vstrBond (fld w 20 6) (fld w 13 5) (fld w 8 5) (fld w 4 4)) else none
  | 8 => if fld w 0 17 = 0#17 then some (.rcfg (fld w 22 4) (fld w 17 5)) else none
  | 9 => if fld w 0 14 = 0#14 then some (.radvr (fld w 22 4) (fld w 14 8)) else none
  | 10 => if fld w 0 14 = 0#14 then some (.radvw (fld w 22 4) (fld w 14 8)) else none
  | 16 => if fld w 0 19 = 0#19 then some (.aset (fld w 24 2) (fld w 19 5)) else none
  | 24 => if fld w 0 12 = 0#12 then some (.bond (fld w 22 4) (fld w 17 5) (fld w 12 5)) else none
  | 25 => if fld w 0 17 = 0#17 then some (.give (fld w 22 4) (fld w 17 5)) else none
  | 26 => if fld w 0 17 = 0#17 then some (.lend (fld w 22 4) (fld w 17 5)) else none
  | 27 => if fld w 0 22 = 0#22 then some (.recall (fld w 22 4)) else none
  | 28 => if fld w 0 22 = 0#22 then some (.unbond (fld w 22 4)) else none
  | _ => none

/-- Engine slot words, coded fields not yet checked. -/
def rawEngine (w : SlotWord) : Option Instr :=
  match opcode w with
  | 0 => if fld w 0 26 = 0#26 then some .nop else none
  | 1 => if fld w 0 18 = 0#18 then some (.mcall (fld w 18 8)) else none
  | 2 => if fld w 0 18 = 0#18 then some (.mpset (fld w 23 3) (fld w 18 5)) else none
  | 3 => if fld w 0 26 = 0#26 then some (.mpgo) else none
  | 8 => if fld w 11 1 = 1#1 ∧ fld w 0 8 = 0#8 then some (.cpy (fld w 21 5) (fld w 16 5) (fld w 12 4) (fld w 8 3)) else if fld w 0 16 = 0#16 then some (.cpyNoRing (fld w 21 5) (fld w 16 5)) else none
  | 9 => if fld w 0 11 = 0#11 then some (.pref (fld w 21 5) (fld w 16 5) (fld w 11 5)) else none
  | 16 => if fld w 0 17 = 0#17 then some (.fmtset (fld w 22 4) (fld w 17 5)) else none
  | 17 => if fld w 0 10 = 0#10 then some (.bndset (fld w 22 4) (fld w 17 5) (fld w 12 5) (fld w 10 2)) else none
  | 18 => if fld w 0 17 = 0#17 then some (.bndget (fld w 21 5) (fld w 17 4)) else none
  | _ => none

/-- The instruction a slot word is, or none where R33 makes it no instruction. -/
def decodeClass (c : SlotClass) (w : SlotWord) : Option Instr :=
  let r := match c with
    | .control => rawControl w
    | .scalar => rawScalar w
    | .memory => rawMemory w
    | .vector => rawVector w
    | .row => rawRow w
    | .engine => rawEngine w
  r.filter Instr.wf

/-- The word of slot k in a bundle: bits [32k+31:32k] (R29). -/
def slotWord (b : BundleWord) (k : Nat) : SlotWord := fld b (32 * k) 32

/-- Slot k of a bundle, decoded by its class. -/
def decodeSlot (b : BundleWord) (k : Nat) : Option Instr := decodeClass (classOf k) (slotWord b k)

/-- A field of a microword (06_matrix_unit.md Table 6.8a) by name; a field outside an operation's list must be 0 (R149). -/
def rawMicro (w : Word) : Option Instr :=
  let x := fld w 56 4
  let y := fld w 52 4
  let wa := fld w 49 3
  let am := fld w 47 2
  let h := fld w 43 4
  let wb := fld w 40 3
  let imm := fld w 16 24
  let off := fld w 0 16
  match (fld w 60 4).toNat with
  | 0 => if x = 0 ∧ y = 0 ∧ wa = 0 ∧ am = 0 ∧ h = 0 ∧ wb = 0 ∧ imm = 0 ∧ off = 0 then some (.mend) else none
  | 1 => if x = 0 ∧ y = 0 ∧ imm = 0 then some (.mlda am wa h off wb) else none
  | 2 => if x = 0 ∧ wb = 0 ∧ imm = 0 then some (.mldb y am wa h off) else none
  | 3 => if wa = 0 ∧ am = 0 ∧ h = 0 ∧ wb = 0 ∧ imm = 0 ∧ off = 0 then some (.mstep x y) else none
  | 4 => if am = 0 ∧ h = 0 ∧ wb = 0 ∧ imm = 0 ∧ off = 0 then some (.mpcor x y wa) else none
  | 5 => if x = 0 ∧ y = 0 ∧ wa = 0 ∧ am = 0 ∧ h = 0 ∧ wb = 0 ∧ imm = 0 ∧ off = 0 then some (.mswap) else none
  | 6 => if y = 0 ∧ am = 0 ∧ h = 0 ∧ wb = 0 ∧ imm = 0 ∧ off = 0 then some (.mclr x wa) else none
  | 7 => if wb = 0 ∧ imm = 0 then some (.mdrain x y am wa h off) else none
  | 8 => if x = 0 ∧ y = 0 ∧ am = 0 ∧ h = 0 ∧ wb = 0 ∧ off = 0 then some (.mloop wa imm) else none
  | 9 => if y = 0 ∧ am = 0 ∧ h = 0 ∧ off = 0 then some (.mbr x wa wb imm) else none
  | 10 => if x = 0 ∧ wa = 0 ∧ am = 0 ∧ wb = 0 ∧ off = 0 then some (.mwaitr y h imm) else none
  | 11 => if x = 0 ∧ wa = 0 ∧ am = 0 ∧ wb = 0 ∧ off = 0 then some (.mradv y h imm) else none
  | 12 => if x = 0 ∧ y = 0 ∧ wa = 0 ∧ am = 0 ∧ wb = 0 ∧ off = 0 then some (.mpost h imm) else none
  | 13 => if y = 0 ∧ wa = 0 ∧ am = 0 ∧ h = 0 ∧ wb = 0 ∧ imm = 0 ∧ off = 0 then some (.mfmt x) else none
  | 14 => if am = 0 ∧ h = 0 ∧ wb = 0 ∧ off = 0 then some (.mset x y wa imm) else none
  | 15 => if x = 0 ∧ am = 0 ∧ h = 0 ∧ off = 0 then some (.madd y wa wb imm) else none
  | _ => none

/-- The microword's operation, or none where R149 does not accept it. -/
def decodeMicro (w : Word) : Option Instr := (rawMicro w).filter Instr.wf

/-- The words of an instruction, from the same layouts: the slot classes it stands in, first the home slot's, or none
where the instruction is no slot word. -/
def encode : Instr → Option SlotWord
  | .nop => some 0#32
  | .br n f o => some (1#6 ++ n ++ f ++ 0#5 ++ o : SlotWord)
  | .bem o => some (2#6 ++ 0#10 ++ o : SlotWord)
  | .bnem o => some (2#6 ++ 512#10 ++ o : SlotWord)
  | .call d o => some (3#6 ++ d ++ 0#5 ++ o : SlotWord)
  | .ret a => some (4#6 ++ a ++ 0#21 : SlotWord)
  | .sjmp n f a => some (5#6 ++ n ++ f ++ a ++ 0#16 : SlotWord)
  | .loop c a l m => some (8#6 ++ c ++ a ++ 0#5 ++ l ++ m : SlotWord)
  | .loopi c t l m => some (9#6 ++ c ++ t ++ l ++ m : SlotWord)
  | .igate c w s => some (10#6 ++ c ++ w ++ s ++ 0#14 : SlotWord)
  | .rwait q w n => some (16#6 ++ q ++ w ++ 0#1 ++ n ++ 0#12 : SlotWord)
  | .bindf f e i => some (17#6 ++ f ++ e ++ i ++ 0#8 : SlotWord)
  | .yield => some (18#6 ++ 0#26 : SlotWord)
  | .exit => some (19#6 ++ 0#26 : SlotWord)
  | .spawn a r => some (24#6 ++ a ++ r ++ 0#19 : SlotWord)
  | .spawns d a b r => some (25#6 ++ d ++ a ++ b ++ r ++ 0#9 : SlotWord)
  | .decide a b => some (26#6 ++ a ++ b ++ 0#16 : SlotWord)
  | .oppt t => some (32#6 ++ t ++ 0#23 : SlotWord)
  | .hint h => some (33#6 ++ h ++ 0#24 : SlotWord)
  | .sbar m => some (34#6 ++ m ++ 0#23 : SlotWord)
  | .grow n => some (35#6 ++ n ++ 0#23 : SlotWord)
  | .shrink n => some (36#6 ++ n ++ 0#23 : SlotWord)
  | .trap c => some (40#6 ++ c ++ 0#18 : SlotWord)
  | .eret => some (41#6 ++ 0#26 : SlotWord)
  | .srr d s => some (42#6 ++ d ++ s ++ 0#9 : SlotWord)
  | .srw a s => some (43#6 ++ a ++ s ++ 0#9 : SlotWord)
  | .halt => some (44#6 ++ 0#26 : SlotWord)
  | .pwait g f e d c b a => some (15#4 ++ g ++ f ++ e ++ d ++ c ++ b ++ a : SlotWord)
  | .add p d a b => some (1#6 ++ p ++ d ++ a ++ b ++ 0#7 : SlotWord)
  | .sub p d a b => some (2#6 ++ p ++ d ++ a ++ b ++ 0#7 : SlotWord)
  | .and p d a b => some (3#6 ++ p ++ d ++ a ++ b ++ 0#7 : SlotWord)
  | .or p d a b => some (4#6 ++ p ++ d ++ a ++ b ++ 0#7 : SlotWord)
  | .xor p d a b => some (5#6 ++ p ++ d ++ a ++ b ++ 0#7 : SlotWord)
  | .andn p d a b => some (6#6 ++ p ++ d ++ a ++ b ++ 0#7 : SlotWord)
  | .shl p d a b => some (8#6 ++ p ++ d ++ a ++ b ++ 0#7 : SlotWord)
  | .shr p d a b => some (9#6 ++ p ++ d ++ a ++ b ++ 0#7 : SlotWord)
  | .sar p d a b => some (10#6 ++ p ++ d ++ a ++ b ++ 0#7 : SlotWord)
  | .ror p d a b => some (11#6 ++ p ++ d ++ a ++ b ++ 0#7 : SlotWord)
  | .fshl p d a b x => some (12#6 ++ p ++ d ++ a ++ b ++ x ++ 0#2 : SlotWord)
  | .fshr p d a b x => some (13#6 ++ p ++ d ++ a ++ b ++ x ++ 0#2 : SlotWord)
  | .mul p d a b => some (16#6 ++ p ++ d ++ a ++ b ++ 0#7 : SlotWord)
  | .mulh p d a b => some (17#6 ++ p ++ d ++ a ++ b ++ 0#7 : SlotWord)
  | .mulhu p d a b => some (18#6 ++ p ++ d ++ a ++ b ++ 0#7 : SlotWord)
  | .div p d a b => some (19#6 ++ p ++ d ++ a ++ b ++ 0#7 : SlotWord)
  | .divu p d a b => some (20#6 ++ p ++ d ++ a ++ b ++ 0#7 : SlotWord)
  | .rem p d a b => some (21#6 ++ p ++ d ++ a ++ b ++ 0#7 : SlotWord)
  | .remu p d a b => some (22#6 ++ p ++ d ++ a ++ b ++ 0#7 : SlotWord)
  | .min p d a b => some (24#6 ++ p ++ d ++ a ++ b ++ 0#7 : SlotWord)
  | .max p d a b => some (25#6 ++ p ++ d ++ a ++ b ++ 0#7 : SlotWord)
  | .minu p d a b => some (26#6 ++ p ++ d ++ a ++ b ++ 0#7 : SlotWord)
  | .maxu p d a b => some (27#6 ++ p ++ d ++ a ++ b ++ 0#7 : SlotWord)
  | .sel p d a b f => some (28#6 ++ p ++ d ++ a ++ b ++ f ++ 0#3 : SlotWord)
  | .clz p d a => some (29#6 ++ p ++ d ++ a ++ 0#12 : SlotWord)
  | .popc p d a => some (30#6 ++ p ++ d ++ a ++ 0#12 : SlotWord)
  | .brev p d a => some (31#6 ++ p ++ d ++ a ++ 0#12 : SlotWord)
  | .addi p d a i => some (32#6 ++ p ++ d ++ a ++ i : SlotWord)
  | .andi p d a i => some (33#6 ++ p ++ d ++ a ++ i : SlotWord)
  | .ori p d a i => some (34#6 ++ p ++ d ++ a ++ i : SlotWord)
  | .xori p d a i => some (35#6 ++ p ++ d ++ a ++ i : SlotWord)
  | .shli p d a h => some (36#6 ++ p ++ d ++ a ++ 0#6 ++ h : SlotWord)
  | .shri p d a h => some (37#6 ++ p ++ d ++ a ++ 0#6 ++ h : SlotWord)
  | .sari p d a h => some (38#6 ++ p ++ d ++ a ++ 0#6 ++ h : SlotWord)
  | .rori p d a h => some (39#6 ++ p ++ d ++ a ++ 0#6 ++ h : SlotWord)
  | .movi p d i => some (40#6 ++ p ++ d ++ i : SlotWord)
  | .movs p d i => some (41#6 ++ p ++ d ++ 0#1 ++ i : SlotWord)
  | .cmp p f c a b => some (42#6 ++ p ++ f ++ c ++ a ++ b ++ 0#4 : SlotWord)
  | .cmpi p f c a i => some (43#6 ++ p ++ f ++ c ++ a ++ i : SlotWord)
  | .cb p c a b o => some (44#6 ++ p ++ c ++ a ++ b ++ o : SlotWord)
  | .fadd p d a b => some (48#6 ++ p ++ d ++ a ++ b ++ 0#7 : SlotWord)
  | .fsub p d a b => some (49#6 ++ p ++ d ++ a ++ b ++ 0#7 : SlotWord)
  | .fmul p d a b => some (50#6 ++ p ++ d ++ a ++ b ++ 0#7 : SlotWord)
  | .fma p d a b => some (51#6 ++ p ++ d ++ a ++ b ++ 0#7 : SlotWord)
  | .fcmp p f c a b => some (52#6 ++ p ++ f ++ c ++ a ++ b ++ 0#4 : SlotWord)
  | .fcvt p d a s t => some (53#6 ++ p ++ d ++ a ++ s ++ 0#1 ++ t ++ 0#3 : SlotWord)
  | .ld d a z i => some (1#6 ++ d ++ a ++ z ++ 0#3 ++ i : SlotWord)
  | .ldx d a z i => some (2#6 ++ d ++ a ++ z ++ 0#3 ++ i : SlotWord)
  | .st s a z i => some (3#6 ++ s ++ a ++ z ++ 0#3 ++ i : SlotWord)
  | .ldaq d a z c i => some (4#6 ++ d ++ a ++ z ++ c ++ i : SlotWord)
  | .strl s a z c i => some (5#6 ++ s ++ a ++ z ++ c ++ i : SlotWord)
  | .mark => some (6#6 ++ 0#26 : SlotWord)
  | .fence c => some (7#6 ++ 0#12 ++ c ++ 0#11 : SlotWord)
  | .aadd d a b z c => some (8#6 ++ d ++ a ++ b ++ 0#5 ++ z ++ c ++ 0#1 : SlotWord)
  | .aand d a b z c => some (9#6 ++ d ++ a ++ b ++ 0#5 ++ z ++ c ++ 0#1 : SlotWord)
  | .aor d a b z c => some (10#6 ++ d ++ a ++ b ++ 0#5 ++ z ++ c ++ 0#1 : SlotWord)
  | .axor d a b z c => some (11#6 ++ d ++ a ++ b ++ 0#5 ++ z ++ c ++ 0#1 : SlotWord)
  | .amin d a b z c => some (12#6 ++ d ++ a ++ b ++ 0#5 ++ z ++ c ++ 0#1 : SlotWord)
  | .amax d a b z c => some (13#6 ++ d ++ a ++ b ++ 0#5 ++ z ++ c ++ 0#1 : SlotWord)
  | .aminu d a b z c => some (14#6 ++ d ++ a ++ b ++ 0#5 ++ z ++ c ++ 0#1 : SlotWord)
  | .amaxu d a b z c => some (15#6 ++ d ++ a ++ b ++ 0#5 ++ z ++ c ++ 0#1 : SlotWord)
  | .afadd d a b c => some (16#6 ++ d ++ a ++ b ++ 2#7 ++ c ++ 0#1 : SlotWord)
  | .afmin d a b c => some (17#6 ++ d ++ a ++ b ++ 2#7 ++ c ++ 0#1 : SlotWord)
  | .afmax d a b c => some (18#6 ++ d ++ a ++ b ++ 2#7 ++ c ++ 0#1 : SlotWord)
  | .aswp d a b z c => some (19#6 ++ d ++ a ++ b ++ 0#5 ++ z ++ c ++ 0#1 : SlotWord)
  | .acas d a b x z c => some (20#6 ++ d ++ a ++ b ++ x ++ z ++ c ++ 0#1 : SlotWord)
  | .vld d a b z => some (24#6 ++ d ++ a ++ b ++ z ++ 0#9 : SlotWord)
  | .vldle d a b z => some (25#6 ++ d ++ a ++ b ++ z ++ 0#9 : SlotWord)
  | .vst s a b z => some (26#6 ++ s ++ a ++ b ++ z ++ 0#9 : SlotWord)
  | .vpub a b => some (27#6 ++ 0#5 ++ a ++ b ++ 0#11 : SlotWord)
  | .vfloor a b => some (28#6 ++ 0#5 ++ a ++ b ++ 0#11 : SlotWord)
  | .vdrop a b => some (29#6 ++ 0#5 ++ a ++ b ++ 0#11 : SlotWord)
  | .vquery d a => some (30#6 ++ d ++ a ++ 0#16 : SlotWord)
  | .waita b a z n => some (32#6 ++ b ++ a ++ z ++ n ++ 0#13 : SlotWord)
  | .tlook d a => some (33#6 ++ d ++ a ++ 0#16 : SlotWord)
  | .tset a b => some (34#6 ++ 0#5 ++ a ++ b ++ 0#11 : SlotWord)
  | .tclr a => some (35#6 ++ 0#5 ++ a ++ 0#16 : SlotWord)
  | .spill s n => some (36#6 ++ s ++ 0#5 ++ n : SlotWord)
  | .fill d n => some (37#6 ++ d ++ 0#5 ++ n : SlotWord)
  | .vFadd p d a b t => some (1#6 ++ p ++ d ++ a ++ b ++ t : SlotWord)
  | .vFsub p d a b t => some (2#6 ++ p ++ d ++ a ++ b ++ t : SlotWord)
  | .vFmul p d a b t => some (3#6 ++ p ++ d ++ a ++ b ++ t : SlotWord)
  | .vFma p d a b t => some (4#6 ++ p ++ d ++ a ++ b ++ t : SlotWord)
  | .vFmin p d a b t => some (5#6 ++ p ++ d ++ a ++ b ++ t : SlotWord)
  | .vFmax p d a b t => some (6#6 ++ p ++ d ++ a ++ b ++ t : SlotWord)
  | .fabs p d a t => some (8#6 ++ p ++ d ++ a ++ 0#6 ++ t : SlotWord)
  | .fneg p d a t => some (9#6 ++ p ++ d ++ a ++ 0#6 ++ t : SlotWord)
  | .rcp p d a => some (10#6 ++ p ++ d ++ a ++ 0#10 : SlotWord)
  | .rsqrt p d a => some (11#6 ++ p ++ d ++ a ++ 0#10 : SlotWord)
  | .exp2 p d a => some (12#6 ++ p ++ d ++ a ++ 0#10 : SlotWord)
  | .log2 p d a => some (13#6 ++ p ++ d ++ a ++ 0#10 : SlotWord)
  | .cvt p d a h s t => some (14#6 ++ p ++ d ++ a ++ h ++ 0#1 ++ s ++ t : SlotWord)
  | .vAdd p d a b t => some (16#6 ++ p ++ d ++ a ++ b ++ t : SlotWord)
  | .vSub p d a b t => some (17#6 ++ p ++ d ++ a ++ b ++ t : SlotWord)
  | .vMul p d a b t => some (18#6 ++ p ++ d ++ a ++ b ++ t : SlotWord)
  | .vMin p d a b t => some (19#6 ++ p ++ d ++ a ++ b ++ t : SlotWord)
  | .vMax p d a b t => some (20#6 ++ p ++ d ++ a ++ b ++ t : SlotWord)
  | .vAnd p d a b t => some (21#6 ++ p ++ d ++ a ++ b ++ t : SlotWord)
  | .vOr p d a b t => some (22#6 ++ p ++ d ++ a ++ b ++ t : SlotWord)
  | .vXor p d a b t => some (23#6 ++ p ++ d ++ a ++ b ++ t : SlotWord)
  | .vShl p d a b t => some (24#6 ++ p ++ d ++ a ++ b ++ t : SlotWord)
  | .vShr p d a b t => some (25#6 ++ p ++ d ++ a ++ b ++ t : SlotWord)
  | .vSar p d a b t => some (26#6 ++ p ++ d ++ a ++ b ++ t : SlotWord)
  | .vShli p d a i t => some (27#6 ++ p ++ d ++ a ++ i ++ t : SlotWord)
  | .vShri p d a i t => some (28#6 ++ p ++ d ++ a ++ i ++ t : SlotWord)
  | .vSari p d a i t => some (29#6 ++ p ++ d ++ a ++ i ++ t : SlotWord)
  | .vFshl p d a b t => some (30#6 ++ p ++ d ++ a ++ b ++ t : SlotWord)
  | .vFshr p d a b t => some (31#6 ++ p ++ d ++ a ++ b ++ t : SlotWord)
  | .cmpm p c a b t => some (32#6 ++ p ++ c ++ 0#2 ++ a ++ b ++ t : SlotWord)
  | .vSel p d a b t => some (33#6 ++ p ++ d ++ a ++ b ++ t : SlotWord)
  | .mpush p c a b t => some (34#6 ++ p ++ c ++ 0#2 ++ a ++ b ++ t : SlotWord)
  | .minv p => some (35#6 ++ p ++ 0#22 : SlotWord)
  | .mpop p => some (36#6 ++ p ++ 0#22 : SlotWord)
  | .chkb p d a g t => some (37#6 ++ p ++ d ++ a ++ 0#2 ++ g ++ t : SlotWord)
  | .red p d a l k t => some (40#6 ++ p ++ d ++ a ++ l ++ k ++ t : SlotWord)
  | .scan p d a l k t => some (41#6 ++ p ++ d ++ a ++ l ++ k ++ t : SlotWord)
  | .bcast p d a i t => some (42#6 ++ p ++ d ++ a ++ i ++ t : SlotWord)
  | .perm p d a b t => some (43#6 ++ p ++ d ++ a ++ b ++ t : SlotWord)
  | .rotm p d a n => some (44#6 ++ p ++ d ++ a ++ n ++ 0#3 : SlotWord)
  | .rndb p d => some (48#6 ++ p ++ d ++ 0#16 : SlotWord)
  | .rndf p d t => some (49#6 ++ p ++ d ++ 0#12 ++ t : SlotWord)
  | .rndi p d a t => some (50#6 ++ p ++ d ++ a ++ 0#7 ++ t : SlotWord)
  | .sampc p d a => some (51#6 ++ p ++ d ++ a ++ 0#10 : SlotWord)
  | .vldrRow v a i => some (1#6 ++ v ++ 0#2 ++ a ++ 0#5 ++ i : SlotWord)
  | .vstrRow v a m i => some (2#6 ++ v ++ 0#2 ++ a ++ m ++ i : SlotWord)
  | .vldrRing v q i => some (1#6 ++ v ++ 1#2 ++ q ++ 0#6 ++ i : SlotWord)
  | .vstrRing v q m i => some (2#6 ++ v ++ 1#2 ++ q ++ 0#1 ++ m ++ i : SlotWord)
  | .vldrGenerator v g => some (1#6 ++ v ++ 2#2 ++ g ++ 0#16 : SlotWord)
  | .vstrGenerator v g m => some (2#6 ++ v ++ 2#2 ++ g ++ 0#3 ++ m ++ 0#8 : SlotWord)
  | .vldrBond v a k => some (1#6 ++ v ++ 3#2 ++ a ++ 0#5 ++ k ++ 0#4 : SlotWord)
  | .vstrBond v a m k => some (2#6 ++ v ++ 3#2 ++ a ++ m ++ k ++ 0#4 : SlotWord)
  | .rcfg q a => some (8#6 ++ q ++ a ++ 0#17 : SlotWord)
  | .radvr q n => some (9#6 ++ q ++ n ++ 0#14 : SlotWord)
  | .radvw q n => some (10#6 ++ q ++ n ++ 0#14 : SlotWord)
  | .aset g a => some (16#6 ++ g ++ a ++ 0#19 : SlotWord)
  | .bond k a b => some (24#6 ++ k ++ a ++ b ++ 0#12 : SlotWord)
  | .give k a => some (25#6 ++ k ++ a ++ 0#17 : SlotWord)
  | .lend k a => some (26#6 ++ k ++ a ++ 0#17 : SlotWord)
  | .recall k => some (27#6 ++ k ++ 0#22 : SlotWord)
  | .unbond k => some (28#6 ++ k ++ 0#22 : SlotWord)
  | .mcall r => some (1#6 ++ r ++ 0#18 : SlotWord)
  | .mpset p a => some (2#6 ++ p ++ a ++ 0#18 : SlotWord)
  | .mpgo => some (3#6 ++ 0#26 : SlotWord)
  | .cpy a b q c => some (8#6 ++ a ++ b ++ q ++ 1#1 ++ c ++ 0#8 : SlotWord)
  | .cpyNoRing a b => some (8#6 ++ a ++ b ++ 0#16 : SlotWord)
  | .pref a b x => some (9#6 ++ a ++ b ++ x ++ 0#11 : SlotWord)
  | .fmtset e a => some (16#6 ++ e ++ a ++ 0#17 : SlotWord)
  | .bndset g a b p => some (17#6 ++ g ++ a ++ b ++ p ++ 0#10 : SlotWord)
  | .bndget d g => some (18#6 ++ d ++ g ++ 0#17 : SlotWord)
  | _ => none

/-- The microword of a microprogram operation, or none. -/
def encodeMicro : Instr → Option Word
  | .mend => some (0#4 ++ 0#4 ++ 0#4 ++ 0#3 ++ 0#2 ++ 0#4 ++ 0#3 ++ 0#24 ++ 0#16 : Word)
  | .mlda am wa h off wb => some (1#4 ++ 0#4 ++ 0#4 ++ wa ++ am ++ h ++ wb ++ 0#24 ++ off : Word)
  | .mldb y am wa h off => some (2#4 ++ 0#4 ++ y ++ wa ++ am ++ h ++ 0#3 ++ 0#24 ++ off : Word)
  | .mstep x y => some (3#4 ++ x ++ y ++ 0#3 ++ 0#2 ++ 0#4 ++ 0#3 ++ 0#24 ++ 0#16 : Word)
  | .mpcor x y wa => some (4#4 ++ x ++ y ++ wa ++ 0#2 ++ 0#4 ++ 0#3 ++ 0#24 ++ 0#16 : Word)
  | .mswap => some (5#4 ++ 0#4 ++ 0#4 ++ 0#3 ++ 0#2 ++ 0#4 ++ 0#3 ++ 0#24 ++ 0#16 : Word)
  | .mclr x wa => some (6#4 ++ x ++ 0#4 ++ wa ++ 0#2 ++ 0#4 ++ 0#3 ++ 0#24 ++ 0#16 : Word)
  | .mdrain x y am wa h off => some (7#4 ++ x ++ y ++ wa ++ am ++ h ++ 0#3 ++ 0#24 ++ off : Word)
  | .mloop wa imm => some (8#4 ++ 0#4 ++ 0#4 ++ wa ++ 0#2 ++ 0#4 ++ 0#3 ++ imm ++ 0#16 : Word)
  | .mbr x wa wb imm => some (9#4 ++ x ++ 0#4 ++ wa ++ 0#2 ++ 0#4 ++ wb ++ imm ++ 0#16 : Word)
  | .mwaitr y h imm => some (10#4 ++ 0#4 ++ y ++ 0#3 ++ 0#2 ++ h ++ 0#3 ++ imm ++ 0#16 : Word)
  | .mradv y h imm => some (11#4 ++ 0#4 ++ y ++ 0#3 ++ 0#2 ++ h ++ 0#3 ++ imm ++ 0#16 : Word)
  | .mpost h imm => some (12#4 ++ 0#4 ++ 0#4 ++ 0#3 ++ 0#2 ++ h ++ 0#3 ++ imm ++ 0#16 : Word)
  | .mfmt x => some (13#4 ++ x ++ 0#4 ++ 0#3 ++ 0#2 ++ 0#4 ++ 0#3 ++ 0#24 ++ 0#16 : Word)
  | .mset x y wa imm => some (14#4 ++ x ++ y ++ wa ++ 0#2 ++ 0#4 ++ 0#3 ++ imm ++ 0#16 : Word)
  | .madd y wa wb imm => some (15#4 ++ 0#4 ++ y ++ wa ++ 0#2 ++ 0#4 ++ wb ++ imm ++ 0#16 : Word)
  | _ => none

/-- The slot an instruction stands in when it stands alone in its bundle: the first slot of its class. -/
def homeSlot : Instr → Option Nat
  | .nop => some 0
  | .br _ _ _ => some 0
  | .bem _ => some 0
  | .bnem _ => some 0
  | .call _ _ => some 0
  | .ret _ => some 0
  | .sjmp _ _ _ => some 0
  | .loop _ _ _ _ => some 0
  | .loopi _ _ _ _ => some 0
  | .igate _ _ _ => some 0
  | .rwait _ _ _ => some 0
  | .bindf _ _ _ => some 0
  | .yield => some 0
  | .exit => some 0
  | .spawn _ _ => some 0
  | .spawns _ _ _ _ => some 0
  | .decide _ _ => some 0
  | .oppt _ => some 0
  | .hint _ => some 0
  | .sbar _ => some 0
  | .grow _ => some 0
  | .shrink _ => some 0
  | .trap _ => some 0
  | .eret => some 0
  | .srr _ _ => some 0
  | .srw _ _ => some 0
  | .halt => some 0
  | .pwait _ _ _ _ _ _ _ => some 0
  | .add _ _ _ _ => some 1
  | .sub _ _ _ _ => some 1
  | .and _ _ _ _ => some 1
  | .or _ _ _ _ => some 1
  | .xor _ _ _ _ => some 1
  | .andn _ _ _ _ => some 1
  | .shl _ _ _ _ => some 1
  | .shr _ _ _ _ => some 1
  | .sar _ _ _ _ => some 1
  | .ror _ _ _ _ => some 1
  | .fshl _ _ _ _ _ => some 1
  | .fshr _ _ _ _ _ => some 1
  | .mul _ _ _ _ => some 1
  | .mulh _ _ _ _ => some 1
  | .mulhu _ _ _ _ => some 1
  | .div _ _ _ _ => some 1
  | .divu _ _ _ _ => some 1
  | .rem _ _ _ _ => some 1
  | .remu _ _ _ _ => some 1
  | .min _ _ _ _ => some 1
  | .max _ _ _ _ => some 1
  | .minu _ _ _ _ => some 1
  | .maxu _ _ _ _ => some 1
  | .sel _ _ _ _ _ => some 1
  | .clz _ _ _ => some 1
  | .popc _ _ _ => some 1
  | .brev _ _ _ => some 1
  | .addi _ _ _ _ => some 1
  | .andi _ _ _ _ => some 1
  | .ori _ _ _ _ => some 1
  | .xori _ _ _ _ => some 1
  | .shli _ _ _ _ => some 1
  | .shri _ _ _ _ => some 1
  | .sari _ _ _ _ => some 1
  | .rori _ _ _ _ => some 1
  | .movi _ _ _ => some 1
  | .movs _ _ _ => some 1
  | .cmp _ _ _ _ _ => some 1
  | .cmpi _ _ _ _ _ => some 1
  | .cb _ _ _ _ _ => some 1
  | .fadd _ _ _ _ => some 1
  | .fsub _ _ _ _ => some 1
  | .fmul _ _ _ _ => some 1
  | .fma _ _ _ _ => some 1
  | .fcmp _ _ _ _ _ => some 1
  | .fcvt _ _ _ _ _ => some 1
  | .ld _ _ _ _ => some 3
  | .ldx _ _ _ _ => some 3
  | .st _ _ _ _ => some 3
  | .ldaq _ _ _ _ _ => some 3
  | .strl _ _ _ _ _ => some 3
  | .mark => some 3
  | .fence _ => some 3
  | .aadd _ _ _ _ _ => some 3
  | .aand _ _ _ _ _ => some 3
  | .aor _ _ _ _ _ => some 3
  | .axor _ _ _ _ _ => some 3
  | .amin _ _ _ _ _ => some 3
  | .amax _ _ _ _ _ => some 3
  | .aminu _ _ _ _ _ => some 3
  | .amaxu _ _ _ _ _ => some 3
  | .afadd _ _ _ _ => some 3
  | .afmin _ _ _ _ => some 3
  | .afmax _ _ _ _ => some 3
  | .aswp _ _ _ _ _ => some 3
  | .acas _ _ _ _ _ _ => some 3
  | .vld _ _ _ _ => some 3
  | .vldle _ _ _ _ => some 3
  | .vst _ _ _ _ => some 3
  | .vpub _ _ => some 3
  | .vfloor _ _ => some 3
  | .vdrop _ _ => some 3
  | .vquery _ _ => some 3
  | .waita _ _ _ _ => some 3
  | .tlook _ _ => some 3
  | .tset _ _ => some 3
  | .tclr _ => some 3
  | .spill _ _ => some 3
  | .fill _ _ => some 3
  | .vFadd _ _ _ _ _ => some 4
  | .vFsub _ _ _ _ _ => some 4
  | .vFmul _ _ _ _ _ => some 4
  | .vFma _ _ _ _ _ => some 4
  | .vFmin _ _ _ _ _ => some 4
  | .vFmax _ _ _ _ _ => some 4
  | .fabs _ _ _ _ => some 4
  | .fneg _ _ _ _ => some 4
  | .rcp _ _ _ => some 4
  | .rsqrt _ _ _ => some 4
  | .exp2 _ _ _ => some 4
  | .log2 _ _ _ => some 4
  | .cvt _ _ _ _ _ _ => some 4
  | .vAdd _ _ _ _ _ => some 4
  | .vSub _ _ _ _ _ => some 4
  | .vMul _ _ _ _ _ => some 4
  | .vMin _ _ _ _ _ => some 4
  | .vMax _ _ _ _ _ => some 4
  | .vAnd _ _ _ _ _ => some 4
  | .vOr _ _ _ _ _ => some 4
  | .vXor _ _ _ _ _ => some 4
  | .vShl _ _ _ _ _ => some 4
  | .vShr _ _ _ _ _ => some 4
  | .vSar _ _ _ _ _ => some 4
  | .vShli _ _ _ _ _ => some 4
  | .vShri _ _ _ _ _ => some 4
  | .vSari _ _ _ _ _ => some 4
  | .vFshl _ _ _ _ _ => some 4
  | .vFshr _ _ _ _ _ => some 4
  | .cmpm _ _ _ _ _ => some 4
  | .vSel _ _ _ _ _ => some 4
  | .mpush _ _ _ _ _ => some 4
  | .minv _ => some 4
  | .mpop _ => some 4
  | .chkb _ _ _ _ _ => some 4
  | .red _ _ _ _ _ _ => some 4
  | .scan _ _ _ _ _ _ => some 4
  | .bcast _ _ _ _ _ => some 4
  | .perm _ _ _ _ _ => some 4
  | .rotm _ _ _ _ => some 4
  | .rndb _ _ => some 4
  | .rndf _ _ _ => some 4
  | .rndi _ _ _ _ => some 4
  | .sampc _ _ _ => some 4
  | .vldrRow _ _ _ => some 6
  | .vstrRow _ _ _ _ => some 6
  | .vldrRing _ _ _ => some 6
  | .vstrRing _ _ _ _ => some 6
  | .vldrGenerator _ _ => some 6
  | .vstrGenerator _ _ _ => some 6
  | .vldrBond _ _ _ => some 6
  | .vstrBond _ _ _ _ => some 6
  | .rcfg _ _ => some 6
  | .radvr _ _ => some 6
  | .radvw _ _ => some 6
  | .aset _ _ => some 6
  | .bond _ _ _ => some 6
  | .give _ _ => some 6
  | .lend _ _ => some 6
  | .recall _ => some 6
  | .unbond _ => some 6
  | .mcall _ => some 7
  | .mpset _ _ => some 7
  | .mpgo => some 7
  | .cpy _ _ _ _ => some 7
  | .cpyNoRing _ _ => some 7
  | .pref _ _ _ => some 7
  | .fmtset _ _ => some 7
  | .bndset _ _ _ _ => some 7
  | .bndget _ _ => some 7
  | _ => none

/-- The slot classes with the slot a word given without one is read in, the tables with the most reserved bits first.
PRESUMED (log 3): the opcode table gives no slot, and one word is an instruction of several slots. -/
def tableSlots : List Nat := [6, 3, 7, 4, 1, 0]

/-- The slot in which a word given without one is an instruction, and that instruction. -/
def decodeAnySlot (v : SlotWord) : Option (Nat × Instr) :=
  tableSlots.findSome? (fun k => (decodeClass (classOf k) v).map (fun i => (k, i)))

/-- The instruction the decoder reads from a word given without its slot: a slot word (32 bits) by the slot tables, the
first that accepts it; a microword (64 bits) by Table 6.8a. -/
def decodeTableWord (nbits w : Nat) : Option Instr :=
  if nbits = 64 then decodeMicro (BitVec.ofNat 64 w)
  else if nbits ≤ 32 then (decodeAnySlot (BitVec.ofNat 32 w)).map (fun x => x.2)
  else none

end Sys2Proof
end

