-- ==== Sys2Proof/Machine/Operands.lean ====
section
/-! DEFINITION. Operand forms: predicates (02 R32), immediates, FP32 in a scalar register (04 R101), lanes of a
vector register (05 R104), and row and address operands (08 R175, 09 R203). -/
namespace Sys2Proof.Machine

/-- 02 R32: takes effect when the flag named by bits [2:0] differs from the sense bit. -/
def predHolds (c : Ctx) (p : BitVec 4) : Bool := c.flag (fld p 0 3).toNat != p.getLsbD 3

/-- A field read as signed. -/
def signed {n : Nat} (x : BitVec n) : Int := x.toInt
/-- A field sign-extended to 64 bits. -/
def sext {n : Nat} (x : BitVec n) : Word := x.signExtend 64
/-- A field zero-extended to 64 bits. -/
def zext {n : Nat} (x : BitVec n) : Word := x.setWidth 64

/-- 04 R101: the FP32 operand in bits [31:0] of a scalar register. -/
def low32 (v : Word) : Nat := v.toNat % 2 ^ 32

/-- 05 R104: lane j of width w. -/
def lane (w : Nat) (r : Row) (j : Nat) : Nat := r.toNat / 2 ^ (w * j) % 2 ^ w
/-- All lanes of width w, ascending. -/
def lanes (w : Nat) (r : Row) : List Nat := (List.range (1024 / w)).map (lane w r)
/-- The number whose lanes of width w are the values given. -/
def lanesNat (w : Nat) : List Nat → Nat
  | [] => 0
  | x :: t => x % 2 ^ w + 2 ^ w * lanesNat w t
def ofLanes (w : Nat) (l : List Nat) : Row := BitVec.ofNat 1024 (lanesNat w l)
/-- The bits of the lanes that a mask makes active; mask bits at and above the lane count are ignored (05 R106). -/
def laneBits (w : Nat) (m : Word) : Row :=
  if m = BitVec.allOnes 64 then allOnes
  else ofLanes w ((List.range (1024 / w)).map (fun j => if m.getLsbD j then 2 ^ w - 1 else 0))

/-- A lane of width w read as signed. -/
def laneInt (w x : Nat) : Int := (BitVec.ofNat w x).toInt
/-- A number stored to a lane of width w. -/
def toLane (w : Nat) (v : Int) : Nat := (BitVec.ofInt w v).toNat

/-- The floating format of a type code (Table 2.2). -/
def fmtOf (t : BitVec 4) : Fmt := if t = 0 then fp32 else if t = 1 then fp16 else bf16
/-- Signed integer types: i16, i32, i64. -/
def signedType (t : BitVec 4) : Bool := decide (3 ≤ t.toNat ∧ t.toNat ≤ 5)
/-- The value of a lane of an integer type. -/
def laneVal (t : BitVec 4) (x : Nat) : Int := if signedType t then laneInt (laneWidth t) x else x

/-- Lane-wise result of two registers. -/
def map2 (w : Nat) (f : Nat → Nat → Nat) (a b : Row) : Row := ofLanes w (List.zipWith f (lanes w a) (lanes w b))
def map1 (w : Nat) (f : Nat → Nat) (a : Row) : Row := ofLanes w ((lanes w a).map f)
/-- Lane-wise result of three registers. -/
def map3 (w : Nat) (f : Nat → Nat → Nat → Nat) (a b c : Row) : Row :=
  ofLanes w (List.zipWith (fun g z => g z) (List.zipWith f (lanes w a) (lanes w b)) (lanes w c))

/-- Consecutive groups of n lanes. -/
def groupsOf (n : Nat) : Nat → List Nat → List (List Nat)
  | 0, _ => []
  | k + 1, l => l.take n :: groupsOf n k (l.drop n)

/-- log2 of a lane width. -/
def amountBits (w : Nat) : Nat := Nat.log2 w

/-- 2^sz bytes (Table 2.2). -/
def sizeOf' (z : BitVec 2) : Nat := 2 ^ z.toNat

/-- The byte mask of a VSTR: all bytes with sm 0, else s(sm) and s(sm + 1) (02 R46). -/
def storeMask (c : Ctx) (m : BitVec 5) : BitVec 128 :=
  if m = 0 then BitVec.allOnes 128 else c.sreg (m.toNat + 1) ++ c.sreg m.toNat
/-- Registers a VSTR's mask field reads. -/
def maskRegs (m : BitVec 5) : List Nat := if m = 0 then [] else [m.toNat, m.toNat + 1]

/-- A slot of the spill carve-out (08 R187, Table 8.9): its row and byte, or the index beyond it. -/
def spillPlace (c : Ctx) (n : Nat) : Nat × Nat ⊕ Word :=
  if n < 16 * c.spillRows then .inl (c.spillFirst + n / 16, 8 * (n % 16))
  else .inr ((c.ovfp >>> 3 <<< 3) + BitVec.ofNat 64 (8 * (n - 16 * c.spillRows)))

end Sys2Proof.Machine
end

