-- ==== Sys2Proof/Machine/Flags.lean ====
section
/-! DEFINITION. Conditions and flags: the integer and floating columns of Table 2.3 (02 R37), lane comparisons
(05 R108), bound-flag views and the own actions that clear them (14 R286, R287). -/
namespace Sys2Proof.Machine

/-- Table 2.3, integer column, on 64-bit operands (04 R97). -/
def intCond (c : BitVec 4) (a b : Word) : Bool :=
  match c.toNat with
  | 0 => decide (a = b)
  | 1 => decide (a ≠ b)
  | 2 => decide (a.toInt < b.toInt)
  | 3 => decide (b.toInt ≤ a.toInt)
  | 4 => decide (a.toNat < b.toNat)
  | 5 => decide (b.toNat ≤ a.toNat)
  | 6 => decide (a.toInt ≤ b.toInt)
  | 7 => decide (b.toInt < a.toInt)
  | 8 => decide (a.toNat ≤ b.toNat)
  | 9 => decide (b.toNat < a.toNat)
  | _ => false

/-- Table 2.3, floating column: a NaN operand is unordered, −0 equals +0. -/
def floatCond (c : BitVec 4) (a b : FV) : Bool :=
  let un := a.isNan || b.isNan
  let o := a.cmp b
  match c.toNat with
  | 0 => !un && decide (o = 0)
  | 1 => un || decide (o ≠ 0)
  | 2 => !un && decide (o = -1)
  | 3 => !un && decide (0 ≤ o)
  | 6 => !un && decide (o ≤ 0)
  | 7 => !un && decide (o = 1)
  | 10 => un
  | 11 => !un
  | _ => false

/-- The condition on one lane of type t: signedness from the type (02 R37). -/
def laneCond (c t : BitVec 4) (a b : Nat) : Bool :=
  if isFloat t then floatCond c ((fmtOf t).read a) ((fmtOf t).read b)
  else
    let x := laneVal t a
    let y := laneVal t b
    match c.toNat with
    | 0 => decide (x = y)
    | 1 => decide (x ≠ y)
    | 2 => decide (x < y)
    | 3 => decide (y ≤ x)
    | 6 => decide (x ≤ y)
    | 7 => decide (y < x)
    | _ => false

/-- 05 R108 Cond(cc, t): bit j is lane j's condition; bits at and above the lane count are 0. -/
def condMask (c t : BitVec 4) (a b : Row) : Word :=
  let w := laneWidth t
  BitVec.ofNat 64 (lanesNat 1 (List.zipWith (fun x y => bit (laneCond c t x y)) (lanes w a) (lanes w b)))

/-- Sets to 0 the views of the flags bound to an event that the own action clears (14 Table 14.4). -/
def Ctx.clearViews (c : Ctx) (p : BitVec 6 → BitVec 8 → Bool) : Ctx :=
  (List.range 16).foldl (fun x n =>
    match c.binds.get none n with
    | some (e, i) => if p e i then x.setFlag n false else x
    | none => x) c

/-- The views of events 1 (filled) or 2 (free) on handle q. -/
def Ctx.clearRing (c : Ctx) (q : Nat) (fill free : Bool) : Ctx :=
  c.clearViews (fun e i => ((e = 1#6 && fill) || (e = 2#6 && free)) && decide ((fld i 0 4).toNat = q))
def Ctx.clearCopyIdle (c : Ctx) : Ctx := c.clearViews (fun e _ => e = 3#6)
def Ctx.clearMatrixIdle (c : Ctx) : Ctx := c.clearViews (fun e _ => e = 4#6)
def Ctx.clearCopyFail (c : Ctx) : Ctx := c.clearViews (fun e _ => e = 5#6)
def Ctx.clearBond (c : Ctx) (k : Nat) : Ctx := c.clearViews (fun e i => e = 6#6 && decide ((fld i 0 4).toNat = k))
def Ctx.clearLent (c : Ctx) (k : Nat) : Ctx := c.clearViews (fun e i => e = 7#6 && decide ((fld i 0 4).toNat = k))

/-- The condition of an event for a context (14 Table 14.4). -/
def State.eventHolds (s : State) (w : Who) (e : BitVec 6) (i : BitVec 8) : Bool :=
  let c := s.ctx w
  let h := s.hold w.core
  let q := (fld i 0 4).toNat
  let t := (fld i 4 4).toNat + 1
  match e.toNat with
  | 1 => match c.ringOf q with | some r => decide (t ≤ (h.ring r).filled) | none => false
  | 2 => match c.ringOf q with | some r => decide (t ≤ (h.ring r).free) | none => false
  | 3 => h.copies.all (fun x => decide (x.slot ≠ w.slot))
  | 4 => h.matrixCmds.all (fun x => decide (x.slot ≠ w.slot)) && h.matrix.queue.all (fun x => decide (x.slot ≠ w.slot))
  | 5 => decide (c.ringless ≠ none)
  | 6 => decide ((c.handle q).st = .held ∨ (c.handle q).st = .borrowed)
  | 7 =>
    decide ((c.handle q).st = .lent) &&
      (match (s.hold (c.handle q).home).bond? (c.handle q).bond with | some b => b.borrowers.isEmpty | none => true)
  | _ => false

end Sys2Proof.Machine
end

