-- ==== Sys2Proof/Machine/Versions.lean ====
section
/-! DEFINITION. Owner events (21_traps_and_preemption.md R367, R368) and the version unit of versioned regions
(12_atomics_and_versions.md R248 to R256). -/
namespace Sys2Proof.Machine

/-! ## Owner events -/

/-- Room in a partition's event ring (21 R367). -/
def Part.eventRoom (p : Part) : Bool := p.evEn && decide ((p.evWp - p.evRp).toNat < p.evSlots.toNat)

/-- Where a partition's next record goes. -/
def Part.eventSlot (p : Part) : Nat := p.evBase.toNat + 256 * (p.evWp.toNat % p.evSlots.toNat)
/-- Writes a record of 256 bytes, advances wp and raises MSI-X vector n of function 0 (21 R367). -/
def State.writeEvent (s : State) (n : Nat) (rec : List Byte) : State :=
  let p := s.part n
  let s1 := s.storeBytes p.eventSlot rec
  { s1.setPart n { p with evWp := p.evWp + 1 } with msix := s1.msix ++ [n] }

/-- A list of bytes at an offset of a record, the rest zero. -/
def padTo (n : Nat) (l : List Byte) : List Byte := l ++ List.replicate (n - l.length) 0

/-- 19 R341: a record waits for lines that the host may hold, or behind one that does. -/
def State.eventWaits (s : State) (n : Nat) : Bool :=
  s.snoopingRange (s.part n).eventSlot 256 || !(s.part n).evWaiting.isEmpty
/-- The records that waited are written, as far as their lines are back; one whose snoop failed is lost (log 94). -/
def State.flushEvents (n : Nat) : Nat → State → State
  | 0, s => s
  | k + 1, s =>
    match (s.part n).evWaiting with
    | [] => s
    | r :: more =>
      let s1 := s.updPart n (fun p => { p with evWaiting := more })
      if !(s.snoopingRange (s.part n).eventSlot 256) then State.flushEvents n k (s1.writeEvent n r)
      else if s.snoopLost then (s1.updPart n (fun p => { p with evLost := p.evLost + 1 })).settled
      else s

/-- 21 R367, R368: an event of kind 2, 3 or 4 with its further bytes 16 to 23; the part's event number counts it,
and a full or disabled ring counts it in lost. -/
def State.ownerEvent (s : State) (n kind cause job data : Nat) : State :=
  let p := s.part n
  let s1 := s.setPart n { p with eventNo := p.eventNo + 1 }
  if p.eventRoom then
    let r := padTo 256
      (toBytes 1 kind ++ toBytes 1 cause ++ toBytes 2 0 ++ toBytes 1 n ++ toBytes 1 job ++ toBytes 6 0 ++
        toBytes 4 (p.eventNo + 1).toNat ++ toBytes 8 data)
    if s.eventWaits n then s1.updPart n (fun x => { x with evWaiting := x.evWaiting ++ [r] }) else s1.writeEvent n r
  else s1.setPart n { s1.part n with evLost := p.evLost + 1 }

/-! ## The version unit -/

/-- 12 R248: versions lie below the horizon. -/
def Region.horizon (r : Region) : Nat := if 2 ^ 48 < r.floor + r.span then 2 ^ 48 else r.floor + r.span

/-- Block number of a virtual address within its region. -/
def Region.blockOf (r : Region) (va : Nat) : Nat := (va - r.base) / 64

/-- 12 R248: version 0 of a block is its bytes as the unit first reads them, with their poison (08 R403). -/
def Region.touch (r : Region) (b : Nat) (data : BitVec 512) (bad : Bool) : Region :=
  if r.versions.any (fun x => decide (x.block = b)) || r.reclaimed.any (fun x => decide (x.1 = b)) then r
  else
    let zero : Version := { block := b, v := 0, data := data, writer := none, published := true, poison := bad }
    { r with versions := r.versions ++ [zero] }

/-- Versions that hold a pool entry: all but version 0 (12 R248, R250). -/
def Region.used (r : Region) : Nat := (r.versions.filter (fun x => decide (x.v ≠ 0))).length

def Region.published? (r : Region) (b v : Nat) : Option Version :=
  r.versions.find? (fun x => decide (x.block = b) && decide (x.v = v) && x.published)
def Region.own? (r : Region) (b v t : Nat) : Option Version :=
  r.versions.find? (fun x => decide (x.block = b) && decide (x.v = v) && !x.published && decide (x.writer = some t))

/-- 12 R252: the newest version at or below v that is published or written by task t. -/
def Region.newest (r : Region) (b v t : Nat) : Option Version :=
  (r.versions.filter (fun x => decide (x.block = b) && decide (x.v ≤ v) &&
      (x.published || decide (x.writer = some t)))).foldl
    (fun a x =>
      match a with
      | none => some x
      | some y => if y.v < x.v then some x else some y) none

/-- What the unit answers a version instruction: accepted with a value, refused with a cause, or not yet. -/
inductive Answer (α : Type) where
  | accept (x : α)
  | refuse (cause : Nat)
  | wait

/-- 12 R252: VLD of version v by task t. -/
def Region.vld (r : Region) (b v t : Nat) : Answer Version :=
  if r.horizon ≤ v ∨ (v < r.floor ∧ r.reclaimed.contains (b, v)) then .refuse Cause.missingVersion
  else
    match r.own? b v t with
    | some x => .accept x
    | none =>
      match r.published? b v with
      | some x => .accept x
      | none => .wait

/-- 12 R252: VLDLE. -/
def Region.vldle (r : Region) (b v t : Nat) : Answer Version :=
  if r.horizon ≤ v then .refuse Cause.missingVersion
  else
    match r.newest b v t with
    | some x => .accept x
    | none => .refuse Cause.missingVersion

/-- 12 R249, R250, R255: VST by task t, whose siblings are tasks of its own speculative pair; the region with the
version created when it did not exist. A version that the task's own VPUB holds is published to it. fresh gives the
bytes of a version with the writer's earlier stores to it. -/
def Region.vst (r : Region) (b v t : Nat) (siblings : List Nat) (fresh : Version → BitVec 512) : Answer Region :=
  if v = 0 ∨ r.horizon ≤ v ∨ (v < r.floor ∧ (r.own? b v t).isNone) then .refuse Cause.versionRange
  else if r.versions.any (fun x => decide (x.block = b) && decide (x.v = v) && !x.published &&
      decide (x.writer ≠ some t) && !(siblings.any (fun u => decide (x.writer = some u)))) then
    .refuse Cause.versionWriter
  else if (r.published? b v).isSome then .refuse Cause.versionPublished
  else if (r.own? b v t).any (fun x => x.held) then .refuse Cause.versionPublished
  else if (r.own? b v t).isSome then .accept r
  else if r.poolSize ≤ r.used then .wait
  else
    match r.newest b (v - 1) t with
    | some x =>
      let new : Version := { block := b, v := v, data := fresh x, writer := some t, published := false, poison := x.poison }
      .accept { r with versions := r.versions ++ [new] }
    | none => .refuse Cause.missingVersion

/-- Bytes i to i + n − 1 of a block's 64. -/
def blockBytes (d : BitVec 512) (i n : Nat) : Nat := d.toNat / 2 ^ (8 * i) % 2 ^ (8 * n)
def blockWith (d : BitVec 512) (i n v : Nat) : BitVec 512 := setFld d (8 * i) (8 * n) v

/-- The data of a VST reaches its version, if the version is still its writer's. -/
def Region.write (r : Region) (b v t i n x : Nat) : Region :=
  { r with versions := r.versions.map (fun y =>
      if y.block = b ∧ y.v = v ∧ y.published = false ∧ y.writer = some t then { y with data := blockWith y.data i n x }
      else y) }

/-- 12 R251: version n of every block task t writes becomes published in one step. -/
def Region.publish (r : Region) (n t : Nat) : Region :=
  { r with versions := r.versions.map (fun y =>
      if y.v = n ∧ y.published = false ∧ y.writer = some t then { y with published := true, writer := none } else y) }

/-- 12 R251: a publication of version n by task t covers some block. -/
def Region.covers (r : Region) (n t : Nat) : Bool :=
  r.versions.any (fun y => decide (y.v = n) && !y.published && !y.held && decide (y.writer = some t))
/-- 12 R255: a held publication of version n by task t still covers some block. -/
def Region.keeps (r : Region) (n t : Nat) : Bool :=
  r.versions.any (fun y => decide (y.v = n) && !y.published && y.held && decide (y.writer = some t))

/-- 12 R255: a speculative task's VPUB is held: the versions that it covers are published at DECIDE. -/
def Region.holdBack (r : Region) (n t : Nat) : Region :=
  { r with versions := r.versions.map (fun y =>
      if y.v = n ∧ y.published = false ∧ y.writer = some t then { y with held := true } else y) }
/-- 12 R255: a held publication takes effect. -/
def Region.release (r : Region) (n t : Nat) : Region :=
  { r with versions := r.versions.map (fun y =>
      if y.v = n ∧ y.published = false ∧ y.writer = some t ∧ y.held = true then
        { y with published := true, writer := none, held := false }
      else y) }

/-- An episode of exhaustion ends when an entry returns to the pool (12 R250). -/
def Region.ending (r : Region) (was : Region) : Region :=
  { r with exhausted := was.exhausted && decide (was.used ≤ r.used) }

/-- 12 R253: a published version below f that is not the newest such version of its block. -/
def Region.stale (r : Region) (f : Nat) (x : Version) : Bool :=
  x.published && decide (x.v < f) &&
    r.versions.any (fun y => decide (y.block = x.block) && y.published && decide (y.v < f) && decide (x.v < y.v))

/-- 12 R253: raising the floor. -/
def Region.raise (r : Region) (f : Nat) : Region :=
  if f ≤ r.floor then r
  else
    let gone := r.versions.filter (r.stale f)
    { r with floor := f
             versions := r.versions.filter (fun x => !(r.stale f x))
             reclaimed := r.reclaimed ++ gone.map (fun x => (x.block, x.v)) : Region }.ending r

/-- 12 R254: version n and above of every block leave. -/
def Region.dropFrom (r : Region) (n : Nat) : Region :=
  { r with versions := r.versions.filter (fun x => decide (x.v < n)) : Region }.ending r

/-- 12 R255, 21 R366: every unpublished version of task t leaves. -/
def Region.dropTask (r : Region) (t : Nat) : Region :=
  { r with versions := r.versions.filter (fun x => x.published || !decide (x.writer = some t)) : Region }.ending r

/-- 12 R254: VQUERY; a publication that is held counts as unpublished, for its own task too (DEDUCED, log 106). -/
def Region.query (r : Region) (b : Nat) : Word :=
  let vs := r.versions.filter (fun x => decide (x.block = b))
  let newest := (vs.filter (fun x => x.published)).foldl (fun a x => if a < x.v then x.v else a) 0
  BitVec.ofNat 64 (newest + 2 ^ 62 * bit (vs.any (fun x => !x.published)))

def State.setRegion (s : State) (j : Nat) (r : Region) : State :=
  s.updJob j (fun x => { x with regions := x.regions.map (fun y => if y.base = r.base then r else y) })

/-- The unit reads the block at a physical address before its first use. -/
def State.touchBlock (s : State) (j : Nat) (r : Region) (va pa : Nat) : Region × State :=
  let r' := r.touch (r.blockOf va) (BitVec.ofNat 512 (s.readMem (pa / 64 * 64) 64)) (s.poisonedRange (pa / 64 * 64) 64)
  (r', s.setRegion j r')

/-- Removes the unpublished versions of a task from every region of a job. -/
def State.dropTaskVersions (s : State) (j t : Nat) : State :=
  s.updJob j (fun x => { x with regions := x.regions.map (fun r => r.dropTask t) })

/-- 12 R250: one event for each episode of exhaustion. -/
def State.poolEvent (s : State) (j : Nat) (r : Region) : State :=
  if r.exhausted then s
  else (s.setRegion j { r with exhausted := true }).ownerEvent (s.job j).part.toNat 2 64 j r.base

/-- The region at a base of a job changes. -/
def State.updRegion (s : State) (j base : Nat) (f : Region → Region) : State :=
  s.updJob j (fun x => { x with regions := x.regions.map (fun r => if r.base = base then f r else r) })
/-- 12 R251: a publication takes effect. -/
def State.publish (s : State) (j base n t : Nat) : State := s.updRegion j base (fun r => r.publish n t)

/-- The highest version of a region that the context published since launch (21 R369). -/
def Ctx.notePublished (c : Ctx) (base n : Nat) : Ctx :=
  { c with published := c.published.put base (if c.published.get 0 base < n then n else c.published.get 0 base) }

def State.covers (s : State) (j base n t : Nat) : Bool :=
  (s.job j).regions.any (fun r => decide (r.base = base) && r.covers n t)

/-- A publication by a context: what it published is kept for its progress entry, and one that covers no block does
nothing (12 R251, 21 R369). -/
def State.publishBy (s : State) (w : Who) (j base n t : Nat) : State :=
  if s.covers j base n t then (s.publish j base n t).updCtx w (fun c => c.notePublished base n) else s
/-- A publication by a speculative task, held until DECIDE (12 R255). -/
def State.holdBy (s : State) (w : Who) (j base n t : Nat) : State :=
  if s.covers j base n t then
    (s.updRegion j base (fun r => r.holdBack n t)).updCtx w (fun c => { c with heldPubs := c.heldPubs ++ [(base, n)] })
  else s
/-- A held publication takes effect for its context (12 R255, 13 R270). -/
def State.releaseBy (s : State) (w : Who) (j base n t : Nat) : State :=
  if (s.job j).regions.any (fun r => decide (r.base = base) && r.keeps n t) then
    (s.updRegion j base (fun r => r.release n t)).updCtx w (fun c => c.notePublished base n)
  else s

end Sys2Proof.Machine
end

