-- ==== Sys2Proof/Machine/Slot.lean ====
section
/-! DEFINITION. What one slot of a bundle contributes: the registers it names, its predicate, and its action on the
running state, which may succeed, jump, trap or block (02 R30 to R34, 21 Table 21.2). -/
namespace Sys2Proof.Machine

/-- Where a taken branch goes (14 R275, R276, R292; 21 R362). -/
inductive Target where
  /-- a bundle index; atEnd allows the bundle count itself (zero-trip LOOP); ends is false for CALL (14 R281) -/
  | index (t : Int) (atEnd ends : Bool)
  /-- SJMP to the segment at an address -/
  | segment (va : Word)
  /-- ERET -/
  | eret
  deriving DecidableEq, Repr

/-- What a slot's instruction does at an attempt to issue. -/
inductive Res where
  | ok (s : State)
  | jump (s : State) (t : Target)
  | trap (t : TrapInfo)
  /-- the bundle blocks; the copy commands whose end it waits for (22 R382) -/
  | block (on : List Nat)
  /-- the bundle does not issue, and the core freezes until its transition has settled (15 R303) -/
  | freeze
  deriving Repr

/-- What a slot sees: who issues, its slot and step number, the contexts before the bundle issued (its own and its
gang lead's), and the lane mask. -/
structure Env where
  who : Who
  slot : Nat
  n : Nat
  ctx : Ctx
  lead : Ctx
  isLead : Bool
  /-- the value a replayed SRR of CORE.RETSTAT takes (22 R381) -/
  counter : Option Word := none
  deriving Repr

/-- The lane mask in force for every slot of the bundle (02 R30). -/
def Env.lanes (e : Env) : Word := e.ctx.top

/-- The gating of slots 1 to 7 by the control slot (14 R283, R284). -/
inductive Gate where
  | pwait (fields : List (BitVec 4))
  | igate (c : BitVec 3) (w : BitVec 2) (s : BitVec 7)
  deriving DecidableEq, Repr

/-- The meaning of one slot word. -/
structure Sem where
  /-- the word is not an instruction (02 R33) -/
  ill : Bool := false
  /-- a privileged form -/
  priv : Bool := false
  /-- the predicate of an S or V slot -/
  pred : BitVec 4 := 0
  /-- scalar registers read, and written -/
  sr : List Nat := []
  sw : List Nat := []
  /-- scalar registers that only a gang's lead reads (14 R277) -/
  leadReads : List Nat := []
  /-- whether it acts is the lead's to decide: its predicate and gate are the lead's (01 R17, 04 R100) -/
  leadActs : Bool := false
  /-- vector registers read, and written; all of them are checked against the allotment -/
  vr : List Nat := []
  vw : List Nat := []
  /-- while it blocks, the transfer that the bundle would make is not known (ERET, EXIT) -/
  leaves : Bool := false
  /-- it moves the depth of the mask stack, which the slots above see while it blocks (05 R108) -/
  depth : Bool := false
  /-- registers GROW adds or SHRINK releases (14 R288, R289) -/
  grow : Option Nat := none
  shrink : Option Nat := none
  gate : Option Gate := none
  /-- the code of a TRAP, taken after its bundle (21 R363) -/
  after : Option Nat := none
  /-- an SRR of CORE.RETSTAT (22 R381) -/
  retstat : Bool := false
  /-- what a blocked attempt leaves behind (12 R250) -/
  blocked : Env → State → State := fun _ s => s
  run : Env → State → Res

/-- What a failed access comes to: its trap with a CTX.TADDR value and the frame behind cause 12, or a wait for a
back-invalidation response (19 R341). -/
def failAt (cause : Nat) (addr : Word) (frame : Option Nat) : Res :=
  if cause = Cause.later then .block [] else .trap { cause := cause, addr := addr, frame := frame }
/-- A trap with a cause and a CTX.TADDR value. -/
def trapAt (cause : Nat) (addr : Word) : Res := .trap { cause := cause, addr := addr }
/-- The failure of a context's access at a virtual address (09 R196; 21 Table 21.4, R366). -/
def State.failAccess (s : State) (w : Who) (cause : Nat) (va : Word) : Res :=
  failAt cause va (s.walkFrame (clusterOf w.core) (s.ctx w).owner va cause)
/-- The trap of a held cause of a ringless copy (10 R222; 21 Tables 21.3, 21.4). -/
def Held.ringlessTrap (x : Held) : Res :=
  .trap { cause := x.cause, sub := x.cause, addr := x.addr, frame := x.frame, fix := .ringless }
def trapNat (cause addr : Nat) : Res := .trap { cause := cause, addr := BitVec.ofNat 64 addr }
/-- A trap whose cause's row of Table 21.4 does not hold for the instruction. -/
def trapBare (cause : Nat) : Res := .trap { cause := cause, bare := true }

/-- Schedules a scalar result at latency l. -/
def putScalar (e : Env) (l d : Nat) (v : Word) (s : State) : State :=
  s.updCtx e.who (fun c => c.schedule e.n e.slot l (.s d) (wordRow v) allOnes)
/-- Schedules a flag result. -/
def putFlag (e : Env) (f : Nat) (v : Bool) (s : State) : State :=
  s.updCtx e.who (fun c => c.schedule e.n e.slot 1 (.f f) (BitVec.ofNat 1024 (bit v)) allOnes)
/-- Schedules a vector result for the bits of a mask. -/
def putVector (e : Env) (l d : Nat) (v m : Row) (s : State) : State :=
  s.updCtx e.who (fun c => c.schedule e.n e.slot l (.v d) v m)

/-- An S-slot instruction that writes sd after l steps with a function of the registers (04 R84 to R86). -/
def aluSem (p : BitVec 4) (d : BitVec 5) (reads : List (BitVec 5)) (l : Nat) (f : Ctx → Word) : Sem :=
  { pred := p, sr := reads.map BitVec.toNat, sw := [d.toNat]
    run := fun e s => .ok (putScalar e l d.toNat (f e.ctx) s) }

/-- An S-slot compare (04 R97, R102). -/
def cmpSem (p f : BitVec 4) (reads : List (BitVec 5)) (g : Ctx → Bool) : Sem :=
  { pred := p, sr := reads.map BitVec.toNat, run := fun e s => .ok (putFlag e f.toNat (g e.ctx) s) }

/-- A V-slot instruction that writes the active lanes of width w of vd after l steps (05 R105 to R107). -/
def vecSem (p : BitVec 4) (d : BitVec 6) (reads : List (BitVec 6)) (w l : Nat) (f : Ctx → Row) : Sem :=
  { pred := p, vr := reads.map BitVec.toNat, vw := [d.toNat]
    run := fun e s => .ok (putVector e l d.toNat (f e.ctx) (laneBits w e.lanes) s) }

/-- The registers of a context that a pending interlocked access will write (14 R291). -/
def Ctx.awaitS (c : Ctx) (n : Nat) : Bool :=
  n ≠ 0 && c.loadQ.any (fun l => decide (l.dst = n) && decide (l.kind ≠ .mark))
def Ctx.awaitV (c : Ctx) (n : Nat) : Bool := c.remoteQ.any (fun r => r.load && decide (r.v = n))

/-- 04 R88, 14 R291: a bundle that reads or writes an interlocked register blocks. -/
def Sem.interlocked (m : Sem) (c : Ctx) (isLead : Bool) : Bool :=
  (m.sr ++ m.sw ++ (if isLead then m.leadReads else [])).any c.awaitS || (m.vr ++ m.vw).any c.awaitV

/-- 09 R197: the marked register that a slot touches; of several, the one that was marked first (DESIGN CHOICE, log 97). -/
def Sem.marked (m : Sem) (c : Ctx) (isLead : Bool) : Option Mark :=
  c.marks.find? (fun k =>
    if k.vec then (m.vr ++ m.vw).contains k.reg
    else (m.sr ++ m.sw ++ (if isLead then m.leadReads else [])).contains k.reg)

/-- 14 Table 14.2a: the tests of IGATE. -/
def gateTest (w : BitVec 2) (c : Course) : Bool :=
  match w.toNat with
  | 0 => c.active && decide (c.index = 0)
  | 1 => c.active && decide (c.index = c.trip - 1)
  | 2 => !c.active || decide (c.index ≠ 0)
  | _ => !c.active || decide (c.index ≠ c.trip - 1)

/-- 14 R284: sat(k) of a PWAIT field. -/
def fieldSat (c : Ctx) (f : BitVec 4) : Bool :=
  f = 0 || (f ≠ 8 && (c.flag (fld f 0 3).toNat != f.getLsbD 3))

/-- Slot k takes part: the gate lets it, and its own predicate holds (02 R32, R40; 14 R283, R284). -/
def Gate.lets (g : Option Gate) (e : Env) (k : Nat) : Bool :=
  match g with
  | none => true
  | some (.pwait fs) => k = 0 || fieldSat e.ctx (fs.getD (k - 1) 0)
  | some (.igate c w s) => k = 0 || !(s.getLsbD (k - 1)) || gateTest w (e.lead.course c.toNat)

def Sem.active (m : Sem) (g : Option Gate) (e : Env) (k : Nat) : Bool :=
  let x : Env := if m.leadActs then { e with ctx := e.lead } else e
  Gate.lets g x k && predHolds x.ctx m.pred

end Sys2Proof.Machine
end

