-- ==== Sys2Proof/Machine/Registers.lean ====
section
/-! DEFINITION. Device register space (01 R402; 18 Tables 18.1 to 18.8; 19 Tables 19.2 to 19.7; 21 Table 21.6; 24
Tables 24.4, 24.5) and the CORE. and CLU. registers (21 Table 21.10). A write whose effect is a step of its own in
the opcode table puts that step next on the agenda. -/
namespace Sys2Proof.Machine

/-! ## Names -/

/-- Registers of a recovery block (21 Table 21.6). -/
inductive RcvReg where
  | evBase
  | evCtl
  | evWp
  | evRp
  | pBase
  | pCtl
  | mSave
  | cmd
  | cmdSt
  | ret (k : Nat)
  deriving DecidableEq, Repr

/-- Registers of a PHY block (24 Table 24.5). -/
inductive PhyReg where
  | test
  | tst
  | pass0
  | pass1
  | repair
  | result
  | lane (n : Nat)
  deriving DecidableEq, Repr

/-- The registers of device register space. -/
inductive RegId where
  | partCtl (n : Nat)
  | partClusters (n : Nat)
  | partHbm (n : Nat)
  | partBulk (n : Nat)
  | partProgmon (n : Nat)
  | partBudget (n k : Nat)
  | jobCtl (j : Nat)
  | jobRoot (j : Nat)
  | jobInval (j : Nat)
  | jobInvSt (j : Nat)
  | jobRegCmd (j : Nat)
  | jobRegSt (j : Nat)
  | difCfg
  | difPorts
  | difPtag (n : Nat)
  | difExp (e : Nat)
  | bootRec (g i : Nat)
  | bootDb (g : Nat)
  | bootSt (g : Nat)
  | attReq (j : Nat)
  | attSt (j : Nat)
  | alarm
  | bootStat
  | bootCtl
  | sys (g num : Nat)
  | rcv (n : Nat) (r : RcvReg)
  | phy (c : Nat) (r : PhyReg)
  deriving DecidableEq, Repr

def rcvReg (o : Nat) : Option RcvReg :=
  if o = 0 then some .evBase else if o = 8 then some .evCtl else if o = 0x10 then some .evWp
  else if o = 0x18 then some .evRp else if o = 0x20 then some .pBase else if o = 0x28 then some .pCtl
  else if o = 0x30 then some .mSave else if o = 0x38 then some .cmd else if o = 0x40 then some .cmdSt
  else if 0x80 ≤ o ∧ o < 0x100 then some (.ret ((o - 0x80) / 8)) else none

def phyReg (o : Nat) : Option PhyReg :=
  if o = 0 then some .test else if o = 8 then some .tst else if o = 0x10 then some .pass0
  else if o = 0x18 then some .pass1 else if o = 0x20 then some .repair else if o = 0x28 then some .result
  else if 0x100 ≤ o ∧ o < 0x100 + 8 * 66 then some (.lane ((o - 0x100) / 8)) else none

/-- The CORE. and CLU. numbers of Table 21.10. -/
def coreNumber (n : Nat) : Bool :=
  decide (0x100 ≤ n ∧ n ≤ 0x103) || decide (0x110 ≤ n ∧ n ≤ 0x118) || decide (0x200 ≤ n ∧ n ≤ 0x204)

/-- The register at an 8-byte-aligned offset of device register space. -/
def regAt (off : Nat) : Option RegId :=
  let b := off / 2 ^ 24
  let r := off % 2 ^ 24
  let u := r / 0x1000
  let o := r % 0x1000
  if b = 1 then
    if 64 ≤ u then none
    else if o = 0 then some (.partCtl u) else if o = 8 then some (.partClusters u)
    else if o = 0x10 then some (.partHbm u) else if o = 0x18 then some (.partBulk u)
    else if o = 0x20 then some (.partProgmon u)
    else if 0x40 ≤ o ∧ o < 0x78 then some (.partBudget u ((o - 0x40) / 8)) else none
  else if b = 2 then
    if 256 ≤ u then none
    else if o = 0 then some (.jobCtl u) else if o = 8 then some (.jobRoot u)
    else if o = 0x10 then some (.jobInval u) else if o = 0x18 then some (.jobInvSt u)
    else if o = 0x20 then some (.jobRegCmd u) else if o = 0x28 then some (.jobRegSt u) else none
  else if b = 3 then
    if r = 0 then some .difCfg else if r = 8 then some .difPorts
    else if 0x100 ≤ r ∧ r < 0x300 then some (.difPtag ((r - 0x100) / 8))
    else if 0x400 ≤ r ∧ r < 0x600 then some (.difExp ((r - 0x400) / 8)) else none
  else if b = 4 then
    let g := r / 128
    let k := r % 128
    if 1024 ≤ g then none
    else if k < 0x40 then some (.bootRec g (k / 8))
    else if k = 0x40 then some (.bootDb g) else if k = 0x48 then some (.bootSt g) else none
  else if b = 5 then
    if 256 ≤ u then none
    else if o = 0 then some (.attReq u) else if o = 8 then some (.attSt u) else none
  else if b = 6 then
    if r = 0 then some .alarm else if r = 8 then some .bootStat else if r = 0x10 then some .bootCtl else none
  else if b = 8 ∨ b = 9 then
    let q := off - 8 * 2 ^ 24
    let g := q / 0x8000
    let n := q % 0x8000 / 8
    if g < 1024 ∧ coreNumber n then some (.sys g n) else none
  else if b = 0xA then
    if 64 ≤ u then none else (rcvReg o).map (.rcv u)
  else if b = 0xC then
    if 256 ≤ u then none else (phyReg o).map (.phy u)
  else none

/-- The offset of a local address in device register space. -/
def regOffset (pa : Nat) : Nat := localOf pa - 2 ^ 41

/-! ## Rights (18 R326; 19 R337, R343, R348; 21 R367, R374; 24 R396, R399) -/

/-- A host function is admitted to a partition when an enabled job of it names the function (18 R326). -/
def State.admits (s : State) (p f : Nat) : Bool :=
  s.jobs.any (fun e => e.2.en && e.2.fv && decide (e.2.func.toNat = f) && decide (e.2.part.toNat = p))
/-- The enabled partitions that hold a cluster. -/
def State.holders (s : State) (c : Nat) : List Nat :=
  (s.parts.filter (fun e => e.2.en && e.2.clusters.getLsbD c)).map (fun e => e.1)

/-- The right of a requester to a job's blocks: function 0; the function that the job names, while its partition is
enabled (19 R337); a privileged context of the job's partition, as every context that reaches registers is (01 R402). -/
def State.jobRight (s : State) (j : Nat) : Requester → Bool
  | .host f => decide (f = 0) ||
      ((s.job j).fv && decide ((s.job j).func.toNat = f) && (s.part (s.job j).part.toNat).en)
  | .context p => decide ((s.job j).part.toNat = p)
  | .bootTask => false
/-- What a read may see: no register of one partition is read by a context of another (18 R322, log 74). -/
def seesPart (n : Nat) : Requester → Bool
  | .host f => decide (f = 0)
  | .context p => decide (p = n)
  | .bootTask => true
def State.seesCore (s : State) (g : Nat) : Requester → Bool
  | .host f => decide (f = 0)
  | .context p => decide ((s.hold g).part = some p)
  | .bootTask => true

def isManagement : Requester → Bool
  | .host f => decide (f = 0)
  | _ => false

/-- The cause with which a register access is refused, if it is. -/
def State.regRefusal (s : State) (who : Requester) (r : RegId) (write : Bool) : Option Nat :=
  let mgmt := isManagement who
  let may (b : Bool) : Option Nat := if b then none else some Cause.permission
  let only := may mgmt
  match r with
  | .partCtl n | .partClusters n | .partHbm n | .partBulk n | .partProgmon n | .partBudget n _ =>
    may (mgmt || (!write && seesPart n who))
  | .sys g _ => may (mgmt || (!write && s.seesCore g who))
  | .jobCtl j => may (mgmt || (!write && (s.jobRight j who || decide (who = .bootTask))))
  | .jobRoot j | .jobInval j | .jobInvSt j | .jobRegCmd j | .jobRegSt j =>
    may (s.jobRight j who || (!write && decide (who = .bootTask)))
  | .attReq j | .attSt j => if s.jobRight j who then none else some Cause.permission
  | .difCfg | .difPorts | .difPtag _ | .difExp _ => only
  | .rcv _ _ => only
  | .alarm | .bootStat | .bootCtl => only
  | .bootRec g _ | .bootDb g | .bootSt g =>
    match who with
    | .host f => if f = 0 || (s.holders (clusterOf g)).any (fun p => s.admits p f) then none else some Cause.permission
    | _ => some Cause.permission
  | .phy _ _ =>
    match who with
    | .bootTask => none
    | _ => if mgmt then none else some Cause.unmapped

/-- The requester a context is. -/
def Owner.requester (o : Owner) : Requester := if o.boot then .bootTask else .context o.part

/-- 01 R402: the cause of an 8-byte access to an offset by a context. -/
def State.regCause (s : State) (o : Owner) (pa : Nat) (write : Bool) : Option Nat :=
  match regAt (regOffset pa) with
  | none => some Cause.unmapped
  | some r => s.regRefusal o.requester r write

/-! ## Operating points (15 R302, R303) -/

/-- The gang resident on a core, whose lead's request every member island takes. -/
def State.gangOn (s : State) (g : Nat) : Option Gang :=
  (contextsOf g).findSome? (fun w => if (s.ctx w).resident then (s.ctx w).gang else none)

def min3 (a b c : Nat) : Nat := min a (min b c)

/-- The request of the gang whose lead runs on a core (15 R301). -/
def State.gangRequest (s : State) (lead : Nat) : BitVec 3 :=
  ((contextsOf lead).findSome? (fun w => if (s.ctx w).resident then (s.ctx w).gangReq else none)).getD (s.hold lead).opReq
/-- The requested point of an island: its own, or, while a gang is resident, the gang's (15 R301, R302). -/
def State.requestedPoint (s : State) (g : Nat) : BitVec 3 :=
  match s.gangOn g with
  | none => (s.hold g).opReq
  | some k => s.gangRequest k.lead

/-- The effective point of an island. -/
def State.effectivePoint (s : State) (g : Nat) : Nat :=
  let cap (m : Nat) : Nat := min (s.core m).opCap.toNat (s.cluster (clusterOf m)).tcap.toNat
  match s.gangOn g with
  | none => min (s.hold g).opReq.toNat (cap g)
  | some k => (k.members.map cap).foldl min (s.gangRequest k.lead).toNat

/-- The clock switch freezes the core for 16 cycles, in which nothing issues (15 Table 15.9, R300). -/
def Core.clockSwitch (c : Core) : Core :=
  { c with freezeTransition := c.freezeTransition + 16, window := (List.replicate 16 0 ++ c.window).take 64 }
/-- A core's transition starts: its clock switch comes at once on the way down. -/
def Core.startTransition (c : Core) (point : Nat) (up : Bool) : Core :=
  let c1 : Core := { c with opEff := BitVec.ofNat 3 point, opBusy := true, opUp := up }
  if up then c1 else c1.clockSwitch
/-- A transition settles: on the way up with its clock switch. -/
def Core.settleTransition (c : Core) : Core :=
  if c.opBusy then
    let c1 : Core := { c with opBusy := false, opUp := false, opWait := false }
    if c.opUp then c1.clockSwitch else c1
  else c

/-- The islands that move together with a core's. -/
def State.opGroup (s : State) (g : Nat) : List Nat :=
  match s.gangOn g with
  | none => [g]
  | some k => k.members

/-- 15 R302, R303: a change of the effective point starts a transition once none is unsettled; of a gang group, on every
member core together, upward when some member goes up (log 96). -/
def State.opChanged (s : State) (g : Nat) : State :=
  let gs := s.opGroup g
  let below (m : Nat) : Bool := decide ((s.core m).opEff.toNat < s.effectivePoint m)
  if gs.any (fun m => (s.core m).opBusy) || gs.all (fun m => decide ((s.core m).opEff.toNat = s.effectivePoint m)) then s
  else gs.foldl (fun x m => x.setCore m ((s.core m).startTransition (s.effectivePoint m) (gs.any below))) s

/-! ## CORE. and CLU. registers -/

/-- 08 Table 8.2: the default periods. -/
def defaultPeriod (band : Nat) : Nat :=
  [2500, 1837, 1350, 992, 729, 535, 393, 289, 212, 156, 114, 84, 62, 45, 33, 0].getD band 0
def Cluster.period (c : Cluster) (band : Nat) : Nat :=
  if band = 15 then 0 else (c.retTab.get (BitVec.ofNat 16 (defaultPeriod band)) band).toNat
def Core.quota (c : Core) (k : Nat) : BitVec 16 := c.quotas.get 1024 k
def Core.nextQuota (c : Core) (k : Nat) : BitVec 16 := c.iquota.get 1024 k

/-- Four 16-bit fields of a word. -/
def pack16 (f : Nat → Nat) : Word := BitVec.ofNat 64 (f 0 + f 1 * 2 ^ 16 + f 2 * 2 ^ 32 + f 3 * 2 ^ 48)

/-- The value SRR and the core window read. -/
def State.coreReg (s : State) (g n : Nat) : Word :=
  let c := s.core g
  let h := c.cur
  let cl := s.cluster (clusterOf g)
  match n with
  | 0x100 => h.lclassA
  | 0x101 => h.lclassB
  | 0x103 => BitVec.ofNat 64 (h.retServed.toNat * 2 ^ 32 + h.retLost.toNat * 2 ^ 16 + h.retExpired.toNat)
  | 0x110 => h.tvec
  | 0x111 => zext c.mgov
  | 0x112 => c.mgstall
  | 0x113 => zext c.curlim
  | 0x114 => BitVec.ofNat 64 (c.freezeLimiter.toNat * 2 ^ 32 + c.freezeTransition.toNat)
  | 0x115 => BitVec.ofNat 64
      (bit c.opBusy * 2 ^ 15 + s.effectivePoint g * 2 ^ 12 + (s.requestedPoint g).toNat * 2 ^ 8 + c.opCap.toNat)
  | 0x116 => zext c.iperiod
  | 0x117 => pack16 (fun k => (c.nextQuota k).toNat)
  | 0x118 => BitVec.ofNat 64 (c.eccCorrected.toNat * 2 ^ 32 + c.eccRows.toNat * 2 ^ 16 + c.eccState.toNat)
  | 0x200 => pack16 (fun k => cl.period k)
  | 0x201 => pack16 (fun k => cl.period (4 + k))
  | 0x202 => pack16 (fun k => cl.period (8 + k))
  | 0x203 => pack16 (fun k => cl.period (12 + k))
  | 0x204 => BitVec.ofNat 64 (cl.events.toNat * 2 ^ 48 + cl.tcap.toNat * 2 ^ 45 + cl.resid.toNat * 2 ^ 16 + cl.hot.toNat)
  | _ => 0

/-- 08 R181: a class field written: a threshold of 0 keeps the old one, the policy bit is taken. -/
def classField (old new : BitVec 16) : BitVec 16 :=
  setFld (setFld (0#16) 0 8 (if fld new 0 8 = 0 then (fld old 0 8).toNat else (fld new 0 8).toNat)) 8 1
    (bit (new.getLsbD 8))
def classWord (old new : Word) : Word :=
  pack16 (fun k => (classField (fld old (16 * k) 16) (fld new (16 * k) 16)).toNat)

/-- 08 R179: the entries of one RETTAB register written. -/
def Cluster.setPeriods (c : Cluster) (m : Nat) (v : Word) : Cluster :=
  [0, 1, 2, 3].foldl (fun x k =>
    let p := (fld v (16 * k) 16).toNat
    let band := 4 * m + k
    if band = 15 ∨ p = 0 ∨ defaultPeriod band < p then x
    else { x with retTab := x.retTab.put band (BitVec.ofNat 16 p) }) c

def quotaSum (f : Nat → BitVec 16) : Nat := (f 0).toNat + (f 1).toNat + (f 2).toNat + (f 3).toNat

/-- The registers SRW and the core window write (00 Table 0.2, R9); CORE.GCTL has its own operation. -/
def State.setCoreReg (s : State) (g n : Nat) (v : Word) : State :=
  let c := s.core g
  match n with
  | 0x100 => s.updHold g (fun h => { h with lclassA := classWord h.lclassA v })
  | 0x101 => s.updHold g (fun h => { h with lclassB := classWord h.lclassB v })
  | 0x110 => s.updHold g (fun h => { h with tvec := v &&& 0x80FFFFFFFFFFFFE0#64 })
  | 0x111 =>
    let x := (fld v 0 9).toNat
    if x = 0 ∨ 256 < x then s else s.setCore g { c with mgov := fld v 0 9 }
  | 0x113 =>
    let x := (fld v 0 12).toNat
    if x < 64 ∨ 3072 < x then s else s.setCore g { c with curlim := fld v 0 12 }
  | 0x115 => (s.setCore g { c with opCap := fld v 0 3 }).opChanged g
  | 0x116 =>
    let x := (fld v 0 17).toNat
    if x < 256 ∨ 65536 < x ∨ x < quotaSum c.nextQuota then s else s.setCore g { c with iperiod := fld v 0 17 }
  | 0x117 =>
    let f := fun k => fld v (16 * k) 16
    if f 0 = 0 ∨ f 1 = 0 ∨ f 2 = 0 ∨ f 3 = 0 ∨ c.iperiod.toNat < quotaSum f then s
    else s.setCore g { c with iquota := [(0, f 0), (1, f 1), (2, f 2), (3, f 3)] }
  | 0x200 => s.setCluster (clusterOf g) ((s.cluster (clusterOf g)).setPeriods 0 v)
  | 0x201 => s.setCluster (clusterOf g) ((s.cluster (clusterOf g)).setPeriods 1 v)
  | 0x202 => s.setCluster (clusterOf g) ((s.cluster (clusterOf g)).setPeriods 2 v)
  | 0x203 => s.setCluster (clusterOf g) ((s.cluster (clusterOf g)).setPeriods 3 v)
  | 0x204 =>
    let cl := s.cluster (clusterOf g)
    let r := (fld v 16 16).toNat
    let t := (fld v 0 8).toNat
    s.setCluster (clusterOf g)
      { cl with resid := if 10 ≤ r ∧ r ≤ 10000 then fld v 16 16 else cl.resid
                hot := if 60 ≤ t ∧ t ≤ 108 then fld v 0 8 else cl.hot }
  | _ => s

/-! ## Reading a device register -/

def State.partCtl (s : State) (n : Nat) : Word :=
  let p := s.part n
  BitVec.ofNat 64 (bit p.en * 256 + bit p.rej * 16 + p.state.toNat)
def Part.hbmWord (p : Part) : Word := BitVec.ofNat 64 (p.hbmCount.toNat * 2 ^ 16 + p.hbmBase.toNat)
def Part.bulkWord (p : Part) : Word := BitVec.ofNat 64 (p.bulkCount.toNat * 2 ^ 16 + p.bulkBase.toNat)
def Part.budget (p : Part) (k : Nat) : BitVec 16 := p.budgets.get 0 k
def Export.word (e : Export) : Word :=
  BitVec.ofNat 64 (bit e.v * 2 ^ 63 + bit e.w * 2 ^ 62 + e.tag.toNat * 2 ^ 32 + e.count.toNat * 2 ^ 16 + e.base.toNat)
def Job.ctlWord (j : Job) : Word :=
  BitVec.ofNat 64 (bit j.fv * 2 ^ 24 + j.func.toNat * 2 ^ 16 + bit j.en * 256 + j.part.toNat)
def pairWord (hi lo : Nat) : Word := BitVec.ofNat 64 (hi * 2 ^ 32 + lo)
def Phy.laneWord (p : Phy) (n : Nat) : Word := p.lanes.get 0x2020 n

def State.rcvValue (s : State) (n : Nat) : RcvReg → Word
  | .evBase => (s.part n).evBase
  | .evCtl => BitVec.ofNat 64 (bit (s.part n).evEn * 2 ^ 16 + (s.part n).evSlots.toNat)
  | .evWp => pairWord (s.part n).evLost.toNat (s.part n).evWp.toNat
  | .evRp => zext (s.part n).evRp
  | .pBase => (s.part n).pBase
  | .pCtl => pairWord (s.part n).pWp.toNat (s.part n).pEntries.toNat
  | .mSave => (s.part n).mSave
  | .cmd => 0
  | .cmdSt => pairWord (s.part n).cmdDone.toNat (bit (s.part n).cmdBusy)
  | .ret k =>
    match (s.part n).retired.get none k with
    | some f => BitVec.ofNat 64 (2 ^ 63 + s.difIndex.toNat * 2 ^ 42 + f * 65536)
    | none => 0

def State.phyValue (s : State) (c : Nat) : PhyReg → Word
  | .test => 0
  | .tst => zext (s.phy c).done
  | .pass0 => (s.phy c).pass0
  | .pass1 => zext (s.phy c).pass1
  | .repair => zext (s.phy c).repair
  | .result => zext (s.phy c).result
  | .lane n => (s.phy c).laneWord n

/-- BOOT.STAT.trained: channels whose PHY.RESULT is 1. -/
def State.trained (s : State) : Nat := (s.phys.filter (fun e => decide (e.2.result = 1))).length

/-- What a read of a register returns; write-only registers read zero (00 Table 0.2). -/
def State.regValue (s : State) : RegId → Word
  | .partCtl n => s.partCtl n
  | .partClusters n => (s.part n).clusters
  | .partHbm n => (s.part n).hbmWord
  | .partBulk n => (s.part n).bulkWord
  | .partProgmon n => zext (s.part n).progmon
  | .partBudget n k => zext ((s.part n).budget k)
  | .jobCtl j => (s.job j).ctlWord
  | .jobRoot j => BitVec.ofNat 64 (s.job j).root
  | .jobInval _ => 0
  | .jobInvSt j => pairWord (s.job j).invReq.toNat (s.job j).invDone.toNat
  | .jobRegCmd _ => 0
  | .jobRegSt j => pairWord (s.job j).regSeq.toNat (s.job j).regResult.toNat
  | .difCfg => BitVec.ofNat 64 (bit s.difEn * 2 ^ 16 + s.difIndex.toNat)
  | .difPorts => zext s.difUp
  | .difPtag n => zext (s.ptags.get 0 n)
  | .difExp e => (s.exports.get {} e).word
  | .bootRec g i => BitVec.ofNat 64 (leNat (((padTo 64 (s.core g).bootRec).drop (8 * i)).take 8))
  | .bootDb _ => 0
  | .bootSt g => pairWord (s.core g).bootAccepted.toNat (s.core g).bootResult.toNat
  | .attReq _ => 0
  | .attSt j => pairWord (s.job j).attSeq.toNat (s.job j).attResult.toNat
  | .alarm => BitVec.ofNat 64 (bit s.sec.erased * 128 + bit s.sec.active * 64 + s.sec.sensors.toNat)
  | .bootStat => BitVec.ofNat 64 (bit s.sec.hmode * 2 ^ 25 + s.trained * 2 ^ 16 + s.sec.cause.toNat * 2 ^ 8 +
      s.sec.stage.toNat * 16 + s.sec.result.toNat)
  | .bootCtl => 0
  | .sys g n => s.coreReg g n
  | .rcv n r => s.rcvValue n r
  | .phy c r => s.phyValue c r

/-! ## Writing a device register -/

/-- 18 R327: configuration changes only while disabled; else the write is ignored and rej set. -/
def State.configure (s : State) (n : Nat) (f : Part → Part) : State :=
  let p := s.part n
  s.setPart n (if p.en then { p with rej := true } else f p)

/-- A write to the recovery block (21 Table 21.6). A RETk register that the v bit's W1C write has cleared reads 0 as a
whole, its frame too (DESIGN CHOICE, log 100). -/
def State.rcvWrite (s : State) (n : Nat) (r : RcvReg) (v : Word) : State :=
  let p := s.part n
  match r with
  | .evBase => s.setPart n { p with evBase := v &&& 0x000FFFFFFFFFFF00#64 }
  | .evCtl => s.setPart n { p with evEn := v.getLsbD 16, evSlots := fld v 0 16 }
  | .evRp => s.setPart n { p with evRp := fld v 0 32 }
  | .pBase => s.setPart n { p with pBase := v &&& 0x000FFFFFFFFFFFE0#64 }
  | .pCtl => s.setPart n { p with pEntries := fld v 0 24 }
  | .mSave => s.setPart n { p with mSave := v &&& 0x000FFFFFFFFF0000#64 }
  | .cmd =>
    if p.cmdBusy then s.setPart n { p with rej := true }
    else if fld v 8 2 = 1 then s.soon (.swapOut n)
    else if fld v 8 2 = 2 then s.soon (.killJob n (fld v 0 8).toNat)
    else s
  | .ret k => if v.getLsbD 63 then s.setPart n { p with retired := p.retired.drop k } else s
  | .evWp => s
  | .cmdSt => s

def State.phyWrite (s : State) (c : Nat) (r : PhyReg) (v : Word) : State :=
  match r with
  | .test =>
    if fld v 0 2 = 1 then s.soon (.phyReadTest c)
    else if fld v 0 2 = 2 then s.soon (.phyWriteTest c)
    else if fld v 0 2 = 3 then s.soon (.phyConfirmTest c)
    else s
  | .repair => s.soon (.phyRepairWrite c v)
  | .lane n => s.soon (.phyLaneWrite c n v)
  | .result => s.setPhy c { s.phy c with result := fld v 0 8 }
  | .tst => s
  | .pass0 => s
  | .pass1 => s

/-- CORE.GCTL through the core window (08 R184). -/
def State.gctlSoon (s : State) (g : Nat) (v : Word) : State :=
  let n := (fld v 0 9).toNat
  let s1 := if v.getLsbD 14 then s.soon (.gctlSetClass g n (fld v 11 3)) else s
  if v.getLsbD 15 then s1.soon (.gctlInvalidate g n) else s1

/-- A register write by a requester that may make it (00 Table 0.2; the rules of each field map). -/
def State.regWrite (s : State) (who : Requester) (r : RegId) (v : Word) : State :=
  match r with
  | .partCtl n =>
    let p := s.part n
    let s1 := s.setPart n { p with rej := p.rej && !(v.getLsbD 4) }
    if v.getLsbD 8 && !p.en then s1.soon (.partitionEnable n)
    else if !(v.getLsbD 8) && p.en then s1.soon (.partitionDisable n)
    else s1
  | .partClusters n => s.configure n (fun p => { p with clusters := v })
  | .partHbm n => s.configure n (fun p => { p with hbmCount := fld v 16 10, hbmBase := fld v 0 9 })
  | .partBulk n => s.configure n (fun p => { p with bulkCount := fld v 16 9, bulkBase := fld v 0 9 })
  | .partProgmon n => s.updPart n (fun p => { p with progmon := fld v 0 32 })
  | .partBudget n k => s.configure n (fun p => { p with budgets := p.budgets.put k (fld v 0 16) })
  | .jobCtl j => s.soon (.jobCtlWrite j false v)
  | .jobRoot j => s.soon (.jobCtlWrite j true v)
  | .jobInval j => s.soon (.jobInval j v)
  | .jobRegCmd j =>
    let d := (v &&& 0x000FFFFFFFFFFF80#64).toNat
    match (fld v 0 4).toNat with
    | 1 => s.soon (.registerRegion j d)
    | 2 => s.soon (.dropRegion j d)
    | 3 => s.soon (.registerWindow j d)
    | 4 => s.soon (.dropWindow j d)
    | 5 => s.soon (.registerTieredRange j d)
    | 6 => s.soon (.dropTieredRange j d)
    | _ => s.soon (.registerRegion j (2 ^ 52))
  | .difCfg =>
    let i := (fld v 0 10).toNat
    { s with difEn := v.getLsbD 16, difIndex := if s.difEn || decide (576 ≤ i) then s.difIndex else fld v 0 10 }
  | .difPtag n => { s with ptags := s.ptags.put n (fld v 0 17) }
  | .difExp e => s.soon (.difExportWrite e v)
  | .bootRec g i =>
    s.updCore g (fun c =>
      let l := padTo 64 c.bootRec
      { c with bootRec := l.take (8 * i) ++ toBytes 8 v.toNat ++ l.drop (8 * i + 8) })
  | .bootDb g =>
    match who with
    | .host f =>
      if fld v 8 2 = 0 then s.soon (.bootDoorbellDirect f g)
      else if fld v 8 2 = 1 then s.soon (.bootDoorbellEnqueue f g (fld v 0 2))
      else s.updCore g (fun c => { c with bootResult := 4 })
    | _ => s
  | .attReq j => s.soon (.attestationRequest j v)
  | .bootCtl => if v.getLsbD 0 then s.soon .warmReset else s
  | .sys g n => if n = 0x102 then s.gctlSoon g v else s.setCoreReg g n v
  | .rcv n x => s.rcvWrite n x v
  | .phy c x => s.phyWrite c x v
  | .jobInvSt _ => s
  | .jobRegSt _ => s
  | .difPorts => s
  | .bootSt _ => s
  | .attSt _ => s
  | .alarm => s
  | .bootStat => s

end Sys2Proof.Machine
end

