-- ==== Sys2Proof/Machine/Pallets.lean ====
section
/-! DEFINITION. Tiered ranges and their pallets (15_scheduling_power_tiers.md R307 to R310), and the translations that
an invalidation or a switch drops (18 R333). -/
namespace Sys2Proof.Machine

/-! ## Pallets -/

def Tiered.pallet (t : Tiered) (n : Nat) : Pallet := t.pallets.get {} n
/-- Physical base of the live copy: the source while a move runs (15 R308, R310). -/
def Tiered.live (t : Tiered) (n : Nat) : Nat :=
  match (t.pallet n).st with
  | .low => t.low + 65536 * n
  | .movingUp => t.low + 65536 * n
  | .high => t.pool + 65536 * (t.pallet n).frame
  | .movingDown => t.pool + 65536 * (t.pallet n).frame
/-- The physical address an access reaches when it is performed. -/
def State.livePa (s : State) (o : Owner) (va pa : Nat) : Nat :=
  if o.boot then pa
  else
    match (s.job o.job).palletAt va with
    | some (t, n) => t.live n + va % 65536
    | none => pa
def Pallet.moving (p : Pallet) : Bool := decide (p.st = .movingUp) || decide (p.st = .movingDown)
/-- 15 R309: a write after the second restart waits until the move completes. -/
def Pallet.holds (p : Pallet) : Bool := p.moving && decide (2 ≤ p.restarts)
def State.palletHolds (s : State) (o : Owner) (va : Nat) : Bool :=
  !o.boot && ((s.job o.job).palletAt va).any (fun x => (x.1.pallet x.2).holds)
def State.setTiered (s : State) (j : Nat) (t : Tiered) : State :=
  s.updJob j (fun x => { x with tiered := x.tiered.map (fun y => if y.base = t.base then t else y) })
def State.setPallet (s : State) (j : Nat) (t : Tiered) (n : Nat) (p : Pallet) : State :=
  s.setTiered j { t with pallets := t.pallets.put n p }
/-- A pallet named by a virtual address of a job, changed. -/
def State.updPallet (s : State) (j va : Nat) (f : Tiered → Nat → State → State) : State :=
  match (s.job j).palletAt va with
  | none => s
  | some (t, n) => f t n s
/-- 15 R309: a write restarts the move. -/
def State.restartMove (s : State) (o : Owner) (va : Nat) : State :=
  if o.boot then s
  else s.updPallet o.job va (fun t n s =>
    if (t.pallet n).moving then s.setPallet o.job t n { t.pallet n with restarts := (t.pallet n).restarts + 1 } else s)
/-- 15 R309: a write waits at the pallet's home, behind those that came before it. -/
def State.waitAt (s : State) (o : Owner) (va : Nat) (a : Arrival) : State :=
  if o.boot then s
  else s.updPallet o.job va (fun t n s =>
    if (t.pallet n).waiting.contains a then s
    else s.setPallet o.job t n { t.pallet n with waiting := (t.pallet n).waiting ++ [a] })

/-! ## Dropping translations (18 R333) -/

def inRange (r : Option (Nat × Nat)) (a n : Nat) : Bool :=
  match r with
  | none => true
  | some (b, m) => decide (a < b + m) && decide (b < a + n)

/-- The contexts of the running and the swapped-out holder of every core. -/
def State.everyCtx (s : State) : List Ctx :=
  s.cores.flatMap (fun e => (e.2.cur.ctxs ++ e.2.out.ctxs).map (fun c => c.2))

/-- The entries of a context's queues in a range, which have translated and are not yet performed. -/
def Ctx.accessesIn (c : Ctx) (r : Option (Nat × Nat)) : List (Nat × Nat × Bool) :=
  (c.loadQ.filter (fun l => decide (l.kind ≠ .mark) && inRange r l.va.toNat l.n)).map (fun l => (c.task, l.ord, true)) ++
    (c.storeQ.filter (fun t => decide (t.kind ≠ .mark) && inRange r t.va.toNat t.n)).map (fun t => (c.task, t.ord, false))
/-- The accesses of a job in a range that are in flight. -/
def State.accessesIn (s : State) (j : Nat) (r : Option (Nat × Nat)) : List (Nat × Nat × Bool) :=
  (s.everyCtx.filter (fun c => c.resident && !c.owner.boot && decide (c.owner.job = j))).flatMap (fun c => c.accessesIn r)
/-- An access that was in flight is still to be performed. -/
def State.inFlight (s : State) (a : Nat × Nat × Bool) : Bool :=
  s.everyCtx.any (fun c => c.resident && decide (c.task = a.1) &&
    (if a.2.2 then c.loadQ.any (fun l => decide (l.ord = a.2.1)) else c.storeQ.any (fun t => decide (t.ord = a.2.1))))

/-- A holder's copy commands no longer keep the translations of a job in a range (R332). -/
def Hold.dropPages (h : Hold) (j : Nat) (r : Option (Nat × Nat)) : Hold :=
  { h with pages := h.pages.filter (fun p => !(decide (p.leaf.job = j) && inRange r p.leaf.va (2 ^ p.leaf.bits))) }
/-- Every translation of a job that overlaps a range leaves the cluster TLBs, the walk cache and the copy commands. -/
def State.dropLeaves (s : State) (j : Nat) (r : Option (Nat × Nat)) : State :=
  { s with
    clusters := s.clusters.map (fun e =>
      (e.1, { e.2 with tlb := e.2.tlb.filter (fun l => !(decide (l.job = j) && inRange r l.va (2 ^ l.bits))) }))
    walks := s.walks.map (fun e =>
      (e.1, e.2.filter (fun x => !(decide (x.job = j) && inRange r x.va (2 ^ levelBits x.level)))))
    cores := s.cores.map (fun e => (e.1, { e.2 with cur := e.2.cur.dropPages j r, out := e.2.out.dropPages j r })) }

/-! ## The mapping of a page (15 R310, 18 R334) -/

/-- The physical address of the level 3 entry of a page (18 R331), when the walk ends in it. -/
def State.entryFrom (s : State) (p va : Nat) : List Nat → Nat → Option Nat
  | [], _ => none
  | level :: more, table =>
    let a := table + 8 * levelIndex va level
    if s.inHbm p table = false ∨ s.retired a = true ∨ s.poisonedRange a 8 = true then none
    else
      let e := s.readMem a 8
      if level = 3 then (if e % 2 = 1 ∧ Nat.testBit e 1 = true then some a else none)
      else if e % 2 = 0 ∨ Nat.testBit e 1 = true then none
      else s.entryFrom p va more (tableAt (level + 1) (bits e 51 8 * 256))
def State.leafEntry (s : State) (j va : Nat) : Option Nat :=
  s.entryFrom (s.job j).part.toNat va [0, 1, 2, 3] (s.job j).root

/-- The translation service writes a page's leaf: the frame changes, and the other bits stay. -/
def State.mapPage (s : State) (j va pa : Nat) : State :=
  match s.leafEntry j va with
  | none => s
  | some a =>
    let e := s.readMem a 8
    (s.writeMem a 8 (bits e 63 52 * 2 ^ 52 + pa / 256 % 2 ^ 44 * 256 + e % 256)).dropLeaves j (some (va, 65536))

/-! ## Moves (15 R308, R310) -/

/-- The bytes of a pallet copied from one physical place to another. -/
def Memory.copy (m : List Host.Cell) (src dst n : Nat) : List Host.Cell :=
  (List.filter (fun c => decide (src ≤ c.1) && decide (c.1 < src + n)) m).foldl
    (fun x c => Memory.write x (c.1 - src + dst) c.2) (Memory.clear m dst (dst + n))

def State.copyPallet (s : State) (src dst : Nat) : State :=
  ({ s with mem := Memory.copy s.mem (s.key src) (s.key dst) 65536 } : State).cleanPoison dst 65536

/-- The engine decrypts a low copy on the way up, and encrypts it on the way down (19 R345). -/
def State.openLow (s : State) (j va low : Nat) : State :=
  (lineOffsets low 65536).foldl (fun x i => x.reseal (some (s.tierSeal j (va / 65536 * 65536 + i))) (low + i)) s
def State.closeLow (s : State) (j va low : Nat) : State := s.sealRun low 1024 (some (s.tierSeal j (va / 65536 * 65536)))

/-- The switch at the end of a move, in one step (15 R310). -/
def State.switchPallet (s : State) (j va : Nat) (t : Tiered) (n : Nat) (src dst : Nat) (p : Pallet) (clock : Nat) : State :=
  ((s.copyPallet src dst).setTiered j { t with clock := clock, pallets := t.pallets.put n p }).mapPage j
    (va / 65536 * 65536) dst

/-- A move waits for lines that the host may hold: of the frame, or of the page's leaf (19 R341). -/
def State.moveSnoops (s : State) (j va high : Nat) : Bool :=
  s.snoopingRange high 65536 || (s.leafEntry j va).any (fun a => s.snoopingRange a 8)

/-- 15 R308: uncorrectable data of a low copy keeps its poison; in which of its blocks it lies is open (log 95). -/
def State.poisonLow (s : State) (low : Nat) : State :=
  let d := s.freshFree
  ((List.range 1024).filter (fun k => Config.badBlock d.1 k || decide (Config.firstBad d.1 % 1024 = k))).foldl
    (fun x k => x.setPoison (low + 64 * k)) d.2

/-- A move ends: it is abandoned when its source meets uncorrectable data, as bad says of the low copy (15 R308), or when a
snoop that it needs fails (log 94); it waits while the host port is down; else the mapping switches. A deferred request is
dropped by its policy when it is reconsidered (log 34). -/
def State.endMove (s : State) (job va : Nat) (bad : Bool) (t : Tiered) (n : Nat) : State :=
  let p := t.pallet n
  let low := t.low + 65536 * n
  let high := t.pool + 65536 * p.frame
  let idle : Pallet := { p with restarts := 0, deferred := false, waiting := [] }
  match p.st with
  | .low => s
  | .high => s
  | .movingUp =>
    let back (x : State) : State := x.setPallet job t n { idle with st := .low, frame := 0 }
    if s.moveSnoops job va high then (if s.snoopLost then (back s).settled else s)
    else if s.hostUp = false then s
    else if bad then (back s).poisonLow low
    else if s.poisonedRange low 65536 then back s
    else (s.openLow job va low).switchPallet job va t n low high { idle with st := .high, promoted := t.clock } (t.clock + 1)
  | .movingDown =>
    if s.poisonedRange high 65536 || s.retired high then s.setPallet job t n { idle with st := .high }
    else if s.moveSnoops job va high then (if s.snoopLost then (s.setPallet job t n { idle with st := .high }).settled else s)
    else if s.hostUp = false then s
    else (s.switchPallet job va t n high low { idle with st := .low, frame := 0 } t.clock).closeLow job va low

end Sys2Proof.Machine
end

