-- ==== Sys2Proof/Machine/Queues.lean ====
section
/-! DEFINITION. Performing the entries of a context's load and store queues (09 R195 to R201), atomics (12 R239 to
R243), reduction windows (12 R244 to R247, 22 R389) and writes to migrating pallets (15 R309). -/
namespace Sys2Proof.Machine

/-- 15 R295: something changed on a core; its waiting contexts may try again. -/
def State.wake (s : State) (g : Nat) : State :=
  s.updHold g (fun h => { h with ctxs := h.ctxs.map (fun e => (e.1, { e.2 with waiting := false })) })

/-- Every core's waiting contexts may try again. -/
def State.wakeAll (s : State) (gs : List Nat) : State := gs.foldl State.wake s

/-! ## Reads and writes at their home -/

/-- The fault that a location gives to a read: a retired frame, or poison, that of an abandoned move's source in the host's
memory among it (08 R403, 15 R308, 21 R366). -/
def State.homeFault (s : State) (pa n : Nat) : Option Nat :=
  if (decide (s.place pa = .hbm) && (s.retired pa || s.poisonedRange pa n)) ||
      (decide (s.place pa = .host) && s.poisonedRange pa n) then some Cause.poisoned else none

/-- What n bytes read as for an access by its virtual and physical address. -/
def State.readHome (s : State) (o : Owner) (va pa n : Nat) : Nat :=
  match s.place pa with
  | .registers =>
    (match regAt (regOffset pa) with
     | some r => (s.regValue r).toNat
     | none => 0)
  | _ => leNat (s.readFor o va pa n)

/-- A write of bytes at its home; a register write is the next step of the agenda. -/
def State.writeHome (s : State) (o : Owner) (va pa : Nat) (l : List Byte) : State :=
  match s.place pa with
  | .registers => s.soon (.registerWrite o.requester (regOffset pa) (BitVec.ofNat 64 (leNat l)))
  | _ => s.storeFor o va pa l

/-- The environment shows what bytes of the host's memory or of another device hold. -/
def State.outsideHolds (s : State) (a : Nat) (l : List Byte) : State :=
  let out (x : Nat) : Bool := decide (s.place x = .remote) || (decide (s.place x = .host) && (s.sealAt x).isNone)
  if !l.isEmpty && out a && out (a + l.length - 1) && decide (deviceOf a = deviceOf (a + l.length - 1)) then s.storeBytes a l
  else s

/-! ## Atomics -/

/-- Table 12.1: the new value of an n-byte location; op is the major opcode. -/
def atomicNew (op n old x y : Nat) : Nat :=
  let m := 2 ^ (8 * n)
  let s (v : Nat) : Int := (BitVec.ofNat (8 * n) v).toInt
  match op with
  | 0x08 => (old + x) % m
  | 0x09 => old &&& x
  | 0x0A => old ||| x
  | 0x0B => old ^^^ x
  | 0x0C => if s old ≤ s x then old else x
  | 0x0D => if s x ≤ s old then old else x
  | 0x0E => if old ≤ x then old else x
  | 0x0F => if x ≤ old then old else x
  | 0x10 => fAdd fp32 old x
  | 0x11 => minNum fp32 old x
  | 0x12 => maxNum fp32 old x
  | 0x13 => x
  | 0x14 => if old = x then y else old
  | _ => old

/-- R241: the invalid indication of the FP32 atomics. -/
def atomicInvalid (op old x : Nat) : Bool :=
  let sig := fp32.signalling old || fp32.signalling x
  if op = 0x10 then
    sig || ((fp32.read old).isInf && (fp32.read x).isInf && ((fp32.read old).sign != (fp32.read x).sign))
  else if op = 0x11 ∨ op = 0x12 then sig
  else false

/-- What an atomic returns in sd. -/
def atomicReturn (op old x : Nat) : Word := BitVec.ofNat 64 (old + 2 ^ 32 * bit (atomicInvalid op old x))

/-- An ACAS whose comparison fails writes nothing (R240). -/
def atomicWrites (op old x : Nat) : Bool := decide (op ≠ 0x14) || decide (old = x)

/-- One indivisible read and write at the home (R240, R242). -/
def State.atomicHome (s : State) (op pa n x y : Nat) : Nat × State :=
  let old := s.readMem pa n
  (old, if atomicWrites op old x then s.storeBytes pa (toBytes n (atomicNew op n old x y)) else s)

/-! ## Reduction windows -/

/-- Table 12.3: the contributing atomic's opcode of a window operation. -/
def windowAtomic (op : Nat) : Nat :=
  [0x08, 0x10, 0x0C, 0x0D, 0x0E, 0x0F, 0x11, 0x12, 0x09, 0x0A, 0x0B].getD op 0

def Window.width (w : Window) : Nat := 2 ^ w.size
/-- The element of a window that holds a physical address. -/
def Window.elemAt (w : Window) (pa : Nat) : Option Nat :=
  if w.base ≤ pa ∧ pa < w.base + w.elements * w.width then some ((pa - w.base) / w.width) else none
def Part.windowAt (p : Part) (pa : Nat) : Option (Window × Nat) :=
  p.windows.findSome? (fun w => (w.elemAt pa).map (fun e => (w, e)))
def Window.key (e d : Nat) : Nat := 576 * e + d

def insertKey (l : List (Nat × Word)) (d : Nat) (x : Word) : List (Nat × Word) := Tab.put l d x

/-- A contribution joins its round (R245); one that it opens does not wait for the participants lost, which have no path
(22 R389). -/
def joinRound (lost : List Nat) (e k d : Nat) (x : Word) : List Round → List Round
  | [] => [⟨e, k, [(d, x)], lost⟩]
  | r :: t =>
    if r.elem = e ∧ r.k = k then { r with got := insertKey r.got d x } :: t else r :: joinRound lost e k d x t

/-- R246: the tree over the contributions in ascending device index. -/
def Window.combine (w : Window) (xs : List Nat) : Nat :=
  treeRed (fun a b => atomicNew (windowAtomic w.op) w.width a b 0) 10 xs
/-- R246: a NaN result is canonical. -/
def Window.result (w : Window) (xs : List Nat) : Nat :=
  let r := w.combine xs
  if (w.op = 1 ∨ w.op = 6 ∨ w.op = 7) ∧ (fp32.read r).isNan then fp32.canon else r
/-- R246: the round's invalid indication. -/
def Window.invalid (w : Window) (xs : List Nat) : Bool :=
  let sig := xs.any fp32.signalling
  if w.op = 1 then
    sig || (xs.any (fun x => fp32.read x == .inf false) && xs.any (fun x => fp32.read x == .inf true))
  else if w.op = 6 ∨ w.op = 7 then sig
  else false

/-- The loss record of an incomplete round (Table 12.5). -/
def lossRecord (e k : Nat) (missing : List Nat) : List Byte :=
  toBytes 4 e ++ toBytes 4 k ++ toBytes 72 (missing.foldl (fun a d => a + 2 ^ d) 0) ++ List.replicate 48 0

def replaceWindow (w : Window) : List Window → List Window := fun l => l.map (fun v => if v.wid = w.wid then w else v)
def State.setWindow (s : State) (p : Nat) (w : Window) : State :=
  s.updPart p (fun x => { x with windows := replaceWindow w x.windows })

/-- R247: closes a round: the result, then the status word, and the loss record of an incomplete round. -/
def State.closeRound (s : State) (p : Nat) (w : Window) (r : Round) : State :=
  let xs := r.got.map (fun g => g.2.toNat % 2 ^ (8 * w.width))
  let missing := w.members.filter (fun d => !(r.got.any (fun g => decide (g.1 = d))))
  let inc := !missing.isEmpty
  let s1 := if xs.isEmpty then s else s.storeBytes (w.base + r.elem * w.width) (toBytes w.width (w.result xs))
  let st := (r.k + 1) % 2 ^ 32 * 2 ^ 32 + bit inc * 4 + bit (w.invalid xs) * 2
  let s2 := s1.storeBytes (w.status + 8 * r.elem) (toBytes 8 st)
  let s3 := if inc then s2.storeBytes w.loss (lossRecord r.elem r.k missing) else s2
  s3.setWindow p { w with closed := w.closed.put r.elem (r.k + 1)
                          rounds := w.rounds.filter (fun q => !(decide (q.elem = r.elem) && decide (q.k = r.k))) }

/-- Round k of an element is complete: every participant has contributed, but for those it has lost (22 R389). -/
def Window.complete (w : Window) (r : Round) : Bool :=
  w.members.all (fun d => r.lost.contains d || r.got.any (fun g => decide (g.1 = d)))

/-- The lines that closing a round writes may be held by the host (19 R341). -/
def State.windowSnoops (s : State) (w : Window) (e : Nat) : Bool :=
  s.snoopingRange (w.base + e * w.width) w.width || s.snoopingRange (w.status + 8 * e) 8 || s.snoopingRange w.loss 128

/-- What closing a round writes is lost where its snoop fails (19 R341; log 94). -/
def State.closeOne (s : State) (p : Nat) (w : Window) (r : Round) : State :=
  let x := s.closeRound p w r
  if s.windowSnoops w r.elem then ({ x with mem := s.mem, poison := s.poison } : State).settled else x

/-- Closes the element's rounds that are complete, in ascending k. -/
def State.closeReady (p wid e : Nat) : Nat → State → State
  | 0, s => s
  | n + 1, s =>
    match (s.part p).windows.find? (fun w => decide (w.wid = wid)) with
    | none => s
    | some w =>
      match w.rounds.find? (fun r => decide (r.elem = e) && decide (r.k = w.closed.get 0 e) && w.complete r &&
          (!(s.windowSnoops w e) || s.snoopLost)) with
      | none => s
      | some r => State.closeReady p wid e n (s.closeOne p w r)

/-- A contribution counted for device d: its round number, and its joining when the home is here (R245). One for a round
that is closed is discarded (22 R389). -/
def State.contribute (s : State) (p : Nat) (w : Window) (e d : Nat) (x : Word) : Nat × Bool × State :=
  let k := w.sent.get 0 (Window.key e d)
  let w1 := { w with sent := w.sent.put (Window.key e d) (k + 1) }
  if deviceOf w.base = s.difIndex.toNat then
    if k < w.closed.get 0 e then (k, false, s.setWindow p w1)
    else
      let w2 := { w1 with rounds := joinRound s.cutOff e k d x w1.rounds }
      (k, true, State.closeReady p w.wid e (w2.rounds.length + 1) (s.setWindow p w2))
  else (k, true, s.setWindow p w1)

/-! ## Queue heads -/

/-- Twin marks that stand at both heads leave together (09 R198, R199). -/
def Ctx.settle : Nat → Ctx → Ctx
  | 0, c => c
  | n + 1, c =>
    match c.loadQ, c.storeQ with
    | l :: lt, t :: tt =>
      if l.kind = .mark ∧ t.kind = .mark ∧ l.ord = t.ord then
        let c1 : Ctx := { c with loadQ := lt, storeQ := tt }
        Ctx.settle n (if l.wide then c1.fenced else c1)
      else c
    | _, _ => c

/-- A store performed at context scope that reads of its bytes wait for (11 R228). -/
def Ctx.owes (c : Ctx) (va pa n : Nat) : Bool :=
  c.storeQ.any (fun t => decide (t.ord < c.seen) && (rangesMeet t.pa t.n pa n || rangesMeet t.va.toNat t.n va n))

/-- The load at the head may be performed: an atomic only with its twin at the head of the store queue. -/
def Ctx.loadReady (c : Ctx) (l : LoadEntry) : Bool :=
  match l.kind with
  | .mark => false
  | .atomic _ _ _ => (c.storeQ.head?.any (fun t => decide (t.kind = .mark) && decide (t.ord = l.ord)))
  | .contribution _ _ => (c.storeQ.head?.any (fun t => decide (t.kind = .mark) && decide (t.ord = l.ord)))
  | _ => !(c.owes l.va.toNat l.pa l.n)

/-- The store at the head may be performed: no earlier acquire is pending, and a release waits for every earlier
load (09 R199). -/
def Ctx.storeReady (c : Ctx) (t : StoreEntry) : Bool :=
  decide (t.kind ≠ .mark) &&
    c.loadQ.all (fun l => decide (t.ord < l.ord) || (!l.acquire && !t.release))

/-- Pops the load head, with its twin when it is an atomic. -/
def Ctx.popLoad (c : Ctx) : Ctx :=
  match c.loadQ with
  | [] => c
  | l :: lt =>
    let c1 := { c with loadQ := lt }
    let c2 :=
      match l.kind with
      | .atomic _ _ _ => { c1 with storeQ := c1.storeQ.tail }
      | .contribution _ _ => { c1 with storeQ := c1.storeQ.tail }
      | _ => c1
    Ctx.settle 33 c2
def Ctx.popStore (c : Ctx) : Ctx := Ctx.settle 33 { c with storeQ := c.storeQ.tail }

/-- 09 R197: a fault on a response marks the destination. -/
def Ctx.addMark (c : Ctx) (vec : Bool) (reg cause : Nat) (frame : Option Nat) : Ctx :=
  { c with marks := c.marks.filter (fun m => !(m.vec == vec && decide (m.reg = reg))) ++ [⟨vec, reg, cause, frame⟩] }
/-- 09 R197: a refused store leaves its cause held; while one is held, later ones are not kept. -/
def Ctx.holdStore (c : Ctx) (cause : Nat) (frame : Option Nat) : Ctx :=
  match c.heldStore with
  | none => { c with heldStore := some { cause := cause, frame := frame } }
  | some _ => c

/-- A response with a fault: a mark; for an atomic or version access to s0, a held cause (12 R239, R249). -/
def Ctx.failLoad (c : Ctx) (l : LoadEntry) (cause : Nat) (frame : Option Nat) : Ctx :=
  let c1 := c.popLoad
  if l.dst = 0 then
    match l.kind with
    | .plain => c1
    | .fill _ => c1
    | _ => c1.holdStore cause frame
  else c1.addMark false l.dst cause frame

/-- The value a load of n bytes writes. -/
def loadValue (l : LoadEntry) (v : Nat) : Word :=
  if l.sext then (BitVec.ofNat (8 * l.n) v).signExtend 64 else BitVec.ofNat 64 v

/-- The cause an environment's answer brings (09 R197). -/
def Resp.cause : Resp → Option Nat
  | .data _ _ => none
  | .older => none
  | .linkLost => some Cause.linkLost
  | .hostAbort => some Cause.hostAbort
  | .refused => some Cause.permission
  | .poisoned => some Cause.poisoned

/-- What the environment's answer says outside memory holds. -/
def State.shown (s : State) : Resp → State
  | .data a l => s.outsideHolds a l
  | .older => s
  | .linkLost => s
  | .hostAbort => s
  | .refused => s
  | .poisoned => s

/-- The bytes of memory that a load reads before its response; a version access reads none. -/
def LoadEntry.line (l : LoadEntry) : Nat :=
  match l.kind with
  | .query _ => 1
  | _ => l.n

/-- What a plain load's n bytes read as: as memory stands, or, where the answer is an older value of local memory that no
edge hides, as they stood before the latest write of the context's own copy commands there (11 R227, R229, R231). -/
def State.loadBytes (s : State) (c : Ctx) (l : LoadEntry) (env : Resp) (pa : Nat) : Nat :=
  if decide (env = .older) && !l.acquire && decide (s.place pa = .hbm) then
    leNat ((c.past (s.key pa) l.n).getD (s.readBytes pa l.n))
  else s.readHome c.owner l.va.toNat pa l.n
/-- What a load that has its data leaves to be read of older bytes, k being the memory key it read. -/
def Ctx.reads (c : Ctx) (l : LoadEntry) (env : Resp) (k : Nat) : Ctx :=
  let c1 := if env = .older ∧ l.acquire = false ∧ (c.past k l.n).isSome = true then c else c.forget k l.n
  if l.wide then c1.fenced else c1

/-- The load at a context's head reaches its home and its response arrives: an access that cannot be sent or is answered
with a fault fails first, then a location that gives no value. A contribution whose window has been dropped returns 0
(DESIGN CHOICE, log 105). -/
def State.performLoad (s : State) (w : Who) (env : Resp) : State :=
  let c := s.ctx w
  match c.loadQ with
  | [] => s
  | l :: _ =>
    let s := s.shown env
    let pa := s.livePa c.owner l.va.toNat l.pa
    let part := c.owner.part
    let sent := decide (s.place pa = .remote) && s.wasSent ⟨w, c.task, l.ord, true⟩
    if !(c.loadReady l) || s.snoopingRange pa l.line || (!sent && s.blockBusy pa) || (sent && !(s.route part)) then s
    else
      let failIn (x : State) (e : Nat) : State := (x.updCtx w (fun x => x.failLoad l e (s.frameOf e pa))).wake w.core
      let fail (e : Nat) : State := failIn s e
      let give (s' : State) (v : Word) : State := (s'.updCtx w (fun x => (x.reads l env (s.key pa)).popLoad.setS l.dst v)).wake w.core
      let answer : Option Nat := (Resp.cause env).filter (s.answers pa)
      let value : Nat := s.readHome c.owner l.va.toNat pa l.n
      if !sent && s.unsent part pa then fail Cause.linkLost
      else
        match l.kind with
        | .mark => s
        | .plain =>
          (match answer.or (s.homeFault pa l.n) with
           | some e => fail e
           | none => give s (loadValue l (s.loadBytes c l env pa)))
        | .fill fwd =>
          (match answer.or (s.homeFault pa l.n) with
           | some e => fail e
           | none => give s (fwd.getD (loadValue l value)))
        | .atomic op x y =>
          (match answer with
           | some e => fail e
           | none =>
             if s.palletHolds c.owner l.va.toNat then s.waitAt c.owner l.va.toNat (.atomic w)
             else
               match s.homeFault pa l.n with
               | some e => fail e
               | none =>
                 let old := value
                 let s1 :=
                   if atomicWrites op old x.toNat then
                     s.storeFor c.owner l.va.toNat pa (toBytes l.n (atomicNew op l.n old x.toNat y.toNat))
                   else s
                 give (s1.restartMove c.owner l.va.toNat) (atomicReturn op old x.toNat))
        | .contribution _ x =>
          if s.retired pa then fail Cause.poisoned
          else
          (match (s.part part).windowAt pa with
           | none => give s 0
           | some (win, e) =>
             let r := s.contribute part win e s.difIndex.toNat x
             match answer with
             | some c => failIn r.2.2 c
             | none =>
               if r.2.1 then give r.2.2 (BitVec.ofNat 64 (r.1 % 2 ^ 32)) else failIn r.2.2 Cause.linkLost)
        | .version u own seen bad =>
          match answer with
          | some e => fail e
          | none =>
          let v : Option Version :=
            if own then (s.regionAt c.owner l.va.toNat).bind (fun r => r.own? (r.blockOf l.va.toNat) u c.task) else none
          let d : BitVec 512 := (v.map (fun x => x.data)).getD seen
          if (v.map (fun x => x.poison)).getD bad || s.retired pa || (decide (u = 0) && s.poisonedRange pa l.n) then
            fail Cause.poisoned
          else give s (BitVec.ofNat 64 (blockBytes d (l.va.toNat % 64) l.n))
        | .query v =>
          (match answer.or (if s.retired pa then some Cause.poisoned else none) with
           | some e => fail e
           | none => give s v)

/-- The store at a context's head is refused (09 R197). -/
def State.refuseStore (s : State) (w : Who) (cause pa : Nat) : State :=
  (s.updCtx w (fun x => x.popStore.holdStore cause (s.frameOf cause pa))).wake w.core

/-- 18 R333: a JOB.INVAL write waits while 64 requests of the job are pending. -/
def State.invalBusy (s : State) : RegId → Bool
  | .jobInval j => decide (64 ≤ (s.invalidations.filter (fun i => decide (i.job = j))).length)
  | _ => false
def State.invalFull (s : State) (pa : Nat) : Bool :=
  decide (s.place pa = .registers) && (regAt (regOffset pa)).any s.invalBusy

/-- The store at a context's head is performed at its home. -/
def State.performStore (s : State) (w : Who) : State :=
  let c := s.ctx w
  match c.storeQ with
  | [] => s
  | t :: _ =>
    let pa := s.livePa c.owner t.va.toNat t.pa
    let sent := decide (s.place pa = .remote) && s.wasSent ⟨w, c.task, t.ord, false⟩
    if !(c.storeReady t) || s.snoopingRange pa t.n || s.invalFull pa || (!sent && s.blockBusy pa) ||
        (sent && !(s.route c.owner.part)) then s
    else if s.palletHolds c.owner t.va.toNat then s.waitAt c.owner t.va.toNat (.store w)
    else
      match (if sent then none else s.writeFault c.owner.part pa) with
      | some e => s.refuseStore w e pa
      | none =>
        match t.kind with
        | .mark => s
        | .version v =>
          let s1 :=
            match s.regionAt c.owner t.va.toNat with
            | none => s
            | some r => s.setRegion c.owner.job
                (r.write (r.blockOf t.va.toNat) v c.task (t.va.toNat % 64) t.n t.data.toNat)
          (s1.updCtx w Ctx.popStore).wake w.core
        | .plain =>
          (((s.writeHome c.owner t.va.toNat pa (toBytes t.n t.data.toNat)).restartMove c.owner t.va.toNat).updCtx w
            (fun x => (x.forget (s.key pa) t.n).popStore)).wake w.core

/-- Where the store at a context's head goes. -/
def State.headPa (s : State) (w : Who) (t : StoreEntry) : Nat := s.livePa (s.ctx w).owner t.va.toNat t.pa
/-- A store that leaves the device is refused by what it reaches. -/
def State.refuseHead (s : State) (w : Who) (cause : Nat) : State :=
  match (s.ctx w).storeQ with
  | [] => s
  | t :: _ =>
    let pa := s.headPa w t
    if (s.ctx w).storeReady t && decide (t.kind ≠ .mark) && (decide (s.place pa = .remote) || decide (s.place pa = .host)) then
      s.refuseStore w cause pa
    else s

/-! ## Writes that waited for a move (15 R309) -/

/-- The writes that waited for a pallet's move are performed in arrival order; f is what a copy command does. -/
def State.performArrivals (f : Nat → Nat → State → State) (l : List Arrival) (s : State) : State :=
  l.foldl (fun x a =>
    match a with
    | .store w => x.performStore w
    | .atomic w => x.performLoad w (.data 0 [])
    | .copy g u => f g u x) s

/-- A move ends, and what waited for it follows. -/
def State.settleMove (s : State) (j va : Nat) (bad : Bool) (f : Nat → Nat → State → State) : State :=
  s.updPallet j va (fun t n x =>
    let y := x.endMove j va bad t n
    let still : Bool := ((y.job j).palletAt va).any (fun z => (z.1.pallet z.2).moving)
    if still then y else State.performArrivals f (t.pallet n).waiting y)

/-! ## Remote row accesses (09 R204) -/

/-- The oldest remote access of a context is performed at its home core. -/
def State.performRemote (s : State) (w : Who) : State :=
  let c := s.ctx w
  match c.remoteQ with
  | [] => s
  | r :: t =>
    let cell := s.row r.home r.row
    let s1 := s.updCtx w (fun x => { x with remoteQ := t })
    let s2 :=
      if r.load then
        if !cell.valid then s1.updCtx w (fun x => if r.v < x.allot then x.addMark true r.v Cause.expired none else x)
        else if cell.poison then
          s1.updCtx w (fun x => if r.v < x.allot then x.addMark true r.v Cause.poisoned none else x)
        else s1.updCtx w (fun x => if r.v < x.allot then x.setV r.v cell.data allOnes else x)
      else s1.putRow r.home r.row (cell.store r.data r.bytes)
    s2.wake w.core

end Sys2Proof.Machine
end

