-- ==== Sys2Proof/Machine/Rings.lean ====
section
/-! DEFINITION. Rings (09 R205 to R207, 10 R222), stream generators (09 R208, R209; 14 R282), bonds (08 R190 to
R194; 06 R153) and the checks of a row access (09 R203 to R205, R211; 08 Table 8.7). -/
namespace Sys2Proof.Machine

/-! ## CORE.GCTL (08 R184) -/

/-- Every row of a physical group becomes invalid, and its age, mask and request are cleared. -/
def Core.invalidateGroup (c : Core) (p : Nat) : Core :=
  { c with bulk := c.bulk.filter (fun e => !decide ((e.1 - 2048) / 64 = p))
           groups := c.groups.upd {} p (fun g => { g with age := 0, mask := 0, req := false }) }
def Core.setClass (c : Core) (p : Nat) (k : BitVec 3) : Core :=
  { c with groups := c.groups.upd {} p (fun g => { g with cls := k, reclassed := true }) }

/-- The physical group that the running holder calls group n (18 R325). -/
def State.physGroup (s : State) (g n : Nat) : Nat := (Hold.bulk s (s.hold g)).1 + n
def State.groupOwned (s : State) (g n : Nat) : Bool := decide (n < (Hold.bulk s (s.hold g)).2)

/-- The rows that a group's number covers. -/
def groupRows (n : Nat) : RowSet := ⟨[(2048 + 64 * n, 2048 + 64 * n + 63)]⟩
/-- An active command declares a row of the group. -/
def Hold.groupDeclared (h : Hold) (n : Nat) : Bool :=
  h.sets.any (fun t => t.2.1.meets (groupRows n) || t.2.2.meets (groupRows n))
def Hold.groupUsers (h : Hold) (n : Nat) : List Nat :=
  (h.copies.filter (fun c => c.desc.rd.meets (groupRows n) || c.desc.wr.meets (groupRows n))).map (fun c => c.uid)

/-- The effect of a CORE.GCTL value on a group of the holder: invalidation first. -/
def State.gctl (s : State) (g n : Nat) (inval setcls : Bool) (k : BitVec 3) : State :=
  let p := s.physGroup g n
  let s1 := if inval then s.updCore g (fun c => c.invalidateGroup p) else s
  if setcls then s1.updCore g (fun c => c.setClass p k) else s1

/-- An active command of a holder declares a row of a physical group. -/
def State.groupUsed (s : State) (h : Hold) (p : Nat) : Bool :=
  let base := (Hold.bulk s h).1
  decide (base ≤ p) && h.groupDeclared (p - base)
/-- Writes of the core window whose rows no active command declares any more act: the invalidation, then the class. -/
def State.gctlSettle (s : State) (g : Nat) : State :=
  let ready (e : Nat × Option (BitVec 3)) : Bool := !(s.groupUsed (s.core g).cur e.1) && !(s.groupUsed (s.core g).out e.1)
  let go := (s.core g).gctlWait.filter ready
  if go.isEmpty then s
  else s.updCore g (fun c =>
    { go.foldl (fun x e => let y := x.invalidateGroup e.1
                           match e.2 with
                           | some k => y.setClass e.1 k
                           | none => y) c with
      gctlWait := c.gctlWait.filter (fun e => !(ready e)) })
/-- A class write of the core window follows an invalidation of its group that waits. -/
def Core.classBehind (c : Core) (p : Nat) (k : BitVec 3) : Core :=
  { c with gctlWait := c.gctlWait.map (fun e => if e.1 = p then (p, some k) else e) }

/-! ## Rings -/

/-- An active command captured a ring. -/
def MCmd.hasRing (c : MCmd) (r : Nat) : Bool := c.rings.any (fun e => decide (e.2 = some r))
def CCmd.hasRing (c : CCmd) (r : Nat) : Bool := decide (c.ring = some r)
def Hold.ringCaptured (h : Hold) (r : Nat) : Bool :=
  h.matrixCmds.any (fun c => c.hasRing r) || h.copies.any (fun c => c.hasRing r)
/-- 09 R206, 10 R220: an active command of the context captured handle q. -/
def Hold.handleCaptured (h : Hold) (slot q : Nat) : Bool :=
  h.matrixCmds.any (fun c => decide (c.slot = slot) && decide (c.rings.get none q ≠ none)) ||
    h.copies.any (fun c => decide (c.slot = slot) && decide (c.ring ≠ none) && decide (c.qh = q))

/-- Some handle of a resident context maps the ring. -/
def Hold.ringMapped (h : Hold) (r : Nat) : Bool :=
  h.ctxs.any (fun e => e.2.resident && e.2.rings.any (fun m => decide (m.2 = some r)))

/-- 09 R206: a ring that nothing maps or holds becomes unconfigured. -/
def Hold.releaseRing (h : Hold) (r : Nat) : Hold :=
  if h.ringMapped r || h.ringCaptured r then h else h.setRing r {}
def State.releaseRing (s : State) (g r : Nat) : State := s.updHold g (fun h => h.releaseRing r)
/-- Every ring of a core is looked at again, when a command ends. -/
def State.releaseRings (s : State) (g : Nat) : State :=
  s.updHold g (fun h => (h.rings.map (fun e => e.1)).foldl Hold.releaseRing h)

/-- A ring descriptor (09 Table 9.4). -/
structure RingDesc where
  en : Bool
  ring : Nat
  slots : Nat
  rows : Nat
  first : Nat
  ok : Bool
  deriving DecidableEq, Repr

def ringDesc (v : Word) : RingDesc where
  en := v.getLsbD 63
  ring := (fld v 56 6).toNat
  rows := (fld v 40 8).toNat + 1
  slots := (fld v 32 8).toNat + 1
  first := (fld v 0 16).toNat
  ok := decide (v &&& 0x40FF0000FFFF0000#64 = 0)

/-- 09 R206: handle q takes a descriptor with en = 1; none is cause "ring". -/
def State.mapRing (s : State) (w : Who) (q : Nat) (d : RingDesc) : Option State :=
  let h := s.hold w.core
  let r := h.ring d.ring
  let n := d.slots * d.rows
  if !d.ok || !d.en || ((s.ctx w).ringOf q).isSome then none
  else if r.conf then
    if r.first = d.first ∧ r.slots = d.slots ∧ r.rows = d.rows then
      some (s.updCtx w (fun c => (({ c with rings := c.rings.put q (some d.ring) } : Ctx)).clearRing q true true))
    else none
  else if s.rowOk w.core (d.first + n - 1) = false ∨ h.meetsBond d.first n ∨ h.meetsRing d.first n ∨
      h.meetsCarve d.first n then none
  else
    let s1 := s.updHold w.core (fun x => x.setRing d.ring
      { conf := true, first := d.first, slots := d.slots, rows := d.rows, rp := 0, wp := 0, filled := 0,
        free := d.slots, marks := [] })
    some (s1.updCtx w (fun c => (({ c with rings := c.rings.put q (some d.ring) } : Ctx)).clearRing q true true))

/-- 09 R206: handle q is unmapped. -/
def State.unmapRing (s : State) (w : Who) (q : Nat) : State :=
  match (s.ctx w).ringOf q with
  | none => s
  | some r =>
    (s.updCtx w (fun c => (({ c with rings := c.rings.put q none } : Ctx)).clearRing q true true)).releaseRing w.core r

/-- 09 R207: one indivisible advance of the read or the write pointer. -/
def Ring.advanceRead (r : Ring) (n : Nat) : Ring :=
  { r with rp := (r.rp + n) % r.slots, filled := r.filled - n, free := r.free + n }
def Ring.advanceWrite (r : Ring) (n : Nat) : Ring :=
  { r with wp := (r.wp + n) % r.slots, free := r.free - n, filled := r.filled + n }
/-- 10 R222: the lowest marked slot that an advance of n read slots passes. -/
def Ring.passed (r : Ring) (n : Nat) : Option RingMark :=
  (r.marks.filter (fun m => (List.range n).any (fun i => decide (m.slot = (r.rp + i) % r.slots)))).foldl
    (fun a m =>
      match a with
      | none => some m
      | some x => if m.slot < x.slot then some m else some x) none
def Ring.clearMark (r : Ring) (slot : Nat) : Ring :=
  { r with marks := r.marks.filter (fun m => !decide (m.slot = slot)) }
/-- First row of the slot n slots past the read or the write pointer. -/
def Ring.readRow (r : Ring) (n : Nat) : Nat := r.first + (r.rp + n) % r.slots * r.rows
def Ring.writeRow (r : Ring) (n : Nat) : Nat := r.first + (r.wp + n) % r.slots * r.rows

/-- 06 R152, 10 R221: an element of bytes goes to the first row of the write slot, zero-filled, and the write
pointer advances by one; a mark, a cause and the frame behind it, stands on the slot of a failure with cause 11 or
12. -/
def State.writeElement (s : State) (g q : Nat) (el : List Byte) (mark : Option (Nat × Option Nat)) : State :=
  let r := (s.hold g).ring q
  let s1 := s.putRow g (r.writeRow 0) { data := bytesRow (padTo 128 el) }
  let r1 := r.clearMark r.wp
  let r2 :=
    match mark with
    | some m => ({ r1 with marks := r1.marks ++ [({ slot := r.wp, cause := m.1, frame := m.2 } : RingMark)] } : Ring)
    | none => r1
  (s1.updHold g (fun h => h.setRing q (r2.advanceWrite 1))).wake g

/-- 09 R207, R285; 22 R382: the copy commands whose elements alone can end a wait for n filled slots of ring r: none while a
matrix command holds the ring. -/
def Hold.elementsNeeded (h : Hold) (r n : Nat) : List Nat :=
  if h.matrixCmds.any (fun c => c.hasRing r) then []
  else ((h.copies.filter (fun c => decide (c.ring = some r))).take (n - (h.ring r).filled)).map (fun c => c.uid)

/-! ## Stream generators -/

def fieldAt (l : List Byte) (i n : Nat) : Nat := leNat ((l.drop i).take n)
def signedAt (l : List Byte) (i : Nat) : Int := (BitVec.ofNat 32 (fieldAt l i 4)).toInt

/-- 09 Table 9.5: a pattern record, or none for a record that traps. -/
def parseGen (l : List Byte) : Option Gen :=
  let ind := Nat.testBit (fieldAt l 4 1) 0
  let counts := [0, 1, 2, 3].map (fun d => fieldAt l (16 + 8 * d) 4)
  let lf := fieldAt l 6 2
  let ll := fieldAt l 8 4
  if 4 ≤ fieldAt l 4 1 ∨ fieldAt l 5 1 ≠ 0 ∨ fieldAt l 12 4 ≠ 0 ∨ fieldAt l 48 80 ≠ 0 ∨ counts.contains 0 = true ∨
      34815 < fieldAt l 0 4 ∨ (ind = true ∧ (ll = 0 ∨ 2047 < lf + (ll - 1) / 64)) then none
  else some
    { set := true, base := fieldAt l 0 4, indirect := ind, wrap := Nat.testBit (fieldAt l 4 1) 1, listFirst := lf,
      listLen := ll, counts := counts, strides := [0, 1, 2, 3].map (fun d => signedAt l (20 + 8 * d)), p := 0 }

def Gen.total (g : Gen) : Nat := g.counts.foldl (fun a c => a * c) 1

/-- 09 R209: the offset of position p. -/
def genOffset : List Nat → List Int → Nat → Int
  | c :: cs, t :: ts, p => ((p % c : Nat) : Int) * t + genOffset cs ts (p / c)
  | _, _, _ => 0

/-- p + 1, wrapping where the record says so. -/
def Gen.advance (g : Gen) : Gen :=
  { g with p := if g.p + 1 = g.total ∧ g.wrap = true then 0 else g.p + 1 }

/-- 14 R282: alignment to the next dimension-1 step. -/
def Gen.align (g : Gen) : Gen :=
  if g.set then
    let c0 := g.counts.headD 1
    let p := (g.p + c0 - 1) / c0 * c0
    { g with p := if p = g.total ∧ g.wrap = true then 0 else p }
  else g

def Ctx.gen (c : Ctx) (n : Nat) : Gen := c.gens.get {} n

/-- A record row or a list row that hardware reads for a context: its bytes, or the trap. It is named by its number, so a
bond over it guards it (08 R191), and a poisoned row is no plain value (21 R356); log 24. -/
def State.tableRow (s : State) (w : Who) (r : Nat) : Except (Nat × Nat) (List Byte) :=
  if s.rowRight w r false = false then .error (Cause.bond, r)
  else if (s.row w.core r).poison then .error (Cause.poisoned, r)
  else .ok (rowBytes (s.row w.core r).data)

/-- 09 R209: the row of the next access through generator k, as an integer; or the trap. -/
def State.genRow (s : State) (w : Who) (k : Nat) (x : Gen) : Except (Nat × Nat) Int :=
  if !x.set || decide (x.p = x.total) then .error (Cause.generator, k)
  else
    let o := genOffset x.counts x.strides x.p
    if !x.indirect then .ok (x.base + o)
    else if o < 0 ∨ x.listLen ≤ o.toNat then .error (Cause.generator, k)
    else
      match s.tableRow w (x.listFirst + o.toNat / 64) with
      | .error e => .error e
      | .ok l => .ok (x.base + fieldAt l (2 * (o.toNat % 64)) 2)

/-! ## Bonds -/

def Handle.names (e : Handle) (home id : Nat) : Bool :=
  decide (e.st ≠ .empty) && decide (e.home = home) && decide (e.bond = id)
/-- 06 R153, 10 R220: an active command of a context captured a bond. -/
def MCmd.hasBond (c : MCmd) (home id : Nat) : Bool := c.bonds.any (fun e => e.2.names home id)
def CCmd.hasBond (c : CCmd) (home id : Nat) : Bool := c.srcBond.names home id || c.dstBond.names home id
def State.bondCaptured (s : State) (w : Who) (home id : Nat) : Bool :=
  (s.hold w.core).matrixCmds.any (fun c => decide (c.slot = w.slot) && c.hasBond home id) ||
    (s.hold w.core).copies.any (fun c => decide (c.slot = w.slot) && c.hasBond home id)

/-- The copy commands of a context that captured a bond (22 R382). -/
def State.bondUsers (s : State) (w : Who) (home id : Nat) : List Nat :=
  ((s.hold w.core).copies.filter (fun c => decide (c.slot = w.slot) && c.hasBond home id)).map (fun c => c.uid)

def State.bondOf (s : State) (e : Handle) : Option Bond := (s.hold e.home).bond? e.bond
def State.setHandle (s : State) (w : Who) (k : Nat) (e : Handle) : State :=
  s.updCtx w (fun c => { c with bonds := c.bonds.put k e })
def State.dropBond (s : State) (home id : Nat) : State :=
  s.updHold home (fun h => { h with bonds := h.bonds.filter (fun b => !decide (b.id = id)) })
def State.changeBond (s : State) (home id : Nat) (f : Bond → Bond) : State :=
  s.updHold home (fun h => { h with bonds := h.bonds.map (fun b => if b.id = id then f b else b) })

/-- 08 R193: a borrower releases; a bond whose lender was lost dissolves after the last release (21 R366). -/
def State.releaseLend (s : State) (w : Who) (e : Handle) : State :=
  let s1 := s.changeBond e.home e.bond (fun b => { b with borrowers := b.borrowers.filter (fun x => !decide (x = w)) })
  let s2 :=
    match s1.bondOf e with
    | some b => if b.dying && b.borrowers.isEmpty then s1.dropBond e.home e.bond else s1
    | none => s1
  s2.wake e.home

/-- 08 R192, R193: an arrival into the empty handle of a resident target. -/
def State.canArrive (s : State) (t : Transfer) : Bool :=
  decide ((s.hold t.target.core).part = t.part) && (s.ctx t.target).resident &&
    decide (((s.ctx t.target).handle t.k).st = .empty)
def State.arrive (s : State) (t : Transfer) : State :=
  let s1 := { s with transfers := s.transfers.erase t }
  (s1.setHandle t.target t.k { st := if t.lend then .borrowed else .held, home := t.home, bond := t.bond }).wake
    t.target.core

/-- The earlier accesses of a context to rows of a bond at its home core (09 R210). -/
def State.remotePending (s : State) (w : Who) (e : Handle) : Bool :=
  (s.ctx w).remoteQ.any (fun r =>
    decide (r.home = e.home) &&
      (match s.bondOf e with
       | some b => decide (b.first ≤ r.row) && decide (r.row < b.first + b.count)
       | none => false))

/-! ## Row accesses -/

/-- What a row access comes to before it acts. -/
inductive RowRes where
  /-- a row of the context's own core -/
  | here (row : Nat)
  /-- a bonded row of another core (09 R204) -/
  | there (home row : Nat)
  | trap (cause : Nat) (addr : Word)
  /-- the copy commands whose end it waits for -/
  | block (on : List Nat)
  deriving Repr

/-- 08 Table 8.7, 09 R211: phase sets, then the row's state for a read. -/
def State.rowMeets (s : State) (g r : Nat) (write : Bool) : Option Nat :=
  if (s.hold g).phaseClash r write then some Cause.phaseSet
  else if write then none
  else if !(s.row g r).valid then some Cause.expired
  else if (s.row g r).poison then some Cause.poisoned
  else none

/-- 09 R203, R205: an access by row number. -/
def State.rowByNumber (s : State) (w : Who) (r : Int) (write : Bool) : RowRes :=
  let a := BitVec.ofInt 64 r
  if r < 0 ∨ s.rowOk w.core r.toNat = false then .trap Cause.rowRange a
  else if s.rowRight w r.toNat write = false then .trap Cause.bond a
  else
    match s.rowMeets w.core r.toNat write with
    | some c => .trap c a
    | none =>
      match (s.hold w.core).bondAt r.toNat with
      | none => .here r.toNat
      | some b =>
        let heldHere := (s.ctx w).bonds.any (fun e => e.2.names w.core b.id && decide (e.2.st = .held))
        if (write || heldHere) && s.bondCaptured w w.core b.id then
          .block (s.bondUsers w w.core b.id) else .here r.toNat

/-- 09 Table 9.3 mode 1. -/
def State.rowByRing (s : State) (w : Who) (q imm : Nat) (write : Bool) : RowRes :=
  match (s.ctx w).ringOf q with
  | none => .trap Cause.ring (BitVec.ofNat 64 q)
  | some k =>
    let r := (s.hold w.core).ring k
    if r.rows ≤ imm then .trap Cause.ring (BitVec.ofNat 64 q)
    else if (if write then r.free else r.filled) = 0 then
      .block (if write then [] else (s.hold w.core).elementsNeeded k 1)
    else
      let n := (if write then r.writeRow 0 else r.readRow 0) + imm
      let c := s.row w.core n
      if write then .here n
      else if !c.valid then .trap Cause.expired (BitVec.ofNat 64 n)
      else if c.poison then .trap Cause.poisoned (BitVec.ofNat 64 n)
      else .here n

/-- 09 Table 9.3 mode 3. -/
def State.rowByBond (s : State) (w : Who) (k : Nat) (i : Word) (write : Bool) : RowRes :=
  let e := (s.ctx w).handle k
  if e.st = .empty then .block []
  else
    match s.bondOf e with
    | none => .trap Cause.bond i
    | some b =>
      let n := b.first + i.toNat
      let a := BitVec.ofNat 64 n
      if e.st = .given ∨ (write = true ∧ e.st ≠ .held) ∨ b.count ≤ i.toNat then .trap Cause.bond a
      else
        let meet := if e.home = w.core then s.rowMeets w.core n write else none
        match meet with
        | some c => .trap c a
        | none =>
          if (write || decide (e.st = .held)) && s.bondCaptured w e.home b.id then
            .block (s.bondUsers w e.home b.id)
          else if e.home = w.core then .here n
          else .there e.home n

end Sys2Proof.Machine
end

