-- ==== Sys2Proof/Machine/Tasks.lean ====
section
/-! DEFINITION. Tasks: launch records (13 R259, R260), the CTX.TPC form (21 Table 21.3), freeing a context (13
R271, R273; 21 R366) and squashing a speculative successor (13 R271). -/
namespace Sys2Proof.Machine

/-! ## Launch records -/

def recWord (l : List Byte) (i : Nat) : Word := BitVec.ofNat 64 (fieldAt l i 8)
/-- The placement word (Table 13.3). -/
def placeOf (l : List Byte) : Word := recWord l 56
def placeCluster (l : List Byte) : Nat := (fld (placeOf l) 58 6).toNat
def placeSlot (l : List Byte) : Nat := (fld (placeOf l) 56 2).toNat
def placeMatrix (l : List Byte) : Bool := (placeOf l).getLsbD 55
def placeLog (l : List Byte) : BitVec 2 := fld (placeOf l) 53 2
def placeGang (l : List Byte) : Bool := (placeOf l).getLsbD 52
def placeSkew (l : List Byte) : Nat := (fld (placeOf l) 50 2).toNat + 1
def placeAlloc (l : List Byte) : Nat := (fld (placeOf l) 46 4).toNat
def placeSpillFirst (l : List Byte) : Nat := (fld (placeOf l) 34 12).toNat
def placeSpillRows (l : List Byte) : Nat := (fld (placeOf l) 22 12).toNat
/-- Named cores, ascending. -/
def placeCores (l : List Byte) : List Nat :=
  ((List.range 16).filter (fun k => (placeOf l).getLsbD k)).map (fun k => 16 * placeCluster l + k)

/-- 13 R260: an invalid record, for a launcher whose partition holds the clusters of the map. -/
def recordInvalid (l : List Byte) (held : Nat → Bool) : Bool :=
  decide (fieldAt l 73 7 ≠ 0) || decide (fieldAt l 90 38 ≠ 0) || decide (fld (placeOf l) 16 6 ≠ 0) ||
    decide (2 ^ 56 ≤ (recWord l 0).toNat) || (placeCores l).isEmpty ||
    (placeGang l && decide ((placeCores l).length < 2)) || decide (8 < placeAlloc l) ||
    decide (2048 < placeSpillFirst l + placeSpillRows l) || decide (placeLog l = 3) ||
    decide (16 < fieldAt l 72 1) || decide (512 < fieldAt l 88 2) || !(held (placeCluster l))

/-- 06 R130: a context launched with the matrix bit holds its core's matrix unit. -/
def Ctx.holdsMatrix (c : Ctx) : Bool := c.resident && placeMatrix c.record
def Hold.matrixHeld (h : Hold) : Bool := h.ctxs.any (fun e => e.2.holdsMatrix)
/-- 01 R18. -/
def Hold.allotted (h : Hold) : Nat := h.ctxs.foldl (fun a e => if e.2.resident then a + e.2.allot else a) 0

/-! ## CTX.TPC -/

/-- The form of Table 21.3; h counts only with address 0. -/
def tpcWord (addr : Word) (half index : Nat) : Word :=
  BitVec.ofNat 64 ((if addr = 0 then half * 2 ^ 61 else 0) + addr.toNat / 32 % 2 ^ 51 * 2 ^ 10 + index)
def Ctx.tpcHere (c : Ctx) : Word := tpcWord c.execHalf.addr c.half c.index

/-! ## Freeing a context -/

/-- Copy and matrix commands of a slot leave without completion elements. -/
def Hold.dropCommands (h : Hold) (slot : Nat) : Hold :=
  { h with
    copies := h.copies.filter (fun c => !decide (c.slot = slot))
    matrix := { h.matrix with
      run := h.matrix.run.filter (fun r => !decide (r.cmd.slot = slot))
      queue := h.matrix.queue.filter (fun e => !decide (e.slot = slot)) } }

/-- One bond handle of a context that leaves: borrowed is released, held dissolved, a lent bond dissolves with its
last borrower (13 R271, R273; 21 R366). -/
def State.leaveBond (w : Who) (s : State) (k : Nat) : State :=
  let e := (s.ctx w).handle k
  let s1 :=
    match e.st with
    | .borrowed => s.releaseLend w e
    | .held => s.dropBond e.home e.bond
    | .lent =>
      (match s.bondOf e with
       | some b =>
         if b.borrowers.isEmpty then s.dropBond e.home e.bond
         else s.changeBond e.home e.bond (fun x => { x with dying := true })
       | none => s)
    | .empty => s
    | .given => s
  s1.setHandle w k {}

/-- The context's commands, rings and bonds are freed. -/
def State.stripContext (s : State) (w : Who) : State :=
  let s1 := s.updHold w.core (fun h => h.dropCommands w.slot)
  let s2 := (List.range 16).foldl (fun x q => x.unmapRing w q) s1
  ((List.range 16).foldl (State.leaveBond w) s2).gctlSettle w.core

/-- The context's commands, rings, bonds, allotment and matrix unit are freed, and its slot becomes free. -/
def State.freeContext (s : State) (w : Who) : State :=
  ((((s.stripContext w).updCtx w (fun _ => {})).releaseRings w.core).wake w.core).opChanged w.core

/-- 15 R297: its slot becomes free, and the core may select. -/
def State.evict (s : State) (w : Who) : State := (s.freeContext w).soon (.launchBind w.core)

/-- The contexts of a partition's cores that run a task. -/
def State.taskContexts (s : State) (t : Nat) (gs : List Nat) : List Who :=
  (gs.flatMap contextsOf).filter (fun w => (s.ctx w).resident && decide ((s.ctx w).task = t))

/-- Every access that the context issued has been performed or has failed. -/
def Ctx.settledAll (c : Ctx) : Bool := c.loadQ.isEmpty && c.storeQ.isEmpty && c.remoteQ.isEmpty

/-- A squashed context's slot becomes free once every access that it issued has been performed: what it wrote stays, its
log records among them (13 R271, 22 R383; log 57). -/
def State.freeSquashed (s : State) (w : Who) : State :=
  let c := s.ctx w
  if c.squashed && c.settledAll then (s.dropTaskVersions c.owner.job c.task).evict w else s

/-- 13 R271: a context of a squashed task stops, and its commands, rings, bonds, allotment and matrix unit are freed. -/
def State.squashContext (s : State) (w : Who) : State :=
  (((s.stripContext w).updCtx w (fun c =>
    { c with stopped := true, squashed := true, allot := 0, record := [], spillRows := 0, heldPubs := [] })).releaseRings
      w.core).freeSquashed w

/-- 13 R271: one task is squashed on the cores given; its versions and held publications leave. -/
def State.squashTask (gs : List Nat) (j : Nat) (s : State) (t : Nat) : State :=
  let s1 := gs.foldl (fun x g => x.updHold g (fun h => { h with queue := h.queue.filter (fun l => !decide (l.task = t)) })) s
  let s2 := (s1.taskContexts t gs).foldl State.squashContext s1
  { s2.dropTaskVersions j t with exitedPubs := s2.exitedPubs.filter (fun e => !decide (e.1 = t)) }

/-- The cores on which a task's relatives may stand: those of its partition. -/
def State.coresFor (s : State) (o : Owner) : List Nat := if o.boot then List.range 1024 else s.partCores o.part

/-- 13 R271: both successors of every undecided pair of a context. -/
def State.squashPairs (s : State) (w : Who) : State :=
  let c := s.ctx w
  let gs := s.coresFor c.owner
  let s1 := (c.pairs.flatMap (fun p => p.a ++ p.b)).foldl (State.squashTask gs c.owner.job) s
  (if c.pairs.isEmpty then s1 else s1.wakeAll gs).updCtx w (fun x => { x with pairs := [] })

/-! ## Leaving (13 R273) -/

/-- 11 R267 note: every earlier entry of both queues has been performed. -/
def Ctx.drained (c : Ctx) : Bool := c.loadQ.isEmpty && c.storeQ.isEmpty

/-- 13 R273: commands the context pushed that have not ended. -/
def State.commandsLeft (s : State) (w : Who) : Bool :=
  (s.hold w.core).copies.any (fun c => decide (c.slot = w.slot)) ||
    (s.hold w.core).matrixCmds.any (fun c => decide (c.slot = w.slot)) ||
    (s.hold w.core).matrix.queue.any (fun c => decide (c.slot = w.slot))

/-- 13 R273: what the context began has not ended: a command, an entry of a queue, a remote access. -/
def State.unfinished (s : State) (w : Who) : Bool :=
  s.commandsLeft w || !(s.ctx w).drained || !(s.ctx w).remoteQ.isEmpty

/-- 13 R273, 08 R193: a lend that a borrower other than the contexts given has not released. -/
def State.lendsBeyond (s : State) (w : Who) (ws : List Who) : Bool :=
  (s.ctx w).bonds.any (fun e => decide (e.2.st = .lent) &&
    (match s.bondOf e.2 with | some b => b.borrowers.any (fun x => !(ws.contains x)) | none => false))

/-- 08 R194: at EXIT every borrowed handle is released. -/
def State.releaseBorrowed (s : State) (w : Who) : State :=
  (List.range 16).foldl (fun x k =>
    let h := (x.ctx w).handle k
    if h.st = .borrowed then (x.releaseLend w h).setHandle w k {} else x) s

/-- 13 R273: a context that leaves squashes its undecided pairs and then releases what it borrowed, before it awaits what
it has lent. -/
def State.letGo (s : State) (w : Who) : State := (s.squashPairs w).releaseBorrowed w

/-- 13 R271, 12 R255: the held publications of a successor that retires stay with the device until DECIDE. -/
def State.keepHeld (s : State) (w : Who) : State :=
  let c := s.ctx w
  { s with exitedPubs := s.exitedPubs ++ c.heldPubs.map (fun p => (c.task, c.owner.job, p.1, p.2)) }

/-- 13 R273, 15 R297: the context retires, and the core may select. -/
def State.retire (s : State) (w : Who) : State := (s.keepHeld w).evict w

/-- Nothing of a context whose EXIT has issued is left to end. -/
def State.mayLeave (s : State) (w : Who) : Bool := (s.ctx w).exiting && !s.unfinished w && !s.lendsBeyond w []

/-- The EXIT of a team has issued: once what its bundle began has ended, pairs are squashed, borrowed bonds go back, and
the contexts leave together (13 R273). -/
def State.leave (s : State) (ws : List Who) : State :=
  let s1 := ws.foldl (fun x w => if x.unfinished w then x else x.letGo w) s
  if ws.all s1.mayLeave then ws.foldl State.retire s1 else s1

/-! ## Binding -/

/-- 13 Table 13.4: the state of a context right after its launch-queue entry binds. -/
def Ctx.launched (l : Launch) : Ctx :=
  { ({} : Ctx) with
    resident := true
    loading := true
    owner := l.owner
    task := l.task
    spec := l.spec
    gang := l.gang
    record := l.image
    member := l.member
    members := l.members
    sregs := [(1, recWord l.image 8), (2, BitVec.ofNat 64 l.member), (3, BitVec.ofNat 64 l.members)]
    allot := 8 * placeAlloc l.image
    halves := [(0, { addr := segmentBase (recWord l.image 0) })]
    priv := l.owner.boot
    key := l.key
    stream := l.stream
    spillFirst := placeSpillFirst l.image
    spillRows := placeSpillRows l.image
    ovfp := recWord l.image 40 &&& ~~~7#64
    logMode := l.logMode
    logHeader := recWord l.image 48 &&& ~~~15#64
    logPtr := recWord l.image 48 &&& 0x00FFFFFFFFFFFFF0#64 }

/-- 24 R397, Table 24.3 stage 4: the training task of channel c, on core c, context 0, with arg = c. -/
def bootRecord (c : Nat) : List Byte := padTo 128 (toBytes 8 (0x20007000000) ++ toBytes 8 c)
def bootLaunch (c t : Nat) : Launch :=
  { image := bootRecord c, prio := 0, cls := 0, key := 0, stream := 0, logMode := 0, member := 0, members := 1,
    owner := { boot := true }, task := t }
def State.launchBoot (s : State) (c : Nat) : State :=
  ({ s with nextTask := s.nextTask + 1 }).updCtx ⟨c, 0⟩ (fun _ => Ctx.launched (bootLaunch c s.nextTask))

end Sys2Proof.Machine
end

