-- ==== Sys2Proof/Machine/Loss.lean ====
section
/-! DEFINITION. Losing a job (21 R365, R366), its record and progress entries (21 R367 to R369). -/
namespace Sys2Proof.Machine

/-! ## A partition wherever its state stands -/

/-- A core's running and swapped-out holder change places. -/
def State.swapHolds (s : State) (g : Nat) : State := s.updCore g (fun c => { c with cur := c.out, out := c.cur })
/-- The cores whose swapped-out holder is partition p. -/
def State.outCores (s : State) (p : Nat) : List Nat :=
  (s.partCores p).filter (fun g => decide ((s.core g).cur.part ≠ some p) && decide ((s.core g).out.part = some p))
/-- Acts on a partition's state as if it were the running holder of each of its cores. -/
def State.onPart (s : State) (p : Nat) (f : State → State) : State :=
  let gs := s.outCores p
  gs.foldl State.swapHolds (f (gs.foldl State.swapHolds s))

/-- The contexts that run tasks of a job. -/
def State.jobContexts (s : State) (p j : Nat) : List Who :=
  ((s.partCores p).flatMap contextsOf).filter (fun w =>
    (s.ctx w).resident && !(s.ctx w).owner.boot && decide ((s.ctx w).owner.job = j))

/-! ## Progress entries (Table 21.7b) -/

def copyEntry (g : Nat) (c : CCmd) : List Byte :=
  toBytes 1 1 ++ toBytes 1 (if c.ended.isSome then 2 else if c.tuple = 0 ∧ c.moved = 0 then 0 else 1) ++ toBytes 2 g ++
    toBytes 1 c.slot ++ toBytes 1 (match c.ended with | some e => e.2 | none => 0) ++ toBytes 2 0 ++
    toBytes 4 c.seq.toNat ++ toBytes 4 c.iters ++ toBytes 8 c.bytes ++ toBytes 4 c.desc.tag.toNat ++ toBytes 4 0

def matrixEntry (g : Nat) (c : MCmd) (state cause lastDrain next drains : Nat) : List Byte :=
  toBytes 1 2 ++ toBytes 1 state ++ toBytes 2 g ++ toBytes 1 c.slot ++ toBytes 1 cause ++ toBytes 2 0 ++
    toBytes 4 c.seq.toNat ++ toBytes 4 c.routine ++ toBytes 2 lastDrain ++ toBytes 2 next ++ toBytes 4 drains ++
    toBytes 8 0

def runEntry (g : Nat) (r : MRun) : List Byte :=
  match r.ended with
  | some (_, cause, _) => matrixEntry g r.cmd 2 cause r.lastDrain r.pc r.drains
  | none => matrixEntry g r.cmd 1 0 r.lastDrain r.pc r.drains

def publicationEntry (w : Who) (base v : Nat) (held : Bool) : List Byte :=
  toBytes 1 3 ++ toBytes 1 0 ++ toBytes 2 w.core ++ toBytes 1 w.slot ++ toBytes 11 0 ++ toBytes 8 base ++
    toBytes 8 (v + 2 ^ 48 * bit held)

/-- The regions in which a context published or held a version since launch. -/
def Ctx.publicationEntries (c : Ctx) (w : Who) : List (List Byte) :=
  let bases := c.published.map (fun e => e.1)
  let heldOnly := ((c.heldPubs.map (fun e => e.1)).filter (fun b => !(bases.contains b))).eraseDups
  (bases ++ heldOnly).map (fun b =>
    publicationEntry w b (c.published.get 0 b) (c.heldPubs.any (fun e => decide (e.1 = b))))

/-- The entries of one context: copies, matrix commands, publications. -/
def State.contextEntries (s : State) (w : Who) : List (List Byte) :=
  let h := s.hold w.core
  let mine (c : MCmd) : Bool := decide (c.slot = w.slot)
  (h.copies.filter (fun c => decide (c.slot = w.slot))).map (copyEntry w.core) ++
    (match h.matrix.run with
     | some r => if mine r.cmd then [runEntry w.core r] else []
     | none => []) ++
    ((h.matrix.queue.filterMap MEntry.cmd?).filter mine).map (fun c => matrixEntry w.core c 0 0 0xFFFF 0 0) ++
    (s.ctx w).publicationEntries w

/-! ## The record (Table 21.7a) -/

/-- What the record says of the place where the loss arose. -/
structure Origin where
  who : Option Who := none
  slot : Nat := 0
  gang : Bool := false
  /-- it arose from a trap that has a CTX.TADDR by Table 21.4 -/
  located : Bool := false
  tpc : Word := 0
  taddr : Word := 0
  step : Nat := 0
  log : Word := 0
  frame : Option Nat := none
  deriving DecidableEq, Repr

def lossHead (p j cause sub : Nat) (o : Origin) (unretired : Bool) : List Byte :=
  toBytes 1 1 ++ toBytes 1 cause ++ toBytes 1 sub ++
    toBytes 1 (bit o.located + 4 * bit unretired) ++ toBytes 1 p ++ toBytes 1 j ++
    toBytes 2 (match o.who with | some w => w.core | none => 0xFFFF) ++
    toBytes 1 ((match o.who with | some w => w.slot | none => 0) + o.slot * 16 + 128 * bit o.gang) ++ toBytes 3 0 ++
    toBytes 4 0 ++ toBytes 8 o.tpc.toNat ++ toBytes 8 o.taddr.toNat ++ toBytes 8 o.step ++ toBytes 8 o.log.toNat

/-- The physical addresses of frames of a device (01 R24). -/
def framesOf (dev : Nat) (l : List Nat) : List Byte :=
  padTo 32 ((l.take 4).flatMap (fun f => toBytes 8 (dev * 2 ^ 42 + f * 65536)))

/-! ## The loss -/

/-- 21 R366 step 6: a frame enters the first free retire entry; false when none is free. -/
def Part.retire (p : Part) (f : Nat) : Part × Bool :=
  if p.retired.any (fun e => decide (e.2 = some f)) then (p, true)
  else
    match (List.range 16).find? (fun k => decide (p.retired.get none k = none)) with
    | some k => ({ p with retired := p.retired.put k (some f) }, true)
    | none => (p, false)

def Part.retireAll (p : Part) : List Nat → Part × Bool
  | [] => (p, true)
  | f :: t =>
    let a := p.retire f
    let b := a.1.retireAll t
    (b.1, a.2 && b.2)

/-- The frames behind outstanding marks and held causes of cause 12 of one context. -/
def Ctx.outstandingFrames (c : Ctx) : List Nat :=
  (c.marks.filter (fun m => decide (m.cause = Cause.poisoned))).filterMap (fun m => m.frame) ++
    ([c.heldStore, c.ringless].filterMap (fun h => h.bind (fun x => if x.cause = Cause.poisoned then x.frame else none)))

/-- A word of a record replaced. -/
def putAt (l : List Byte) (i : Nat) (x : List Byte) : List Byte := l.take i ++ x ++ l.drop (i + x.length)

/-- 21 R366, steps 3 to 6, once every access that the job's contexts had issued has been performed or has failed. -/
def State.finishLoss (p : Nat) (l : Loss) (s : State) : State :=
  let j := l.job
  let ws := s.jobContexts p j
  if ws.any (fun w => !(s.ctx w).settledAll) then s
  else
    let entries := ws.flatMap s.contextEntries
    let s1 := s.updJob j (fun x => { x with regions := x.regions.map (fun r =>
      { r with versions := r.versions.filter (fun v => v.published), exhausted := false }) })
    let s2 := ws.foldl State.evict { s1 with exitedPubs := s1.exitedPubs.filter (fun e => !decide (e.2.1 = j)) }
    let r := (s2.part p).retireAll l.frames
    let done : Loss := { l with draining := false, progress := entries,
                                record := putAt l.record 3 (toBytes 1 (fieldAt l.record 3 1 + 4 * bit (!r.2))) }
    s2.setPart p { r.1 with losses := r.1.losses.map (fun x => if x.job = j then done else x) }
/-- Every loss of a partition whose contexts have drained goes on. -/
def State.finishLosses (s : State) (p : Nat) : State :=
  ((s.part p).losses.filter (fun l => l.draining)).foldl (fun x l => x.onPart p (State.finishLoss p l)) s

/-- 21 R366 step 1, on a partition whose state is in place: the job's contexts freeze and its launch-queue entries are
removed; the loss goes on at once when nothing is left to drain, and waits for its report. -/
def State.loseRunning (p j cause sub : Nat) (o : Origin) (s : State) : State :=
  let ws := s.jobContexts p j
  let gs := s.partCores p
  let frames := (o.frame.toList ++ ws.flatMap (fun w => (s.ctx w).outstandingFrames)).eraseDups
  let queued := (gs.flatMap (fun g => (s.hold g).queue)).filter (fun l => !l.owner.boot && decide (l.owner.job = j))
  let s1 := ws.foldl (fun x w => x.updCtx w (fun c => { c with stopped := true })) s
  let s2 := gs.foldl (fun x g => x.updHold g (fun h =>
    { h with queue := h.queue.filter (fun l => l.owner.boot || !decide (l.owner.job = j)) })) (s1.wakeAll gs)
  let whole := padTo 256 (lossHead p j cause sub o false ++ toBytes 4 ws.length ++ toBytes 4 queued.length ++
    toBytes 8 0 ++ framesOf s.difIndex.toNat frames)
  let l : Loss := { job := j, draining := true, frames := frames, record := whole, progress := [] }
  let s3 := (s2.updJob j (fun x => { x with losing := true })).updPart p (fun x => { x with losses := x.losses ++ [l] })
  (s3.finishLoss p l).soon (.lossReport p)

/-- 21 R365, R366: a job of a partition is lost. -/
def State.loseJob (s : State) (p j cause sub : Nat) (o : Origin) : State :=
  if (s.job j).losing then s else s.onPart p (State.loseRunning p j cause sub o)

/-- 21 R367, R369: the progress entries, each at its place in the area. -/
def State.writeEntries (p : Nat) (s : State) : List (List Byte) → State
  | [] => s
  | e :: t =>
    let x := s.part p
    let s1 := s.storeBytes (x.pBase.toNat + 32 * (x.pWp.toNat % x.pEntries.toNat)) e
    State.writeEntries p (s1.setPart p { s1.part p with pWp := x.pWp + 1 }) t

/-- 21 R365, R366 step 7: a job whose loss is reported is lost no more, and the command that killed it ends. -/
def State.endLoss (s : State) (p : Nat) (l : Loss) : State :=
  let s1 := s.updJob l.job (fun j => { j with losing := false })
  if fieldAt l.record 1 1 = Cause.killed then
    s1.updPart p (fun y => { y with cmdBusy := false, cmdDone := y.cmdDone + 1 })
  else s1

/-- 21 R366 step 7: the oldest loss of a partition that waits for its report is reported once the ring has room; where a
snoop of its place fails the record is lost (log 94). -/
def State.reportLoss (s : State) (p : Nat) : State :=
  let x := s.part p
  match x.losses.find? (fun l => !l.draining) with
  | none => s
  | some l =>
    let more := x.losses.filter (fun y => !decide (y.job = l.job))
    let places := (List.range (min l.progress.length x.pEntries.toNat)).map (fun i =>
      x.pBase.toNat + 32 * ((x.pWp.toNat + i) % x.pEntries.toNat))
    let held := s.eventWaits p || places.any (fun a => s.snoopingRange a 32)
    if x.eventRoom = false ∨ (held = true ∧ s.snoopLost = false) then s
    else if held then
      ((s.setPart p { x with losses := more, eventNo := x.eventNo + 1, evLost := x.evLost + 1 }).endLoss p l).settled
    else
      let n := l.progress.length
      let kept := l.progress.take x.pEntries.toNat
      let flags := fieldAt l.record 3 1 + 2 * bit (decide (x.pEntries.toNat < n))
      let whole := putAt (putAt (putAt (putAt l.record 3 (toBytes 1 flags)) 12 (toBytes 4 (x.eventNo + 1).toNat)) 56
        (toBytes 4 x.pWp.toNat)) 60 (toBytes 4 n)
      let s1 := State.writeEntries p (s.setPart p { x with losses := more, eventNo := x.eventNo + 1 }) kept
      (s1.writeEvent p whole).endLoss p l

end Sys2Proof.Machine
end

