-- ==== Sys2Proof/Machine/Ops.lean ====
section
/-! DEFINITION. Taking a trap and returning from one (21 R359 to R364), and the transfer into a segment (14 R292,
R293; 02 R50 to R52), each one shared operation. -/
namespace Sys2Proof.Machine

/-! ## Gangs -/

/-- 01 R17: the contexts that issue one bundle together, lead first. -/
def State.team (s : State) (w : Who) : List Who :=
  match (s.ctx w).gang with
  | none => [w]
  | some k => k.members.map (fun g => ⟨g, w.slot⟩)
def State.leadOf (s : State) (w : Who) : Who :=
  match (s.ctx w).gang with
  | none => w
  | some k => ⟨k.lead, w.slot⟩
def State.updTeam (s : State) (ws : List Who) (f : Ctx → Ctx) : State := ws.foldl (fun x w => x.updCtx w f) s

/-! ## Transfers -/

/-- A segment as a half that holds it for a context of a mode. -/
def Segment.half (g : Segment) (va : Word) (priv : Bool) : Half :=
  { valid := true, addr := segmentBase va, next := g.next, count := g.bundles.length, bundles := g.bundles, priv := priv,
    imageRow := g.imageRow, image := g.image }
/-- 02 R48, R51: no segment follows, bits [4:0] of next being ignored. -/
def Half.last (h : Half) : Bool := decide (segmentBase h.next = 0)

/-- What an attempt to transfer comes to. -/
inductive Enter where
  | entered (s : State)
  | fault (cause : Nat) (addr : Word) (frame : Option Nat)
  /-- the copy commands whose declared rows it waits for -/
  | wait (on : List Nat)
  deriving Repr

/-- Every course becomes inactive; the index is kept (14 R279, R281). -/
def Ctx.endCourses (c : Ctx) : Ctx :=
  { c with courses := c.courses.map (fun e => (e.1, { e.2 with active := false, trip := 0 })) }

/-- 02 R52: an active command of the context declares a row of the image. -/
def State.imageClash (s : State) (w : Who) (h : Half) : Bool :=
  !h.image.isEmpty &&
    (s.hold w.core).sets.any (fun t => decide (t.1 = w.slot) &&
      (t.2.1.meets ⟨[(h.imageRow, h.imageRow + h.image.length - 1)]⟩ ||
        t.2.2.meets ⟨[(h.imageRow, h.imageRow + h.image.length - 1)]⟩))

/-- The copy commands of the context whose declared rows an image waits for (22 R382). -/
def State.imageUsers (s : State) (w : Who) (h : Half) : List Nat :=
  let t : RowSet := ⟨[(h.imageRow, h.imageRow + h.image.length - 1)]⟩
  ((s.hold w.core).copies.filter (fun c =>
    decide (c.slot = w.slot) && (c.desc.rd.meets t || c.desc.wr.meets t))).map (fun c => c.uid)

/-- The image's rows are written (02 R52). -/
def State.writeRows (g : Nat) : State → Nat → List Row → State
  | s, _, [] => s
  | s, n, r :: t => State.writeRows g (s.putRow g n { data := r }) (n + 1) t

/-- The half that is not executing starts to execute, as h, at a bundle index; what is still to come into it is due. -/
def Ctx.turnHalf (c : Ctx) (h : Half) (due : Option Half) (index : Nat) (ends : Bool) : Ctx :=
  let c1 := { c with halves := c.halves.put (1 - c.half) h, half := 1 - c.half, index := index, incoming := due }
  if ends then c1.endCourses else c1

/-- The other half becomes executing at a bundle index, once the rows img of its image are written; the lead's halves
supply every member (14 R292). pre is the state before the bundle: a command of the bundle itself holds up only the
fetch of what follows (02 R52). -/
def State.intoHalf (pre s : State) (ws : List Who) (h : Half) (img : List Row) (index : Nat) (ends : Bool) : Enter :=
  let t : Half := { h with image := img }
  if ws.any (fun w => pre.imageClash w t) then .wait (ws.flatMap (fun w => pre.imageUsers w t))
  else if ws.any (fun w => s.imageClash w t || (s.ctx w).otherHalf.claim.isSome) then
    .entered (s.updTeam ws (fun c =>
      c.turnHalf { h with valid := false, bundles := c.otherHalf.bundles, claim := c.otherHalf.claim } (some h) index ends))
  else
    let s1 := ws.foldl (fun x w => State.writeRows w.core x h.imageRow img) s
    .entered (s1.updTeam ws (fun c => c.turnHalf { h with valid := true } none index ends))

/-- What fetch waits for has come: the executing half holds its segment; the half that was armed holds what was copied into it
(14 R292, R293). None while it waits. -/
def State.settleFetch (s : State) (ws : List Who) (lead : Who) : Option State :=
  match (s.ctx lead).incoming with
  | none => some s
  | some h =>
    if ws.any (fun w => s.imageClash w h || (s.ctx w).execHalf.claim.isSome) then none
    else
      let s1 := ws.foldl (fun x w => State.writeRows w.core x h.imageRow h.image) s
      let b := if h.addr = 0 then (s.ctx lead).execHalf.bundles else h.bundles
      some (s1.updTeam ws (fun c =>
        { c with halves := c.halves.put c.half { h with valid := true, bundles := b, claim := none }, incoming := none }))

/-- 14 R292, R293: a transfer to an address. An address with bits [63:5] zero enters the armed half. A half that still
holds the segment, validated in the present mode or in user mode, which allows no more, is entered without another read;
its image is written again but for an ERET (log 77). -/
def State.transferTo (pre s : State) (ws : List Who) (lead : Who) (va : Word) (index : Nat) (ends : Bool) : Enter :=
  let c := s.ctx lead
  if va >>> 5 = 0 then
    match c.armed with
    | none => .fault Cause.segment 0 none
    | some (k, n) =>
      if k = c.half then .fault Cause.segment 0 none
      else
        let h := c.halves.get {} k
        State.intoHalf pre (s.updTeam ws (fun x => { x with armed := none })) ws
          { h with addr := 0, next := 0, count := n.toNat + 1, imageRow := 0, image := [] } [] index ends
  else
    let s0 := s.updTeam ws (fun x => { x with armed := none })
    let h := c.otherHalf
    if (pre.ctx lead).otherHalf.claim.isSome then .wait []
    else if h.valid && decide (h.addr = segmentBase va) && (c.priv || !h.priv) && h.claim.isNone then
      State.intoHalf pre s0 ws h (if ends then h.image else []) index ends
    else
      match s0.readSegment (clusterOf lead.core) c.owner c.priv va with
      | .error e => if e.cause = Cause.later then .wait [] else .fault e.cause e.addr e.frame
      | .ok (g, s1) => State.intoHalf pre s1 ws (g.half va c.priv) g.image index ends

/-! ## Taking a trap -/

/-- CTX.CAUSE (21 Table 21.3). -/
def causeWord (t : TrapInfo) (after : Bool) : Word :=
  BitVec.ofNat 64 (bit after * 2 ^ 27 + t.slot * 2 ^ 24 + t.code * 2 ^ 16 + t.sub * 2 ^ 8 + t.cause)

/-- 09 R197, 10 R222: what raising the trap clears. -/
def State.applyFix (s : State) (w : Who) : Fix → State
  | .none => s
  | .mark vec reg => s.updCtx w (fun c =>
      let c1 := { c with marks := c.marks.filter (fun m => !(m.vec == vec && decide (m.reg = reg))) }
      if vec then c1.setV reg 0 allOnes else c1.setS reg 0)
  | .store => s.updCtx w (fun c => { c with heldStore := none })
  | .ringless => s.updCtx w (fun c => (({ c with ringless := none } : Ctx)).clearCopyFail)
  | .ringMark r slot => s.updHold w.core (fun h => h.setRing r ((h.ring r).clearMark slot))

/-- The place a trap of a context arose, for a loss record (21 Table 21.7a). -/
def State.origin (s : State) (w : Who) (t : TrapInfo) (tpc : Word) : Origin :=
  let c := s.ctx w
  { who := some w, slot := t.slot, gang := c.gang.isSome, located := t.located, tpc := tpc,
    taddr := t.addr, step := c.step, log := c.logPtr,
    frame := if t.cause = Cause.poisoned then t.frame else none }

/-- 21 R364: HALT's loss names what the handler holds. -/
def State.haltOrigin (s : State) (w : Who) (slot : Nat) : Origin :=
  let c := s.ctx w
  let sub := (fld c.cause 0 8).toNat
  { who := some w, slot := slot, gang := c.gang.isSome, located := c.located, tpc := c.tpc,
    taddr := c.taddr, step := c.step, log := c.logPtr,
    frame := if sub = Cause.poisoned then c.trapFrame else none }

/-- 24 R397: a trap in a boot task loses the task; stage-1 reads the channel's result as 0 and retries once before
it reports result 3. -/
def State.loseBootTask (s : State) (w : Who) : State :=
  let c := w.core
  let s1 := (s.freeContext w).setPhy c { s.phy c with result := 0 }
  if s1.sec.diesStopped then s1
  else if s1.sec.retried.contains c then { s1 with sec := { s1.sec with result := 3 } }
  else ({ s1 with sec := { s1.sec with retried := c :: s1.sec.retried } }).launchBoot c

/-- 21 R360: one member of the team enters the handler: saved cause, bundle, address and courses; privileged. -/
def Ctx.takeTrap (c : Ctx) (t : TrapInfo) (after : Bool) (tpc : Word) : Ctx :=
  { c.endCourses with
    cause := causeWord t after
    tpc := tpc
    taddr := t.addr
    located := t.located
    trapFrame := t.frame
    savedCourses := c.courses
    priv := true
    inTrap := true
    handlerStep := 0
    armed := none
    loading := false
    loadFault := none }

/-- The trap of the other members of a gang (21 R360). -/
def gangTrap : TrapInfo := { cause := Cause.gang }

/-- 21 R360: context w of a team takes a trap, pre being the state before its bundle. None when the handler's segment
cannot be entered yet. Of a member whose CORE.TVEC.en is 0 the trap loses the job, the faulting member's own first. -/
def State.enterTrap (pre s : State) (w : Who) (t : TrapInfo) (after : Bool) (tpc : Word) : Option State :=
  let c := s.ctx w
  let ws := s.team w
  let lead := s.leadOf w
  let p := c.owner.part
  let j := c.owner.job
  if c.owner.boot then some (s.loseBootTask w)
  else if t.cause = Cause.halted then
    some (s.loseJob p j Cause.halted (fld c.cause 0 8).toNat (s.haltOrigin w t.slot))
  else if c.priv then some ((s.applyFix w t.fix).loseJob p j Cause.nested t.cause (s.origin w t tpc))
  else if (s.hold w.core).tvec.getLsbD 63 = false then
    some ((s.applyFix w t.fix).loseJob p j t.cause t.sub (s.origin w t tpc))
  else
    match ws.find? (fun m => !((s.hold m.core).tvec.getLsbD 63)) with
    | some m => some ((s.applyFix w t.fix).loseJob p j Cause.gang 0 (s.origin m gangTrap tpc))
    | none =>
      let s1 := s.applyFix w t.fix
      let s2 := ws.foldl (fun x m => x.updCtx m (fun y => y.takeTrap (if m = w then t else gangTrap) after tpc)) s1
      match State.transferTo pre s2 ws lead ((s.hold lead.core).tvec &&& 0x00FFFFFFFFFFFFE0#64) 0 true with
      | .entered s3 => some s3
      | .wait _ => none
      | .fault e a f =>
        some (s2.loseJob p j Cause.nested e (s2.origin w { cause := e, addr := a, frame := f } tpc))

/-! ## Returning from one -/

/-- 03 R63: a load of ERET's own bundle is the last writer of its destination: the program's results pending for it leave
(log 75). -/
def Ctx.loadsLast (c : Ctx) : Ctx :=
  { c with pend := c.pend.filter (fun p =>
      match p.dst with
      | .s n => !(c.awaitS n)
      | .v n => !(c.awaitV n)
      | .f _ => true) }

/-- 21 R361, R362: the program is resumed: its courses, user mode, and its own step count; results of the handler
have committed. -/
def Ctx.resume (c : Ctx) : Ctx :=
  let c1 := c.loadsLast
  { c1 with courses := c1.savedCourses, priv := false, inTrap := false }

/-- Where CTX.TPC points: the segment address, the half and the index. -/
def tpcAddr (v : Word) : Word := BitVec.ofNat 64 (bits v.toNat 60 10 * 32)
def tpcHalf (v : Word) : Nat := bits v.toNat 61 61
def tpcIndex (v : Word) : Nat := bits v.toNat 9 0

/-- What an ERET's transfer comes to (21 R362). -/
inductive Return where
  | resumed (s : State)
  /-- a nested trap in the handler -/
  | nested (cause : Nat) (addr : Word) (frame : Option Nat)
  /-- a trap of the resumed program, after its last bundle -/
  | userTrap (s : State) (cause : Nat) (addr : Word) (frame : Option Nat)
  | wait (on : List Nat)
  deriving Repr

/-- 21 R362: the target of CTX.TPC is entered, at an index at or below its bundle count. -/
def State.reenter (pre s : State) (ws : List Who) (lead : Who) : Enter :=
  let c := s.ctx lead
  let v := c.tpc
  if tpcAddr v = 0 then
    let h := c.halves.get {} (tpcHalf v)
    if tpcHalf v = c.half ∨ h.valid = false ∨ h.addr ≠ 0 then .fault Cause.segment 0 none
    else State.intoHalf pre s ws h [] (tpcIndex v) false
  else State.transferTo pre s ws lead (tpcAddr v) (tpcIndex v) false

/-- 21 R362: ERET of a team; an index equal to the bundle count makes the transfer of R51 as the program's own. -/
def State.trapReturn (pre s : State) (ws : List Who) (lead : Who) : Return :=
  match State.reenter pre s ws lead with
  | .wait on => .wait on
  | .fault e a f => .nested e a f
  | .entered s1 =>
    let h := (s1.ctx lead).execHalf
    let i := (s1.ctx lead).index
    let s2 := s1.updTeam ws Ctx.resume
    if h.count < i then .nested Cause.segment h.addr none
    else if i < h.count then .resumed s2
    else if h.last then .userTrap s2 Cause.segmentEnd 0 none
    else
      match State.transferTo pre s2 ws lead h.next 0 true with
      | .entered s3 => .resumed s3
      | .fault e a f => .userTrap s2 e a f
      | .wait on => .wait on

end Sys2Proof.Machine
end

