-- ==== Sys2Proof/Machine/Log.lean ====
section
/-! DEFINITION. The observation log: recording and replaying observers (22 R375 to R383). -/
namespace Sys2Proof.Machine

/-! ## Record mode -/

/-- A store the core makes on a context's behalf enters its store queue; a fault is held as a refused store (22
R380). -/
def State.logStore (s : State) (w : Who) (va : Word) (n data : Nat) : State :=
  let c := s.ctx w
  let k := clusterOf w.core
  match s.translate k c.owner c.priv va .write with
  | .error e => s.updCtx w (fun x => x.holdStore e (s.walkFrame k c.owner va e))
  | .ok (pa, s1) =>
    match s1.placeCause c.owner va pa .write false with
    | some e => s1.updCtx w (fun x => x.holdStore e none)
    | none =>
      if (s1.regionAt c.owner va.toNat).isSome then s1.updCtx w (fun x => x.holdStore Cause.versioned none)
      else s1.updCtx w (fun x =>
        { x with order := x.order + 1
                 storeQ := x.storeQ ++ [⟨x.order, .plain, n, va, pa, BitVec.ofNat 64 data, false⟩] })

/-- 22 Table 22.4: the place of the next record; bits [63:56] and [3:0] read zero. -/
def nextLog (v : Word) : Word := (v + 16) &&& 0x00FFFFFFFFFFFFF0#64

/-- 19 R341, 20 R353: the walk for the place of the next record waits for a line that the host may hold; so does the event
that would write it (log 78). -/
def State.logWaits (s : State) (w : Who) : Bool :=
  let c := s.ctx w
  decide (c.logMode = 1) &&
    (match s.translate (clusterOf w.core) c.owner c.priv (if c.logLeft = 0 then c.logHeader + 4 else c.logPtr) .write with
     | .error e => decide (e = Cause.later)
     | .ok _ => false)

/-- 22 R380: an observer event in record mode; kind, a and data as Table 22.3. -/
def State.observe (s : State) (w : Who) (kind a data : Nat) : State :=
  let c := s.ctx w
  if c.logMode ≠ 1 then s
  else if c.logLeft = 0 then
    (s.updCtx w (fun x => { x with logOvf := true, logMode := 0 })).logStore w (c.logHeader + 4) 1 1
  else
    let s1 := (s.logStore w c.logPtr 8 (c.step % 2 ^ 48 * 2 ^ 16 + a * 256 + kind)).logStore w (c.logPtr + 8) 8 data
    s1.updCtx w (fun x => { x with logPtr := nextLog x.logPtr, logLeft := x.logLeft - 1 })

/-! ## Replay mode -/

/-- A record as read (Table 22.3). -/
structure LogRec where
  step : Nat
  a : Nat
  kind : Nat
  data : Nat
  deriving DecidableEq, Repr

def logRec (l : List Byte) : LogRec :=
  { step := fieldAt l 2 6, a := fieldAt l 1 1, kind := fieldAt l 0 1, data := fieldAt l 8 8 }

/-- What the record at CTX.LOGP asks before a bundle issues (22 R381, R382). -/
inductive Replay where
  /-- no record is due; the next one's step lies ahead -/
  | live
  /-- the record is consumed, or the core hands over: the state changes and the bundle waits -/
  | consumed (s : State)
  /-- the bundle's SRR of CORE.RETSTAT takes this value -/
  | counter (v : Word)
  | trap (cause : Nat) (addr : Word) (frame : Option Nat)
  | wait

def Ctx.passRecord (c : Ctx) : Ctx := { c with logPtr := nextLog c.logPtr, logLeft := c.logLeft - 1 }

/-- Handing over: the context records from here on, and its waiting commands run with their deadlines live. -/
def State.handOver (s : State) (w : Who) : State := s.updCtx w (fun c => { c with logMode := 1 })

/-- 22 R381: a command with a nonzero deadline, of a context that is in replay, waits for its record. -/
def State.awaitsRecord (s : State) (g : Nat) (x : CCmd) : Bool :=
  x.ring.isSome && decide (x.deadline ≠ 0) && decide (x.handed = none) && decide ((s.ctx ⟨g, x.slot⟩).logMode = 2)

/-- 22 R381: kind 3 applies the update once its condition holds. -/
def State.replayView (s : State) (w : Who) (r : LogRec) : Replay :=
  let c := s.ctx w
  let e := BitVec.ofNat 6 (r.data % 256)
  let i := BitVec.ofNat 8 (r.data / 256)
  if 15 < r.a ∨ r.data % 256 > 63 ∨ c.binds.get none r.a ≠ some (e, i) ∨ c.flag r.a = true then
    .trap Cause.diverged 0 none
  else if s.eventHolds w e i then .consumed (s.updCtx w (fun x => (x.setFlag r.a true).passRecord))
  else .wait

/-- 22 R381: kinds 1, 2 and 5 are handed to the command whose sequence number they name. -/
def State.replayCopy (s : State) (w : Who) (r : LogRec) : Replay :=
  let seq := BitVec.ofNat 32 (r.data / 2 ^ 32)
  match (s.hold w.core).copies.find? (fun x => decide (x.slot = w.slot) && decide (x.seq = seq)) with
  | none => .trap Cause.diverged 0 none
  | some x =>
    if x.handed.isSome then .trap Cause.diverged 0 none
    else .consumed ((s.updHold w.core (fun h =>
      { h with copies := h.copies.map (fun y =>
          if y.uid = x.uid then { y with handed := some (r.kind, r.data % 2 ^ 32) } else y) })).updCtx w Ctx.passRecord)

/-- The record at CTX.LOGP. -/
def State.nextRecord (s : State) (w : Who) : Except ReadFault LogRec :=
  let c := s.ctx w
  match s.fetchBytes (clusterOf w.core) c.owner c.priv c.logPtr 16 .read with
  | .error e => .error e
  | .ok (l, _) => .ok (logRec l)

/-- 22 R381, R382: the state of the replay of one context, for a bundle that holds or does not hold an SRR of
CORE.RETSTAT. -/
def State.replayProgram (s : State) (w : Who) (srr : Bool) : Replay :=
  let c := s.ctx w
  if c.logMode ≠ 2 then .live
  else if c.logLeft = 0 then .consumed (s.handOver w)
  else
    match s.nextRecord w with
    | .error e => if e.cause = Cause.later then .wait else .trap e.cause c.logPtr e.frame
    | .ok r =>
      let now := c.step % 2 ^ 48
      if r.kind = 0 then .consumed (s.handOver w)
      else if r.step < now then .trap Cause.diverged 0 none
      else if r.step = now then
        if r.kind = 3 then (if c.inTrap && !srr then .live else s.replayView w r)
        else if r.kind = 1 ∨ r.kind = 2 ∨ r.kind = 5 then s.replayCopy w r
        else if r.kind = 4 ∧ srr = true then .counter (BitVec.ofNat 64 r.data)
        else .trap Cause.diverged 0 none
      else if srr then .trap Cause.diverged 0 none
      else .live

/-- 22 R382, 21 R361: a handler's bundle that holds no SRR of CORE.RETSTAT does not diverge, so that a handler can
write another mode; view updates wait for the return. -/
def State.replayGate (s : State) (w : Who) (srr : Bool) : Replay :=
  let r := s.replayProgram w srr
  if (s.ctx w).inTrap && !srr then
    match r with
    | .trap _ _ _ => .live
    | .wait => .live
    | .live => .live
    | .counter v => .counter v
    | .consumed s' => .consumed s'
  else r

/-- 22 R382: a bundle that blocks on a command waiting for its record diverges, while the next record's step lies
ahead. -/
def State.blocksOnRecord (s : State) (w : Who) (on : List Nat) : Bool :=
  decide ((s.ctx w).logMode = 2) && !(s.ctx w).inTrap &&
    (s.hold w.core).copies.any (fun x => on.contains x.uid && s.awaitsRecord w.core x) &&
    (match s.nextRecord w with
     | .ok r => decide ((s.ctx w).step % 2 ^ 48 < r.step)
     | .error _ => false)

/-! ## Views (14 R287) -/

/-- The event of a bound flag whose view is 0 while its condition holds; in replay the log alone updates (22 R381). -/
def State.viewDue (s : State) (w : Who) (flag : Nat) : Option (BitVec 6 × BitVec 8) :=
  let c := s.ctx w
  (c.binds.get none flag).filter (fun b => decide (c.logMode ≠ 2) && !(c.flag flag) && s.eventHolds w b.1 b.2)
/-- A bound flag's view becomes 1 while its condition holds; the update is logged (22 R380). -/
def State.updateView (s : State) (w : Who) (flag : Nat) : State :=
  match s.viewDue w flag with
  | none => s
  | some (e, i) => (s.updCtx w (fun x => x.setFlag flag true)).observe w 3 flag (e.toNat + 256 * i.toNat)
/-- A view update of the context is due, and its record waits. -/
def State.viewWaits (s : State) (w : Who) : Bool := s.logWaits w && (List.range 16).any (fun n => (s.viewDue w n).isSome)
/-- 21 R361: the updates that fell due while a handler ran, before the program's next bundle. -/
def State.updateViews (s : State) (ws : List Who) : State :=
  ws.foldl (fun x w => (List.range 16).foldl (fun y n => y.updateView w n) x) s

end Sys2Proof.Machine
end

