-- ==== Sys2Proof/Machine/Bundle.lean ====
section
/-! DEFINITION. Issuing one bundle: the traps of 21 Table 21.2 in their ranks, blocking, the choice of the next
bundle (14 R275 to R282), the step count and the results that fall due (01 R15, R16; 14 R290). -/
namespace Sys2Proof.Machine

/-- What one attempt to issue comes to. -/
inductive Issue where
  | issued (s : State)
  | trapped (w : Who) (t : TrapInfo)
  /-- the commands it waits for (22 R382) -/
  | blocked (on : List Nat)
  /-- the core freezes (15 R303) -/
  | frozen
  deriving Repr

abbrev Bundle := List (Nat × Sem)

/-- The gate that slot 0 puts on its bundle (14 R283, R284). -/
def gateOf (b : Bundle) : Option Gate := b.findSome? (fun x => x.2.gate)

/-- A slot's view of the bundle's issue; pre is the state before it. -/
def State.env (pre : State) (lead : Who) (counter : Who → Option Word) (w : Who) (slot : Nat) : Env :=
  { who := w, slot := slot, n := (pre.ctx w).now + 1, ctx := pre.ctx w, lead := pre.ctx lead,
    isLead := decide (w = lead), counter := counter w }

/-- Rank 1: decode traps, lowest slot, illegal above privilege (02 R33, R34). -/
def decodeTrap (b : Bundle) (c : Ctx) : Option TrapInfo :=
  b.findSome? (fun x =>
    if x.2.ill then some { cause := Cause.illegal, slot := x.1 }
    else if x.2.priv && !c.priv then some { cause := Cause.privilege, slot := x.1 }
    else none)

/-- Rank 2: a read or write of a marked register (09 R197). -/
def markTrap (b : Bundle) (pre : State) (lead w : Who) : Option TrapInfo :=
  b.findSome? (fun x =>
    if x.2.active (gateOf b) (pre.env lead (fun _ => none) w x.1) x.1 then
      (x.2.marked (pre.ctx w) (decide (w = lead))).map (fun m =>
        { cause := m.cause, slot := x.1, addr := BitVec.ofNat 64 (m.reg + 256 * bit m.vec), frame := m.frame,
          fix := .mark m.vec m.reg })
    else none)

/-- Rank 3: the allotment, whatever the predicate (05 R105, 14 R288, R289). -/
def allotTrap (b : Bundle) (c : Ctx) : Option TrapInfo :=
  b.findSome? (fun x =>
    if (x.2.vr ++ x.2.vw).any (fun v => decide (c.allot ≤ v)) ||
        (match x.2.grow with | some r => decide (64 < c.allot + r) | none => false) ||
        (match x.2.shrink with | some r => decide (c.allot < r) | none => false) then
      some { cause := Cause.allotment, slot := x.1 }
    else none)

/-- What the slots have done so far. -/
structure Running where
  s : State
  jump : Option (Nat × Target) := none
  blocked : Bool := false
  on : List Nat := []
  /-- a branch or a return waits, so the next bundle is not known -/
  unknown : Bool := false
  /-- the core freezes until its transition has settled (15 R303) -/
  freeze : Bool := false
  deriving Repr

/-- Rank 4: one slot of one member acts on the running state (02 R30, R31, R32). -/
def runSlot (b : Bundle) (pre : State) (lead : Who) (counter : Who → Option Word) (w : Who) (r : Running) (x : Nat × Sem) :
    Except TrapInfo Running :=
  let e := pre.env lead counter w x.1
  if !(x.2.active (gateOf b) e x.1) then .ok r
  else
    let locked := x.2.interlocked (pre.ctx w) e.isLead
    if locked && !x.2.depth then
      .ok { r with blocked := true, unknown := r.unknown || ((!x.2.leadReads.isEmpty || x.2.leaves) && r.jump.isNone) }
    else
    match x.2.run e r.s with
    | .ok s => .ok { r with s := s, blocked := r.blocked || locked }
    | .jump s t =>
      match r.jump with
      | none => .ok { r with s := s, jump := some (x.1, t) }
      | some j => if j.1 = x.1 then .ok { r with s := s } else .ok r
    | .trap t => .error { t with slot := x.1 }
    | .block on => .ok { r with blocked := true, on := r.on ++ on, unknown := r.unknown || x.2.leaves }
    | .freeze => .ok { r with freeze := true }

def runSlots (b : Bundle) (pre : State) (lead : Who) (counter : Who → Option Word) (w : Who) :
    Bundle → Running → Except TrapInfo Running
  | [], r => .ok r
  | x :: t, r =>
    match runSlot b pre lead counter w r x with
    | .error e => .error e
    | .ok r' => runSlots b pre lead counter w t r'

/-- Every member in turn; the error names the member. -/
def runTeam (b : Bundle) (pre : State) (lead : Who) (counter : Who → Option Word) :
    List Who → Running → Except (Who × TrapInfo) Running
  | [], r => .ok r
  | w :: t, r =>
    match runSlots b pre lead counter w b r with
    | .error e => .error (w, e)
    | .ok r' => runTeam b pre lead counter t r'

/-! ## The next bundle -/

/-- 14 R280: the active courses whose last bundle is i, latest start first. -/
def Ctx.endingCourses (c : Ctx) (i : Nat) : List Nat :=
  let l := (List.range 6).filter (fun n => (c.course n).active && decide ((c.course n).last = i))
  sortBy (fun a b => decide ((c.course b).start ≤ (c.course a).start)) l

/-- 14 R282: the generators a course names are aligned. -/
def Ctx.alignGens (c : Ctx) (am : BitVec 4) : Ctx :=
  [0, 1, 2, 3].foldl (fun x k => if am.getLsbD k then { x with gens := x.gens.put k (x.gen k).align } else x) c

/-- 14 R280: the back-edge, and the bundle it chooses. -/
def Ctx.backEdge : List Nat → Ctx → Ctx × Option Nat
  | [], c => (c, none)
  | n :: t, c =>
    let k := c.course n
    let c1 := c.alignGens k.am
    if (k.index + 1).toNat < k.trip.toNat then
      ({ c1 with courses := c1.courses.put n { k with index := k.index + 1 } }, some k.first)
    else Ctx.backEdge t { c1 with courses := c1.courses.put n { k with active := false, trip := 0 } }

/-- 14 R281: a taken branch from inside a body to a target outside it ends the course. -/
def Ctx.leaveCourses (c : Ctx) (i t : Nat) : Ctx :=
  let inside (k : Course) (n : Nat) : Bool := decide (k.first ≤ n) && decide (n ≤ k.last)
  { c with courses := c.courses.map (fun e =>
      if e.2.active && inside e.2 i && !(inside e.2 t) then (e.1, { e.2 with active := false, trip := 0 }) else e) }

/-- The choice of the next bundle (14 R275). -/
inductive Next where
  | at (s : State)
  /-- past the last bundle of a segment with no next (02 R51) -/
  | ended (s : State)
  /-- ERET into a trap of the resumed program (21 R362) -/
  | userTrap (s : State) (t : TrapInfo)
  | fault (t : TrapInfo)
  /-- the copy commands it waits for -/
  | wait (on : List Nat)

/-- 02 R51: after the last bundle. -/
def State.pastEnd (pre s : State) (ws : List Who) (lead : Who) (slot : Nat) : Next :=
  let h := (s.ctx lead).execHalf
  if h.last then .ended (s.updTeam ws (fun c => { c with index := h.count }))
  else
    match State.transferTo pre s ws lead h.next 0 true with
    | .entered s' => .at s'
    | .fault e a f => .fault { cause := e, slot := slot, addr := a, frame := f }
    | .wait on => .wait on

/-- 21 R361, R362: every handler result commits before ERET acts. -/
def Ctx.finishHandler (c : Ctx) : Ctx :=
  let due (p : Pending) : Bool := p.handler
  let l := sortBy (fun a b => decide (a.due ≤ b.due)) (c.pend.filter due)
  { l.foldl Ctx.commit c with pend := c.pend.filter (fun p => !(due p)) }

/-- 14 R275, R276; 02 R31, R41; pre is the state before the bundle. -/
def State.choose (pre s : State) (ws : List Who) (lead : Who) (jump : Option (Nat × Target)) : Next :=
  let c := s.ctx lead
  let h := c.execHalf
  let i := c.index
  match jump with
  | some (slot, .index t atEnd ends) =>
    if t < 0 ∨ (h.count : Int) < t ∨ (t = h.count ∧ atEnd = false) then
      .fault { cause := Cause.branchRange, slot := slot }
    else
      let s1 := if ends then s.updTeam ws (fun x => x.leaveCourses i t.toNat) else s
      if t = h.count then State.pastEnd pre s1 ws lead slot else .at (s1.updTeam ws (fun x => { x with index := t.toNat }))
  | some (slot, .segment va) =>
    (match State.transferTo pre s ws lead va 0 true with
     | .entered s' => .at s'
     | .fault e a f => .fault { cause := e, slot := slot, addr := a, frame := f }
     | .wait on => .wait on)
  | some (slot, .eret) =>
    (match State.trapReturn pre (s.updTeam ws Ctx.finishHandler) ws lead with
     | .resumed s' => if ws.any s'.viewWaits then .wait [] else .at (s'.updateViews ws)
     | .nested e a f => .fault { cause := e, slot := slot, addr := a, frame := f }
     | .userTrap s' e a f => .userTrap s' { cause := e, slot := slot, addr := a, frame := f }
     | .wait on => .wait on)
  | none =>
    match (Ctx.backEdge (c.endingCourses i) c).2 with
    | some t => .at (s.updTeam ws (fun x => { (Ctx.backEdge (x.endingCourses i) x).1 with index := t }))
    | none =>
      let s1 := s.updTeam ws (fun x => (Ctx.backEdge (x.endingCourses i) x).1)
      if i + 1 < h.count then .at (s1.updTeam ws (fun x => { x with index := i + 1 })) else State.pastEnd pre s1 ws lead 0

/-! ## The step -/

/-- 01 R15: the bundle counts one issue step, a handler's bundle one handler step. -/
def Ctx.countStep (c : Ctx) (handler : Bool) : Ctx :=
  if handler then { c with handlerStep := c.handlerStep + 1 } else { c with step := c.step + 1 }

/-- 14 R290: what falls due at the next step commits before its bundle reads. -/
def Ctx.fallDue (c : Ctx) : Ctx := c.commitDue (c.now + 1)

/-- The team's contexts are no longer waiting, and the partition has issued (13 R258). -/
def State.noteIssue (s : State) (ws : List Who) (o : Owner) : State :=
  let s1 := (s.updTeam ws (fun c => { c with waiting := false })).settled
  if o.boot then s1 else s1.updPart o.part (fun p => { p with idleReported := false })

/-- Ranks 1 to 3 of Table 21.2: the member and the trap that the bundle's words and registers raise. -/
def State.earlyTrap (pre : State) (w : Who) (b : Bundle) : Option (Who × TrapInfo) :=
  let ws := pre.team w
  let lead := pre.leadOf w
  match decodeTrap b (pre.ctx lead) with
  | some t => some (lead, t)
  | none =>
    match ws.findSome? (fun m => (markTrap b pre lead m).map (fun t => (m, t))) with
    | some x => some x
    | none => ws.findSome? (fun m => (allotTrap b (pre.ctx m)).map (fun t => (m, t)))

/-- An after-trap of a bundle that has taken effect (21 R359 rank 6). -/
def State.afterTrap (pre s : State) (ws : List Who) (lead : Who) (t : TrapInfo) (after : Bool) : Issue :=
  match State.enterTrap pre s lead t after (s.ctx lead).tpcHere with
  | some s' => .issued (s'.noteIssue ws (pre.ctx lead).owner)
  | none => .blocked []

/-- Ranks 4 to 6: the slots act, the next bundle is chosen, and the step counts. -/
def State.attempt (pre : State) (w : Who) (counter : Who → Option Word) (b : Bundle) : Issue :=
  let ws := pre.team w
  let lead := pre.leadOf w
  let handler := (pre.ctx lead).inTrap
  match runTeam b pre lead counter ws { s := pre } with
  | .error (m, t) => .trapped m t
  | .ok r =>
    if r.freeze then .frozen
    else if r.blocked && r.unknown then .blocked r.on
    else
      let counted := r.s.updTeam ws (fun c => c.countStep handler)
      if (r.s.ctx lead).exiting then
        (if r.blocked then .blocked r.on else .issued ((counted.noteIssue ws (pre.ctx lead).owner).leave ws))
      else
        let after := b.findSome? (fun x => x.2.after)
        let finish (s : State) : Issue :=
          if r.blocked then .blocked r.on
          else
            match after with
            | none => .issued ((s.updTeam ws Ctx.fallDue).noteIssue ws (pre.ctx lead).owner)
            | some code => State.afterTrap pre s ws lead { cause := Cause.software, code := code } true
        match State.choose pre counted ws lead r.jump with
        | .fault t => .trapped lead t
        | .wait on => .blocked (r.on ++ on)
        | .at s => finish s
        | .ended s =>
          if r.blocked then .blocked r.on
          else if after.isSome then finish s
          else State.afterTrap pre s ws lead { cause := Cause.segmentEnd } true
        | .userTrap s t =>
          if r.blocked then .blocked r.on
          else State.afterTrap pre s ws lead t (decide (t.cause = Cause.segmentEnd))

/-- A bundle that blocks leaves the context waiting (15 R295), and leaves what its slots say a blocked attempt
leaves. -/
def State.leaveBlocked (pre : State) (w : Who) (b : Bundle) : State :=
  let ws := pre.team w
  let lead := pre.leadOf w
  let s1 := ws.foldl (fun x m => b.foldl (fun y k => k.2.blocked (pre.env lead (fun _ => none) m k.1) y) x) pre
  (s1.updTeam ws (fun c => { c with waiting := true })).settled

/-- What an offer of the issue port comes to (15 R294, R296). -/
inductive Offer where
  | issued
  | trapped
  | blocked
  /-- the core freezes (15 R303) -/
  | frozen
  /-- a context whose EXIT had issued left (13 R273) -/
  | left
  deriving DecidableEq, Repr

/-- A trapped attempt: the trap is taken, or, while the handler cannot be entered, the bundle blocks. The bundle has not
issued (15 R294). -/
def State.takeTrap (pre : State) (w : Who) (b : Bundle) (m : Who) (t : TrapInfo) : State × Offer :=
  match State.enterTrap pre pre m t false (pre.ctx (pre.leadOf w)).tpcHere with
  | some s => (s.settled, .trapped)
  | none => (pre.leaveBlocked w b, .blocked)

/-- What the logs of a team's members ask before its bundle issues (22 R381, R382). -/
inductive Gates where
  /-- the members whose SRR of CORE.RETSTAT takes a logged value -/
  | open (cs : List (Who × Word))
  | consumed (s : State)
  | wait
  | trap (m : Who) (cause : Nat) (addr : Word) (frame : Option Nat)

def State.gates (s : State) (srr : Bool) : List Who → Gates
  | [] => .open []
  | m :: t =>
    match s.replayGate m srr with
    | .consumed s' => .consumed s'
    | .wait => .wait
    | .trap c a f => .trap m c a f
    | .live => s.gates srr t
    | .counter v =>
      match s.gates srr t with
      | .open cs => .open ((m, v) :: cs)
      | .consumed s' => .consumed s'
      | .wait => .wait
      | .trap m' c a f => .trap m' c a f

/-- 14 R275, 15 R294, 21 R359: the context's bundle is offered once; a log record that is due comes before it (22 R381). -/
def State.offerBundle (pre : State) (w : Who) (b : Bundle) : State × Offer :=
  match pre.gates (b.any (fun x => x.2.retstat)) (pre.team w), pre.earlyTrap w b with
  | .consumed s, _ => (s.settled, .blocked)
  | .wait, _ => (pre.leaveBlocked w b, .blocked)
  | _, some (m, t) => pre.takeTrap w b m t
  | .trap m c a f, none => pre.takeTrap w b m { cause := c, addr := a, frame := f }
  | .open cs, none =>
    match pre.attempt w (fun m => (cs.find? (fun c => decide (c.1 = m))).map (fun c => c.2)) b with
    | .issued s => (cs.foldl (fun x c => x.updCtx c.1 Ctx.passRecord) s, .issued)
    | .trapped m t => pre.takeTrap w b m t
    | .frozen => (pre.settled, .frozen)
    | .blocked on =>
      match (pre.team w).find? (fun m => pre.blocksOnRecord m on) with
      | some m => pre.takeTrap w b m { cause := Cause.diverged }
      | none => (pre.leaveBlocked w b, .blocked)

def State.issueBundle (pre : State) (w : Who) (b : Bundle) : State := (pre.offerBundle w b).1

/-- The bundle whose only word is i, in slot k, issued by the context in focus. -/
def issueOne (k : Nat) (i : Instr) (m : Sem) (s : State) : Host.Outcome State Fault Refusal :=
  .next (s.issueBundle s.focus [(k, { m with ill := !i.wf })])

end Sys2Proof.Machine
end

