-- ==== Sys2Proof/Machine/Scalar.lean ====
section
/-! DEFINITION. The scalar slots 1 and 2 (04_scalar_instructions.md). -/
namespace Sys2Proof.Machine

/-! ## Results (Table 4.3, R91 to R95) -/

/-- The amount of a register shift: bits [5:0] (04 R90). -/
def amount6 (b : Word) : Nat := b.toNat % 64
def shlWord (a : Word) (n : Nat) : Word := a <<< n
def shrWord (a : Word) (n : Nat) : Word := a >>> n
def sarWord (a : Word) (n : Nat) : Word := a.sshiftRight n
def rorWord (a : Word) (n : Nat) : Word := a.rotateRight n
def mulHigh (a b : Word) : Word := BitVec.ofInt 64 (a.toInt * b.toInt / 2 ^ 64)
def mulHighU (a b : Word) : Word := BitVec.ofNat 64 (a.toNat * b.toNat / 2 ^ 64)

/-- 04 R91: signed quotient and remainder; the least value over −1 needs no case of its own, because the quotient
wraps. -/
def divWord (a b : Word) : Word := if b = 0 then BitVec.allOnes 64 else BitVec.ofInt 64 (a.toInt.tdiv b.toInt)
def remWord (a b : Word) : Word := if b = 0 then a else BitVec.ofInt 64 (a.toInt.tmod b.toInt)
def divuWord (a b : Word) : Word := if b = 0 then BitVec.allOnes 64 else BitVec.ofNat 64 (a.toNat / b.toNat)
def remuWord (a b : Word) : Word := if b = 0 then a else BitVec.ofNat 64 (a.toNat % b.toNat)

/-- 04 R92: the funnel shifts of sa:sb. -/
def fshlWord (a b : Word) (n : Nat) : Word := BitVec.ofNat 64 ((a.toNat * 2 ^ 64 + b.toNat) * 2 ^ n / 2 ^ 64)
def fshrWord (a b : Word) (n : Nat) : Word := BitVec.ofNat 64 ((a.toNat * 2 ^ 64 + b.toNat) / 2 ^ n)

/-- 04 R93. -/
def clzWord (a : Word) : Word := if a = 0 then 64 else BitVec.ofNat 64 (63 - Nat.log2 a.toNat)
def popcWord (a : Word) : Word := BitVec.ofNat 64 ((List.range 64).foldl (fun n i => n + bit (a.getLsbD i)) 0)
def brevWord (a : Word) : Word :=
  BitVec.ofNat 64 ((List.range 64).foldl (fun n i => 2 * n + bit (a.getLsbD i)) 0)

/-- 04 R95. -/
def movsWord (d : Word) (i : BitVec 16) : Word := (d <<< 16) + i.setWidth 64

/-- 04 R101: an FP32 result with the upper half zero. -/
def fpWord (v : Nat) : Word := BitVec.ofNat 64 v

/-- 04 R103: FCVT of type code t from ts. -/
def fcvtWord (t s : BitVec 4) (a : Word) : Word :=
  fpWord (fConvert (fmtOf s) (fmtOf t) (a.toNat % 2 ^ (fmtOf s).width))

/-- 04 R99, R100: CB branches by an 8-bit offset; only a gang's lead reads its operands. -/
def cbSem (p c : BitVec 4) (a b : BitVec 5) (o : BitVec 8) : Sem :=
  { pred := p, leadReads := [a.toNat, b.toNat], leadActs := true
    run := fun e s =>
      if intCond c (e.lead.sreg a.toNat) (e.lead.sreg b.toNat) then
        .jump s (.index ((e.lead.index : Int) + signed o) false true)
      else .ok s }

/-- ADD (04 R90) -/
def semAdd (p : BitVec 4) (d a b : BitVec 5) : Sem :=
  aluSem p d [a, b] 1 (fun c => c.sreg a.toNat + c.sreg b.toNat)

/-- SUB (04 R90) -/
def semSub (p : BitVec 4) (d a b : BitVec 5) : Sem :=
  aluSem p d [a, b] 1 (fun c => c.sreg a.toNat - c.sreg b.toNat)

/-- AND (04 R90) -/
def semAnd (p : BitVec 4) (d a b : BitVec 5) : Sem :=
  aluSem p d [a, b] 1 (fun c => c.sreg a.toNat &&& c.sreg b.toNat)

/-- OR (04 R90) -/
def semOr (p : BitVec 4) (d a b : BitVec 5) : Sem :=
  aluSem p d [a, b] 1 (fun c => c.sreg a.toNat ||| c.sreg b.toNat)

/-- XOR (04 R90) -/
def semXor (p : BitVec 4) (d a b : BitVec 5) : Sem :=
  aluSem p d [a, b] 1 (fun c => c.sreg a.toNat ^^^ c.sreg b.toNat)

/-- ANDN (04 R90) -/
def semAndn (p : BitVec 4) (d a b : BitVec 5) : Sem :=
  aluSem p d [a, b] 1 (fun c => c.sreg a.toNat &&& ~~~(c.sreg b.toNat))

/-- SHL (04 R90) -/
def semShl (p : BitVec 4) (d a b : BitVec 5) : Sem :=
  aluSem p d [a, b] 1 (fun c => shlWord (c.sreg a.toNat) (amount6 (c.sreg b.toNat)))

/-- SHR (04 R90) -/
def semShr (p : BitVec 4) (d a b : BitVec 5) : Sem :=
  aluSem p d [a, b] 1 (fun c => shrWord (c.sreg a.toNat) (amount6 (c.sreg b.toNat)))

/-- SAR (04 R90) -/
def semSar (p : BitVec 4) (d a b : BitVec 5) : Sem :=
  aluSem p d [a, b] 1 (fun c => sarWord (c.sreg a.toNat) (amount6 (c.sreg b.toNat)))

/-- ROR (04 R90) -/
def semRor (p : BitVec 4) (d a b : BitVec 5) : Sem :=
  aluSem p d [a, b] 1 (fun c => rorWord (c.sreg a.toNat) (amount6 (c.sreg b.toNat)))

/-- MUL (04 R90) -/
def semMul (p : BitVec 4) (d a b : BitVec 5) : Sem :=
  aluSem p d [a, b] 3 (fun c => c.sreg a.toNat * c.sreg b.toNat)

/-- MULH (04 R90) -/
def semMulh (p : BitVec 4) (d a b : BitVec 5) : Sem :=
  aluSem p d [a, b] 3 (fun c => mulHigh (c.sreg a.toNat) (c.sreg b.toNat))

/-- MULHU (04 R90) -/
def semMulhu (p : BitVec 4) (d a b : BitVec 5) : Sem :=
  aluSem p d [a, b] 3 (fun c => mulHighU (c.sreg a.toNat) (c.sreg b.toNat))

/-- DIV (04 R91) -/
def semDiv (p : BitVec 4) (d a b : BitVec 5) : Sem :=
  aluSem p d [a, b] 20 (fun c => divWord (c.sreg a.toNat) (c.sreg b.toNat))

/-- DIVU (04 R91) -/
def semDivu (p : BitVec 4) (d a b : BitVec 5) : Sem :=
  aluSem p d [a, b] 20 (fun c => divuWord (c.sreg a.toNat) (c.sreg b.toNat))

/-- REM (04 R91) -/
def semRem (p : BitVec 4) (d a b : BitVec 5) : Sem :=
  aluSem p d [a, b] 20 (fun c => remWord (c.sreg a.toNat) (c.sreg b.toNat))

/-- REMU (04 R91) -/
def semRemu (p : BitVec 4) (d a b : BitVec 5) : Sem :=
  aluSem p d [a, b] 20 (fun c => remuWord (c.sreg a.toNat) (c.sreg b.toNat))

/-- MIN (04 R90) -/
def semMin (p : BitVec 4) (d a b : BitVec 5) : Sem :=
  aluSem p d [a, b] 1 (fun c => if (c.sreg a.toNat).toInt ≤ (c.sreg b.toNat).toInt then (c.sreg a.toNat) else (c.sreg b.toNat))

/-- MAX (04 R90) -/
def semMax (p : BitVec 4) (d a b : BitVec 5) : Sem :=
  aluSem p d [a, b] 1 (fun c => if (c.sreg b.toNat).toInt ≤ (c.sreg a.toNat).toInt then (c.sreg a.toNat) else (c.sreg b.toNat))

/-- MINU (04 R90) -/
def semMinu (p : BitVec 4) (d a b : BitVec 5) : Sem :=
  aluSem p d [a, b] 1 (fun c => if (c.sreg a.toNat).toNat ≤ (c.sreg b.toNat).toNat then (c.sreg a.toNat) else (c.sreg b.toNat))

/-- MAXU (04 R90) -/
def semMaxu (p : BitVec 4) (d a b : BitVec 5) : Sem :=
  aluSem p d [a, b] 1 (fun c => if (c.sreg b.toNat).toNat ≤ (c.sreg a.toNat).toNat then (c.sreg a.toNat) else (c.sreg b.toNat))

/-- FADD (04 R101) -/
def semFadd (p : BitVec 4) (d a b : BitVec 5) : Sem :=
  aluSem p d [a, b] 5 (fun c => fpWord (fAdd fp32 (low32 (c.sreg a.toNat)) (low32 (c.sreg b.toNat))))

/-- FSUB (04 R101) -/
def semFsub (p : BitVec 4) (d a b : BitVec 5) : Sem :=
  aluSem p d [a, b] 5 (fun c => fpWord (fSub fp32 (low32 (c.sreg a.toNat)) (low32 (c.sreg b.toNat))))

/-- FMUL (04 R101) -/
def semFmul (p : BitVec 4) (d a b : BitVec 5) : Sem :=
  aluSem p d [a, b] 5 (fun c => fpWord (fMul fp32 (low32 (c.sreg a.toNat)) (low32 (c.sreg b.toNat))))

/-- FMA: sd is the addend (04 R101) -/
def semFma (p : BitVec 4) (d a b : BitVec 5) : Sem :=
  aluSem p d [a, b, d] 5
    (fun c => fpWord (fMulAdd fp32 (low32 (c.sreg a.toNat)) (low32 (c.sreg b.toNat)) (low32 (c.sreg d.toNat))))

/-- FSHL (04 R92) -/
def semFshl (p : BitVec 4) (d a b x : BitVec 5) : Sem :=
  aluSem p d [a, b, x] 1 (fun c => fshlWord (c.sreg a.toNat) (c.sreg b.toNat) (amount6 (c.sreg x.toNat)))

/-- FSHR (04 R92) -/
def semFshr (p : BitVec 4) (d a b x : BitVec 5) : Sem :=
  aluSem p d [a, b, x] 1 (fun c => fshrWord (c.sreg a.toNat) (c.sreg b.toNat) (amount6 (c.sreg x.toNat)))

/-- SEL (04 R98) -/
def semSel (p : BitVec 4) (d a b : BitVec 5) (f : BitVec 4) : Sem :=
  aluSem p d [a, b] 1 (fun c => if c.flag f.toNat then c.sreg a.toNat else c.sreg b.toNat)

/-- CLZ (04 R93) -/
def semClz (p : BitVec 4) (d a : BitVec 5) : Sem :=
  aluSem p d [a] 1 (fun c => clzWord (c.sreg a.toNat))

/-- POPC (04 R93) -/
def semPopc (p : BitVec 4) (d a : BitVec 5) : Sem :=
  aluSem p d [a] 1 (fun c => popcWord (c.sreg a.toNat))

/-- BREV (04 R93) -/
def semBrev (p : BitVec 4) (d a : BitVec 5) : Sem :=
  aluSem p d [a] 1 (fun c => brevWord (c.sreg a.toNat))

/-- ADDI (04 R94) -/
def semAddi (p : BitVec 4) (d a : BitVec 5) (i : BitVec 12) : Sem :=
  aluSem p d [a] 1 (fun c => c.sreg a.toNat + sext i)

/-- ANDI (04 R94) -/
def semAndi (p : BitVec 4) (d a : BitVec 5) (i : BitVec 12) : Sem :=
  aluSem p d [a] 1 (fun c => c.sreg a.toNat &&& zext i)

/-- ORI (04 R94) -/
def semOri (p : BitVec 4) (d a : BitVec 5) (i : BitVec 12) : Sem :=
  aluSem p d [a] 1 (fun c => c.sreg a.toNat ||| zext i)

/-- XORI (04 R94) -/
def semXori (p : BitVec 4) (d a : BitVec 5) (i : BitVec 12) : Sem :=
  aluSem p d [a] 1 (fun c => c.sreg a.toNat ^^^ zext i)

/-- SHLI (04 R94) -/
def semShli (p : BitVec 4) (d a : BitVec 5) (h : BitVec 6) : Sem :=
  aluSem p d [a] 1 (fun c => shlWord (c.sreg a.toNat) h.toNat)

/-- SHRI (04 R94) -/
def semShri (p : BitVec 4) (d a : BitVec 5) (h : BitVec 6) : Sem :=
  aluSem p d [a] 1 (fun c => shrWord (c.sreg a.toNat) h.toNat)

/-- SARI (04 R94) -/
def semSari (p : BitVec 4) (d a : BitVec 5) (h : BitVec 6) : Sem :=
  aluSem p d [a] 1 (fun c => sarWord (c.sreg a.toNat) h.toNat)

/-- RORI (04 R94) -/
def semRori (p : BitVec 4) (d a : BitVec 5) (h : BitVec 6) : Sem :=
  aluSem p d [a] 1 (fun c => rorWord (c.sreg a.toNat) h.toNat)

/-- MOVI (04 R95) -/
def semMovi (p : BitVec 4) (d : BitVec 5) (i : BitVec 17) : Sem :=
  aluSem p d [] 1 (fun _ => sext i)

/-- MOVS: sd is its own source (04 R95) -/
def semMovs (p : BitVec 4) (d : BitVec 5) (i : BitVec 16) : Sem :=
  aluSem p d [d] 1 (fun c => movsWord (c.sreg d.toNat) i)

/-- CMP (04 R97) -/
def semCmp (p f c : BitVec 4) (a b : BitVec 5) : Sem :=
  cmpSem p f [a, b] (fun x => intCond c (x.sreg a.toNat) (x.sreg b.toNat))

/-- CMPI (04 R97) -/
def semCmpi (p f c : BitVec 4) (a : BitVec 5) (i : BitVec 9) : Sem :=
  cmpSem p f [a] (fun x => intCond c (x.sreg a.toNat) (sext i))

/-- CB (04 R99) -/
def semCb (p c : BitVec 4) (a b : BitVec 5) (o : BitVec 8) : Sem :=
  cbSem p c a b o

/-- FCMP (04 R102) -/
def semFcmp (p f c : BitVec 4) (a b : BitVec 5) : Sem :=
  cmpSem p f [a, b]
    (fun x => floatCond c (fp32.read (low32 (x.sreg a.toNat))) (fp32.read (low32 (x.sreg b.toNat))))

/-- FCVT (04 R103) -/
def semFcvt (p : BitVec 4) (d a : BitVec 5) (s t : BitVec 4) : Sem :=
  aluSem p d [a] 3 (fun c => fcvtWord t s (c.sreg a.toNat))


/-! ## The instructions, each as a bundle of its own -/

/-- ADD as a bundle of its own. -/
def execAdd (p : BitVec 4) (d : BitVec 5) (a : BitVec 5) (b : BitVec 5) (s : State) : Host.Outcome State Fault Refusal :=
  issueOne 1 (.add p d a b) (semAdd p d a b) s

/-- SUB as a bundle of its own. -/
def execSub (p : BitVec 4) (d : BitVec 5) (a : BitVec 5) (b : BitVec 5) (s : State) : Host.Outcome State Fault Refusal :=
  issueOne 1 (.sub p d a b) (semSub p d a b) s

/-- AND as a bundle of its own. -/
def execAnd (p : BitVec 4) (d : BitVec 5) (a : BitVec 5) (b : BitVec 5) (s : State) : Host.Outcome State Fault Refusal :=
  issueOne 1 (.and p d a b) (semAnd p d a b) s

/-- OR as a bundle of its own. -/
def execOr (p : BitVec 4) (d : BitVec 5) (a : BitVec 5) (b : BitVec 5) (s : State) : Host.Outcome State Fault Refusal :=
  issueOne 1 (.or p d a b) (semOr p d a b) s

/-- XOR as a bundle of its own. -/
def execXor (p : BitVec 4) (d : BitVec 5) (a : BitVec 5) (b : BitVec 5) (s : State) : Host.Outcome State Fault Refusal :=
  issueOne 1 (.xor p d a b) (semXor p d a b) s

/-- ANDN as a bundle of its own. -/
def execAndn (p : BitVec 4) (d : BitVec 5) (a : BitVec 5) (b : BitVec 5) (s : State) : Host.Outcome State Fault Refusal :=
  issueOne 1 (.andn p d a b) (semAndn p d a b) s

/-- SHL as a bundle of its own. -/
def execShl (p : BitVec 4) (d : BitVec 5) (a : BitVec 5) (b : BitVec 5) (s : State) : Host.Outcome State Fault Refusal :=
  issueOne 1 (.shl p d a b) (semShl p d a b) s

/-- SHR as a bundle of its own. -/
def execShr (p : BitVec 4) (d : BitVec 5) (a : BitVec 5) (b : BitVec 5) (s : State) : Host.Outcome State Fault Refusal :=
  issueOne 1 (.shr p d a b) (semShr p d a b) s

/-- SAR as a bundle of its own. -/
def execSar (p : BitVec 4) (d : BitVec 5) (a : BitVec 5) (b : BitVec 5) (s : State) : Host.Outcome State Fault Refusal :=
  issueOne 1 (.sar p d a b) (semSar p d a b) s

/-- ROR as a bundle of its own. -/
def execRor (p : BitVec 4) (d : BitVec 5) (a : BitVec 5) (b : BitVec 5) (s : State) : Host.Outcome State Fault Refusal :=
  issueOne 1 (.ror p d a b) (semRor p d a b) s

/-- FSHL as a bundle of its own. -/
def execFshl (p : BitVec 4) (d : BitVec 5) (a : BitVec 5) (b : BitVec 5) (x : BitVec 5) (s : State) : Host.Outcome State Fault Refusal :=
  issueOne 1 (.fshl p d a b x) (semFshl p d a b x) s

/-- FSHR as a bundle of its own. -/
def execFshr (p : BitVec 4) (d : BitVec 5) (a : BitVec 5) (b : BitVec 5) (x : BitVec 5) (s : State) : Host.Outcome State Fault Refusal :=
  issueOne 1 (.fshr p d a b x) (semFshr p d a b x) s

/-- MUL as a bundle of its own. -/
def execMul (p : BitVec 4) (d : BitVec 5) (a : BitVec 5) (b : BitVec 5) (s : State) : Host.Outcome State Fault Refusal :=
  issueOne 1 (.mul p d a b) (semMul p d a b) s

/-- MULH as a bundle of its own. -/
def execMulh (p : BitVec 4) (d : BitVec 5) (a : BitVec 5) (b : BitVec 5) (s : State) : Host.Outcome State Fault Refusal :=
  issueOne 1 (.mulh p d a b) (semMulh p d a b) s

/-- MULHU as a bundle of its own. -/
def execMulhu (p : BitVec 4) (d : BitVec 5) (a : BitVec 5) (b : BitVec 5) (s : State) : Host.Outcome State Fault Refusal :=
  issueOne 1 (.mulhu p d a b) (semMulhu p d a b) s

/-- DIV as a bundle of its own. -/
def execDiv (p : BitVec 4) (d : BitVec 5) (a : BitVec 5) (b : BitVec 5) (s : State) : Host.Outcome State Fault Refusal :=
  issueOne 1 (.div p d a b) (semDiv p d a b) s

/-- DIVU as a bundle of its own. -/
def execDivu (p : BitVec 4) (d : BitVec 5) (a : BitVec 5) (b : BitVec 5) (s : State) : Host.Outcome State Fault Refusal :=
  issueOne 1 (.divu p d a b) (semDivu p d a b) s

/-- REM as a bundle of its own. -/
def execRem (p : BitVec 4) (d : BitVec 5) (a : BitVec 5) (b : BitVec 5) (s : State) : Host.Outcome State Fault Refusal :=
  issueOne 1 (.rem p d a b) (semRem p d a b) s

/-- REMU as a bundle of its own. -/
def execRemu (p : BitVec 4) (d : BitVec 5) (a : BitVec 5) (b : BitVec 5) (s : State) : Host.Outcome State Fault Refusal :=
  issueOne 1 (.remu p d a b) (semRemu p d a b) s

/-- MIN as a bundle of its own. -/
def execMin (p : BitVec 4) (d : BitVec 5) (a : BitVec 5) (b : BitVec 5) (s : State) : Host.Outcome State Fault Refusal :=
  issueOne 1 (.min p d a b) (semMin p d a b) s

/-- MAX as a bundle of its own. -/
def execMax (p : BitVec 4) (d : BitVec 5) (a : BitVec 5) (b : BitVec 5) (s : State) : Host.Outcome State Fault Refusal :=
  issueOne 1 (.max p d a b) (semMax p d a b) s

/-- MINU as a bundle of its own. -/
def execMinu (p : BitVec 4) (d : BitVec 5) (a : BitVec 5) (b : BitVec 5) (s : State) : Host.Outcome State Fault Refusal :=
  issueOne 1 (.minu p d a b) (semMinu p d a b) s

/-- MAXU as a bundle of its own. -/
def execMaxu (p : BitVec 4) (d : BitVec 5) (a : BitVec 5) (b : BitVec 5) (s : State) : Host.Outcome State Fault Refusal :=
  issueOne 1 (.maxu p d a b) (semMaxu p d a b) s

/-- SEL as a bundle of its own. -/
def execSel (p : BitVec 4) (d : BitVec 5) (a : BitVec 5) (b : BitVec 5) (f : BitVec 4) (s : State) : Host.Outcome State Fault Refusal :=
  issueOne 1 (.sel p d a b f) (semSel p d a b f) s

/-- CLZ as a bundle of its own. -/
def execClz (p : BitVec 4) (d : BitVec 5) (a : BitVec 5) (s : State) : Host.Outcome State Fault Refusal :=
  issueOne 1 (.clz p d a) (semClz p d a) s

/-- POPC as a bundle of its own. -/
def execPopc (p : BitVec 4) (d : BitVec 5) (a : BitVec 5) (s : State) : Host.Outcome State Fault Refusal :=
  issueOne 1 (.popc p d a) (semPopc p d a) s

/-- BREV as a bundle of its own. -/
def execBrev (p : BitVec 4) (d : BitVec 5) (a : BitVec 5) (s : State) : Host.Outcome State Fault Refusal :=
  issueOne 1 (.brev p d a) (semBrev p d a) s

/-- ADDI as a bundle of its own. -/
def execAddi (p : BitVec 4) (d : BitVec 5) (a : BitVec 5) (i : BitVec 12) (s : State) : Host.Outcome State Fault Refusal :=
  issueOne 1 (.addi p d a i) (semAddi p d a i) s

/-- ANDI as a bundle of its own. -/
def execAndi (p : BitVec 4) (d : BitVec 5) (a : BitVec 5) (i : BitVec 12) (s : State) : Host.Outcome State Fault Refusal :=
  issueOne 1 (.andi p d a i) (semAndi p d a i) s

/-- ORI as a bundle of its own. -/
def execOri (p : BitVec 4) (d : BitVec 5) (a : BitVec 5) (i : BitVec 12) (s : State) : Host.Outcome State Fault Refusal :=
  issueOne 1 (.ori p d a i) (semOri p d a i) s

/-- XORI as a bundle of its own. -/
def execXori (p : BitVec 4) (d : BitVec 5) (a : BitVec 5) (i : BitVec 12) (s : State) : Host.Outcome State Fault Refusal :=
  issueOne 1 (.xori p d a i) (semXori p d a i) s

/-- SHLI as a bundle of its own. -/
def execShli (p : BitVec 4) (d : BitVec 5) (a : BitVec 5) (h : BitVec 6) (s : State) : Host.Outcome State Fault Refusal :=
  issueOne 1 (.shli p d a h) (semShli p d a h) s

/-- SHRI as a bundle of its own. -/
def execShri (p : BitVec 4) (d : BitVec 5) (a : BitVec 5) (h : BitVec 6) (s : State) : Host.Outcome State Fault Refusal :=
  issueOne 1 (.shri p d a h) (semShri p d a h) s

/-- SARI as a bundle of its own. -/
def execSari (p : BitVec 4) (d : BitVec 5) (a : BitVec 5) (h : BitVec 6) (s : State) : Host.Outcome State Fault Refusal :=
  issueOne 1 (.sari p d a h) (semSari p d a h) s

/-- RORI as a bundle of its own. -/
def execRori (p : BitVec 4) (d : BitVec 5) (a : BitVec 5) (h : BitVec 6) (s : State) : Host.Outcome State Fault Refusal :=
  issueOne 1 (.rori p d a h) (semRori p d a h) s

/-- MOVI as a bundle of its own. -/
def execMovi (p : BitVec 4) (d : BitVec 5) (i : BitVec 17) (s : State) : Host.Outcome State Fault Refusal :=
  issueOne 1 (.movi p d i) (semMovi p d i) s

/-- MOVS as a bundle of its own. -/
def execMovs (p : BitVec 4) (d : BitVec 5) (i : BitVec 16) (s : State) : Host.Outcome State Fault Refusal :=
  issueOne 1 (.movs p d i) (semMovs p d i) s

/-- CMP as a bundle of its own. -/
def execCmp (p : BitVec 4) (f : BitVec 4) (c : BitVec 4) (a : BitVec 5) (b : BitVec 5) (s : State) : Host.Outcome State Fault Refusal :=
  issueOne 1 (.cmp p f c a b) (semCmp p f c a b) s

/-- CMPI as a bundle of its own. -/
def execCmpi (p : BitVec 4) (f : BitVec 4) (c : BitVec 4) (a : BitVec 5) (i : BitVec 9) (s : State) : Host.Outcome State Fault Refusal :=
  issueOne 1 (.cmpi p f c a i) (semCmpi p f c a i) s

/-- CB as a bundle of its own. -/
def execCb (p : BitVec 4) (c : BitVec 4) (a : BitVec 5) (b : BitVec 5) (o : BitVec 8) (s : State) : Host.Outcome State Fault Refusal :=
  issueOne 1 (.cb p c a b o) (semCb p c a b o) s

/-- FADD as a bundle of its own. -/
def execFadd (p : BitVec 4) (d : BitVec 5) (a : BitVec 5) (b : BitVec 5) (s : State) : Host.Outcome State Fault Refusal :=
  issueOne 1 (.fadd p d a b) (semFadd p d a b) s

/-- FSUB as a bundle of its own. -/
def execFsub (p : BitVec 4) (d : BitVec 5) (a : BitVec 5) (b : BitVec 5) (s : State) : Host.Outcome State Fault Refusal :=
  issueOne 1 (.fsub p d a b) (semFsub p d a b) s

/-- FMUL as a bundle of its own. -/
def execFmul (p : BitVec 4) (d : BitVec 5) (a : BitVec 5) (b : BitVec 5) (s : State) : Host.Outcome State Fault Refusal :=
  issueOne 1 (.fmul p d a b) (semFmul p d a b) s

/-- FMA as a bundle of its own. -/
def execFma (p : BitVec 4) (d : BitVec 5) (a : BitVec 5) (b : BitVec 5) (s : State) : Host.Outcome State Fault Refusal :=
  issueOne 1 (.fma p d a b) (semFma p d a b) s

/-- FCMP as a bundle of its own. -/
def execFcmp (p : BitVec 4) (f : BitVec 4) (c : BitVec 4) (a : BitVec 5) (b : BitVec 5) (s : State) : Host.Outcome State Fault Refusal :=
  issueOne 1 (.fcmp p f c a b) (semFcmp p f c a b) s

/-- FCVT as a bundle of its own. -/
def execFcvt (p : BitVec 4) (d : BitVec 5) (a : BitVec 5) (s : BitVec 4) (t : BitVec 4) (st : State) : Host.Outcome State Fault Refusal :=
  issueOne 1 (.fcvt p d a s t) (semFcvt p d a s t) st

end Sys2Proof.Machine
end

