-- ==== Sys2Proof/Machine/Vector.lean ====
section
/-! DEFINITION. The vector slots 4 and 5 (05_vector_instructions.md). -/
namespace Sys2Proof.Machine

/-! ## Lane operations -/

/-- 05 R113: shifts of a lane of width w by n. -/
def shlLane (w a n : Nat) : Nat := a * 2 ^ n % 2 ^ w
def shrLane (_w a n : Nat) : Nat := a / 2 ^ n
def sarLane (w a n : Nat) : Nat := toLane w (laneInt w a / 2 ^ n)
/-- The amount: bits [log2 w − 1 : 0]. -/
def laneAmount (w b : Nat) : Nat := b % w

/-- 05 R114. -/
def fshlLane (w a b d : Nat) : Nat := (a * 2 ^ w + b) * 2 ^ (laneAmount w d) / 2 ^ w % 2 ^ w
def fshrLane (w a b d : Nat) : Nat := (a * 2 ^ w + b) / 2 ^ (laneAmount w d) % 2 ^ w

/-- MIN and MAX of a type (05 Table 5.6). -/
def minLane (t : BitVec 4) (a b : Nat) : Nat := if laneVal t a ≤ laneVal t b then a else b
def maxLane (t : BitVec 4) (a b : Nat) : Nat := if laneVal t b ≤ laneVal t a then a else b

/-- The floating lane operations of a type (05 Table 5.3). -/
def floatSem (p : BitVec 4) (d a b : BitVec 6) (t : BitVec 4) (l : Nat) (f : Fmt → Nat → Nat → Nat) : Sem :=
  vecSem p d [a, b] (laneWidth t) l (fun c => map2 (laneWidth t) (f (fmtOf t)) (c.vreg a.toNat) (c.vreg b.toNat))
def floatSem1 (p : BitVec 4) (d a : BitVec 6) (t : BitVec 4) (l : Nat) (f : Fmt → Nat → Nat) : Sem :=
  vecSem p d [a] (laneWidth t) l (fun c => map1 (laneWidth t) (f (fmtOf t)) (c.vreg a.toNat))
/-- The integer lane operations: w is the lane width (05 R113). -/
def intSem (p : BitVec 4) (d a b : BitVec 6) (t : BitVec 4) (f : Nat → Nat → Nat → Nat) : Sem :=
  vecSem p d [a, b] (laneWidth t) 1
    (fun c => map2 (laneWidth t) (f (laneWidth t)) (c.vreg a.toNat) (c.vreg b.toNat))
/-- A shift by an immediate. -/
def shiftImmSem (p : BitVec 4) (d a i : BitVec 6) (t : BitVec 4) (f : Nat → Nat → Nat → Nat) : Sem :=
  vecSem p d [a] (laneWidth t) 1 (fun c => map1 (laneWidth t) (fun x => f (laneWidth t) x i.toNat) (c.vreg a.toNat))
/-- A funnel shift: vd supplies the amounts (05 R114). -/
def funnelSem (p : BitVec 4) (d a b : BitVec 6) (t : BitVec 4) (f : Nat → Nat → Nat → Nat → Nat) : Sem :=
  vecSem p d [a, b, d] (laneWidth t) 1
    (fun c => map3 (laneWidth t) (f (laneWidth t)) (c.vreg a.toNat) (c.vreg b.toNat) (c.vreg d.toNat))

/-! ## CVT (Table 5.5) -/

/-- One converted value: source type s to destination type t. -/
def cvtValue (t s : BitVec 4) (x : Nat) : Nat :=
  if isFloat t then fConvert (fmtOf s) (fmtOf t) x
  else if t = 4 then toLane 32 (laneInt 16 x)
  else if t = 7 then x
  else if t = 3 then
    let v := laneInt 32 x
    toLane 16 (if v < -32768 then -32768 else if 32767 < v then 32767 else v)
  else if 65535 < x then 65535 else x

/-- 05 R112: a 16-bit source reads lanes 32h + j; a 16-bit destination writes lanes 32h + j under mask bit
32h + j. -/
def cvtResult (t s : BitVec 4) (h : BitVec 1) (a : Row) : Row :=
  if laneWidth s = 16 then ofLanes 32 (((lanes 16 a).drop (32 * h.toNat)).take 32 |>.map (cvtValue t s))
  else BitVec.ofNat 1024 (lanesNat 16 ((lanes 32 a).map (cvtValue t s)) * 2 ^ (512 * h.toNat))
def cvtBits (s : BitVec 4) (h : BitVec 1) (m : Word) : Row :=
  if laneWidth s = 16 then laneBits 32 m
  else laneBits 16 m &&& BitVec.ofNat 1024 ((2 ^ 512 - 1) * 2 ^ (512 * h.toNat))

/-! ## Masks (05 R108) -/

def maskSem (p : BitVec 4) (reads : List (BitVec 6)) (f : Env → Ctx → Option Ctx) : Sem :=
  { pred := p, vr := reads.map BitVec.toNat, depth := true
    run := fun e s =>
      match f e (s.ctx e.who) with
      | some c => .ok (s.setCtx e.who c)
      | none => trapNat Cause.maskStack 0 }

/-! ## Groups (05 R118, R119) -/

/-- The identity an inactive lane enters a tree with. -/
def redIdentity (k : BitVec 3) (t : BitVec 4) : Nat :=
  let w := laneWidth t
  if isFloat t then (if k = 0 then (fmtOf t).signBit else (fmtOf t).canon)
  else if k = 0 then 0
  else if k = 1 then (if signedType t then 2 ^ (w - 1) else 0)
  else (if signedType t then 2 ^ (w - 1) - 1 else 2 ^ w - 1)

/-- The operation of a reduction kind on a type (R79). -/
def redOp (k : BitVec 3) (t : BitVec 4) (a b : Nat) : Nat :=
  if k = 0 then (if isFloat t then fAdd (fmtOf t) a b else (a + b) % 2 ^ laneWidth t)
  else if k = 1 then (if isFloat t then maxNum (fmtOf t) a b else maxLane t a b)
  else (if isFloat t then minNum (fmtOf t) a b else minLane t a b)

/-- Lanes with the inactive ones replaced by an identity. -/
def maskedLanes (w : Nat) (m : Word) (ident : Nat) (a : Row) : List Nat :=
  List.zipWith (fun x j => if m.getLsbD j then x else ident) (lanes w a) (List.range (1024 / w))

def redResult (k l : BitVec 3) (t : BitVec 4) (m : Word) (a : Row) : Row :=
  let w := laneWidth t
  let n := 2 ^ l.toNat
  ofLanes w ((groupsOf n (1024 / w / n) (maskedLanes w m (redIdentity k t) a)).flatMap
    (fun g => List.replicate n (treeRed (redOp k t) l.toNat g)))

/-- 03 R80: the scans of one group; k 0 is inclusive, k 1 exclusive. -/
def scanGroup (k : BitVec 3) (t : BitVec 4) (g : List Nat) : List Nat :=
  let first := fun x => if isFloat t then roundNE ((fmtOf t).read x) (fmtOf t) else x
  let y := scanIncl (redOp 0 t) first g
  if k = 0 then y else (0 :: y).take g.length

def scanResult (k l : BitVec 3) (t : BitVec 4) (m : Word) (a : Row) : Row :=
  let w := laneWidth t
  let n := 2 ^ l.toNat
  ofLanes w ((groupsOf n (1024 / w / n) (maskedLanes w m (redIdentity 0 t) a)).flatMap (scanGroup k t))

/-! ## Bounds (05 R120) -/

/-- A lane as an exact value. -/
def laneFV (t : BitVec 4) (x : Nat) : FV := if isFloat t then (fmtOf t).read x else .ofInt (laneInt (laneWidth t) x) 0

/-- ⌈v⌉ or ⌊v⌋ of a finite value. -/
def FV.ceil : FV → Int
  | .num s m e => if 0 ≤ e then FV.scaled 0 (.num s m e) else -((-(if s then -(m : Int) else m)) / 2 ^ (-e).toNat)
  | _ => 0
def FV.floor : FV → Int
  | .num s m e => if 0 ≤ e then FV.scaled 0 (.num s m e) else (if s then -(m : Int) else m) / 2 ^ (-e).toNat
  | _ => 0

/-- The least value of integer type t not below low, or the greatest value when there is none; and its mirror. -/
def clampLowInt (w : Nat) (low : FV) : Nat :=
  match low with
  | .inf false => 2 ^ (w - 1) - 1
  | .num s m e =>
    let v := FV.ceil (.num s m e)
    toLane w (if 2 ^ (w - 1) - 1 < v then 2 ^ (w - 1) - 1 else if v < -2 ^ (w - 1) then -2 ^ (w - 1) else v)
  | _ => 2 ^ (w - 1)
def clampHighInt (w : Nat) (high : FV) : Nat :=
  match high with
  | .inf true => 2 ^ (w - 1)
  | .num s m e =>
    let v := FV.floor (.num s m e)
    toLane w (if v < -2 ^ (w - 1) then -2 ^ (w - 1) else if 2 ^ (w - 1) - 1 < v then 2 ^ (w - 1) - 1 else v)
  | _ => 2 ^ (w - 1) - 1

/-- Next value above or below in the order of a floating format's encodings, for the directed roundings of a bound:
the encoding of the nearest value, moved when it lies on the wrong side. -/
def floatUp (f : Fmt) (x : Nat) : Nat :=
  if x % f.signBit = 0 then 1
  else if f.signBit ≤ x then x - 1
  else x + 1
def floatDown (f : Fmt) (x : Nat) : Nat :=
  if x % f.signBit = 0 then f.signBit + 1
  else if f.signBit ≤ x then x + 1
  else x - 1
/-- The least value of a format not below low, and the greatest not above high; a zero keeps the sign with which the bound
rounds (DESIGN CHOICE, log 83: the spec takes bounds as reals). -/
def clampLowFloat (f : Fmt) (low : FV) : Nat :=
  let x := roundNE low f
  if (f.read x).cmp low = -1 then floatUp f x else x
def clampHighFloat (f : Fmt) (high : FV) : Nat :=
  let x := roundNE high f
  if (f.read x).cmp high = 1 then floatDown f x else x

def violates (low high x : FV) : Bool := x.isNan || decide (x.cmp low = -1) || decide (x.cmp high = 1)

/-- A lane after policy clamp. -/
def clampLane (t : BitVec 4) (low high : FV) (x : Nat) : Nat :=
  let v := laneFV t x
  if v.isNan || decide (v.cmp low = -1) then
    (if isFloat t then clampLowFloat (fmtOf t) low else clampLowInt (laneWidth t) low)
  else if v.cmp high = 1 then
    (if isFloat t then clampHighFloat (fmtOf t) high else clampHighInt (laneWidth t) high)
  else x

/-- The count of a bound register grows by n, saturating (05 R120, 07 R166). -/
def BoundReg.addCount (b : BoundReg) (n : Nat) : BoundReg :=
  { b with count := if 2 ^ 32 - 1 < b.count.toNat + n then BitVec.allOnes 32 else b.count + BitVec.ofNat 32 n }

/-- CHKB: flag and clamp count the violating active lanes at issue; trap traps on any. -/
def chkbRun (d a : BitVec 6) (g t : BitVec 4) (e : Env) (s : State) : Res :=
  let w := laneWidth t
  let b := (s.hold e.who.core).bounds.get {} g.toNat
  let low := fp32.read b.low.toNat
  let high := fp32.read b.high.toNat
  let xs := lanes w (e.ctx.vreg a.toNat)
  let bad := (List.range (1024 / w)).filter (fun j => e.lanes.getLsbD j && violates low high (laneFV t (xs.getD j 0)))
  if b.pol = 2 ∧ bad ≠ [] then trapNat Cause.bound (g.toNat + 256 * bad.headD 0)
  else
    let v := if b.pol = 1 then ofLanes w (xs.map (clampLane t low high)) else e.ctx.vreg a.toNat
    .ok ((putVector e 1 d.toNat v (laneBits w e.lanes) s).updHold e.who.core
      (fun h => { h with bounds := h.bounds.put g.toNat (b.addCount bad.length) }))

/-! ## Moves -/

/-- 05 R117: bytes n to n + 127 of vd followed by va. -/
def rotmResult (n : Nat) (d a : Row) : Row := BitVec.ofNat 1024 ((d.toNat + a.toNat * 2 ^ 1024) / 2 ^ (8 * n))
/-- 05 R116. -/
def permResult (w : Nat) (a b : Row) : Row := ofLanes w ((lanes w b).map (fun x => lane w a (x % (1024 / w))))
def bcastResult (w n : Nat) (a : Row) : Row := ofLanes w (List.replicate (1024 / w) (lane w a n))
/-- 05 R115: every lane of vd is written. -/
def selResult (w : Nat) (m : Word) (a b : Row) : Row :=
  let k := laneBits w m
  (a &&& k) ||| (b &&& ~~~k)

/-! ## Draws (05 R125 to R129) -/

/-- A draw uses the counter in force at its slot and advances it. -/
def drawRun (e : Env) (l d w : Nat) (f : Ctx → Nat → Nat) (s : State) : Res :=
  let c := s.ctx e.who
  let v := ofLanes w ((List.range (1024 / w)).map (f c))
  .ok ((putVector e l d v (laneBits w e.lanes) s).updCtx e.who (fun x => { x with drawCnt := x.drawCnt + 1 }))

/-- Draw(c, j) of the context's key, stream and counter. -/
def Ctx.draw (c : Ctx) (j : Nat) : BitVec 128 := Sys2Proof.Machine.draw c.key c.stream c.drawCnt (BitVec.ofNat 32 j)

/-- RNDF: the uniform grid of each format. -/
def uniform (t : BitVec 4) (x : BitVec 128) : Nat :=
  let k : Nat := if t = 0 then 24 else if t = 1 then 11 else 8
  roundNE (.num false (x.toNat % 2 ^ k) (-(k : Int))) (fmtOf t)

/-- R129: the index of the categorical sample over 32 weights. -/
def sampleIndex (ws : List Nat) (u : Nat) : Nat :=
  let y := scanIncl (fAdd fp32) (fun x => roundNE (fp32.read x) fp32) ws
  let top := fp32.read (y.getD 31 0)
  if top.isNan || top.isInf || decide (top.cmp (.num false 0 0) ≠ 1) then 2 ^ 32 - 1
  else
    let bar := exactProduct (.num false u (-24)) top
    ((List.range 32).find? (fun j => decide ((fp32.read (y.getD j 0)).cmp bar = 1))).getD 31

def sampcRun (d a : BitVec 6) (e : Env) (s : State) : Res :=
  let c := s.ctx e.who
  let ws := maskedLanes 32 e.lanes 0 (e.ctx.vreg a.toNat)
  let r := sampleIndex ws ((c.draw 0).toNat % 2 ^ 24)
  .ok ((putVector e 12 d.toNat (ofLanes 32 (List.replicate 32 r)) (laneBits 32 e.lanes) s).updCtx e.who
    (fun x => { x with drawCnt := x.drawCnt + 1 }))

/-- FADD in the V slot (05 R109, R110) -/
def semVFadd (p : BitVec 4) (d a b : BitVec 6) (t : BitVec 4) : Sem :=
  floatSem p d a b t 5 fAdd

/-- FSUB in the V slot (05 R109, R110) -/
def semVFsub (p : BitVec 4) (d a b : BitVec 6) (t : BitVec 4) : Sem :=
  floatSem p d a b t 5 fSub

/-- FMUL in the V slot (05 R109, R110) -/
def semVFmul (p : BitVec 4) (d a b : BitVec 6) (t : BitVec 4) : Sem :=
  floatSem p d a b t 5 fMul

/-- FMIN in the V slot (05 R109, R110) -/
def semVFmin (p : BitVec 4) (d a b : BitVec 6) (t : BitVec 4) : Sem :=
  floatSem p d a b t 1 minNum

/-- FMAX in the V slot (05 R109, R110) -/
def semVFmax (p : BitVec 4) (d a b : BitVec 6) (t : BitVec 4) : Sem :=
  floatSem p d a b t 1 maxNum

/-- FMA: vd is the addend (05 R109) -/
def semVFma (p : BitVec 4) (d a b : BitVec 6) (t : BitVec 4) : Sem :=
  vecSem p d [a, b, d] (laneWidth t) 5
    (fun c => map3 (laneWidth t) (fMulAdd (fmtOf t)) (c.vreg a.toNat) (c.vreg b.toNat) (c.vreg d.toNat))

/-- FABS (05 R109) -/
def semFabs (p : BitVec 4) (d a : BitVec 6) (t : BitVec 4) : Sem :=
  floatSem1 p d a t 1 fAbs

/-- FNEG (05 R109) -/
def semFneg (p : BitVec 4) (d a : BitVec 6) (t : BitVec 4) : Sem :=
  floatSem1 p d a t 1 fNeg

/-- RCP (05 R111) -/
def semRcp (p : BitVec 4) (d a : BitVec 6) : Sem :=
  floatSem1 p d a 0 12 (fun f x => roundNE (exactRcp (f.read x)) f)

/-- RSQRT (05 R111) -/
def semRsqrt (p : BitVec 4) (d a : BitVec 6) : Sem :=
  floatSem1 p d a 0 12 (fun f x => roundNE (exactRsqrt (f.read x)) f)

/-- EXP2 (05 R111) -/
def semExp2 (p : BitVec 4) (d a : BitVec 6) : Sem :=
  floatSem1 p d a 0 12 (fun f x => roundNE (exactExp2 (f.read x)) f)

/-- LOG2 (05 R111) -/
def semLog2 (p : BitVec 4) (d a : BitVec 6) : Sem :=
  floatSem1 p d a 0 12 (fun f x => roundNE (exactLog2 (f.read x)) f)

/-- CVT (05 R112) -/
def semCvt (p : BitVec 4) (d a : BitVec 6) (h : BitVec 1) (s t : BitVec 4) : Sem :=
  { pred := p, vr := [a.toNat], vw := [d.toNat]
    run := fun e st => .ok (putVector e (if isFloat t then 5 else 1) d.toNat (cvtResult t s h (e.ctx.vreg a.toNat))
      (cvtBits s h e.lanes) st) }

/-- ADD in the V slot (05 R113) -/
def semVAdd (p : BitVec 4) (d a b : BitVec 6) (t : BitVec 4) : Sem :=
  intSem p d a b t (fun w x y => (x + y) % 2 ^ w)

/-- SUB in the V slot (05 R113) -/
def semVSub (p : BitVec 4) (d a b : BitVec 6) (t : BitVec 4) : Sem :=
  intSem p d a b t (fun w x y => (x + 2 ^ w - y) % 2 ^ w)

/-- MUL in the V slot (05 R113) -/
def semVMul (p : BitVec 4) (d a b : BitVec 6) (t : BitVec 4) : Sem :=
  intSem p d a b t (fun w x y => x * y % 2 ^ w)

/-- MIN in the V slot (05 R113) -/
def semVMin (p : BitVec 4) (d a b : BitVec 6) (t : BitVec 4) : Sem :=
  intSem p d a b t (fun _ x y => minLane t x y)

/-- MAX in the V slot (05 R113) -/
def semVMax (p : BitVec 4) (d a b : BitVec 6) (t : BitVec 4) : Sem :=
  intSem p d a b t (fun _ x y => maxLane t x y)

/-- AND in the V slot (05 R113) -/
def semVAnd (p : BitVec 4) (d a b : BitVec 6) (t : BitVec 4) : Sem :=
  intSem p d a b t (fun _ x y => x &&& y)

/-- OR in the V slot (05 R113) -/
def semVOr (p : BitVec 4) (d a b : BitVec 6) (t : BitVec 4) : Sem :=
  intSem p d a b t (fun _ x y => x ||| y)

/-- XOR in the V slot (05 R113) -/
def semVXor (p : BitVec 4) (d a b : BitVec 6) (t : BitVec 4) : Sem :=
  intSem p d a b t (fun _ x y => x ^^^ y)

/-- SHL in the V slot (05 R113) -/
def semVShl (p : BitVec 4) (d a b : BitVec 6) (t : BitVec 4) : Sem :=
  intSem p d a b t (fun w x y => shlLane w x (laneAmount w y))

/-- SHR in the V slot (05 R113) -/
def semVShr (p : BitVec 4) (d a b : BitVec 6) (t : BitVec 4) : Sem :=
  intSem p d a b t (fun w x y => shrLane w x (laneAmount w y))

/-- SAR in the V slot (05 R113) -/
def semVSar (p : BitVec 4) (d a b : BitVec 6) (t : BitVec 4) : Sem :=
  intSem p d a b t (fun w x y => sarLane w x (laneAmount w y))

/-- SHLI in the V slot (05 R113) -/
def semVShli (p : BitVec 4) (d a i : BitVec 6) (t : BitVec 4) : Sem :=
  shiftImmSem p d a i t shlLane

/-- SHRI in the V slot (05 R113) -/
def semVShri (p : BitVec 4) (d a i : BitVec 6) (t : BitVec 4) : Sem :=
  shiftImmSem p d a i t shrLane

/-- SARI in the V slot (05 R113) -/
def semVSari (p : BitVec 4) (d a i : BitVec 6) (t : BitVec 4) : Sem :=
  shiftImmSem p d a i t sarLane

/-- FSHL in the V slot (05 R114) -/
def semVFshl (p : BitVec 4) (d a b : BitVec 6) (t : BitVec 4) : Sem :=
  funnelSem p d a b t fshlLane

/-- FSHR in the V slot (05 R114) -/
def semVFshr (p : BitVec 4) (d a b : BitVec 6) (t : BitVec 4) : Sem :=
  funnelSem p d a b t fshrLane

/-- CMPM (05 R108) -/
def semCmpm (p c : BitVec 4) (a b : BitVec 6) (t : BitVec 4) : Sem :=
  maskSem p [a, b] (fun e x =>
    some { x with mask := (x.parent &&& condMask c t (e.ctx.vreg a.toNat) (e.ctx.vreg b.toNat)) :: x.mask.tail })

/-- SEL in the V slot (05 R115) -/
def semVSel (p : BitVec 4) (d a b : BitVec 6) (t : BitVec 4) : Sem :=
  { pred := p, vr := [a.toNat, b.toNat], vw := [d.toNat]
    run := fun e s => .ok (putVector e 1 d.toNat
      (selResult (laneWidth t) e.lanes (e.ctx.vreg a.toNat) (e.ctx.vreg b.toNat)) allOnes s) }

/-- MPUSH (05 R108) -/
def semMpush (p c : BitVec 4) (a b : BitVec 6) (t : BitVec 4) : Sem :=
  maskSem p [a, b] (fun e x =>
    if 16 ≤ x.mask.length then none
    else some { x with mask := (x.top &&& condMask c t (e.ctx.vreg a.toNat) (e.ctx.vreg b.toNat)) :: x.mask })

/-- MINV (05 R108) -/
def semMinv (p : BitVec 4) : Sem :=
  maskSem p [] (fun _ x => some { x with mask := (x.parent &&& ~~~x.top) :: x.mask.tail })

/-- MPOP (05 R108) -/
def semMpop (p : BitVec 4) : Sem :=
  maskSem p [] (fun _ x => if x.mask.length ≤ 1 then none else some { x with mask := x.mask.tail })

/-- CHKB (05 R120) -/
def semChkb (p : BitVec 4) (d a : BitVec 6) (g t : BitVec 4) : Sem :=
  { pred := p, vr := [a.toNat], vw := [d.toNat], run := chkbRun d a g t }

/-- RED (05 R118) -/
def semRed (p : BitVec 4) (d a : BitVec 6) (l k : BitVec 3) (t : BitVec 4) : Sem :=
  { pred := p, vr := [a.toNat], vw := [d.toNat]
    run := fun e s => .ok (putVector e 6 d.toNat (redResult k l t e.lanes (e.ctx.vreg a.toNat))
      (laneBits (laneWidth t) e.lanes) s) }

/-- SCAN (05 R119) -/
def semScan (p : BitVec 4) (d a : BitVec 6) (l k : BitVec 3) (t : BitVec 4) : Sem :=
  { pred := p, vr := [a.toNat], vw := [d.toNat]
    run := fun e s => .ok (putVector e 6 d.toNat (scanResult k l t e.lanes (e.ctx.vreg a.toNat))
      (laneBits (laneWidth t) e.lanes) s) }

/-- BCAST (05 R116) -/
def semBcast (p : BitVec 4) (d a i : BitVec 6) (t : BitVec 4) : Sem :=
  vecSem p d [a] (laneWidth t) 1 (fun c => bcastResult (laneWidth t) i.toNat (c.vreg a.toNat))

/-- PERM (05 R116) -/
def semPerm (p : BitVec 4) (d a b : BitVec 6) (t : BitVec 4) : Sem :=
  vecSem p d [a, b] (laneWidth t) 1 (fun c => permResult (laneWidth t) (c.vreg a.toNat) (c.vreg b.toNat))

/-- ROTM (05 R117) -/
def semRotm (p : BitVec 4) (d a : BitVec 6) (n : BitVec 7) : Sem :=
  { pred := p, vr := [a.toNat, d.toNat], vw := [d.toNat]
    run := fun e s => .ok (putVector e 1 d.toNat (rotmResult n.toNat (e.ctx.vreg d.toNat) (e.ctx.vreg a.toNat))
      allOnes s) }

/-- RNDB (05 R127) -/
def semRndb (p : BitVec 4) (d : BitVec 6) : Sem :=
  { pred := p, vw := [d.toNat]
    run := fun e s => drawRun e 4 d.toNat 16 (fun c j => (c.draw j).toNat % 2 ^ 16) s }

/-- RNDF (05 R127) -/
def semRndf (p : BitVec 4) (d : BitVec 6) (t : BitVec 4) : Sem :=
  { pred := p, vw := [d.toNat]
    run := fun e s => drawRun e 4 d.toNat (laneWidth t) (fun c j => uniform t (c.draw j)) s }

/-- RNDI (05 R127) -/
def semRndi (p : BitVec 4) (d : BitVec 6) (a : BitVec 5) (t : BitVec 4) : Sem :=
  { pred := p, sr := [a.toNat], vw := [d.toNat]
    run := fun e s =>
      let w := laneWidth t
      let n := (e.ctx.sreg a.toNat).toNat % 2 ^ w
      drawRun e 4 d.toNat w (fun c j => (c.draw j).toNat % 2 ^ 64 * n / 2 ^ 64) s }

/-- SAMPC (05 R129) -/
def semSampc (p : BitVec 4) (d a : BitVec 6) : Sem :=
  { pred := p, vr := [a.toNat], vw := [d.toNat], run := sampcRun d a }


/-! ## The instructions, each as a bundle of its own -/

/-- V_FADD as a bundle of its own. -/
def execVFadd (p : BitVec 4) (d : BitVec 6) (a : BitVec 6) (b : BitVec 6) (t : BitVec 4) (s : State) : Host.Outcome State Fault Refusal :=
  issueOne 4 (.vFadd p d a b t) (semVFadd p d a b t) s

/-- V_FSUB as a bundle of its own. -/
def execVFsub (p : BitVec 4) (d : BitVec 6) (a : BitVec 6) (b : BitVec 6) (t : BitVec 4) (s : State) : Host.Outcome State Fault Refusal :=
  issueOne 4 (.vFsub p d a b t) (semVFsub p d a b t) s

/-- V_FMUL as a bundle of its own. -/
def execVFmul (p : BitVec 4) (d : BitVec 6) (a : BitVec 6) (b : BitVec 6) (t : BitVec 4) (s : State) : Host.Outcome State Fault Refusal :=
  issueOne 4 (.vFmul p d a b t) (semVFmul p d a b t) s

/-- V_FMA as a bundle of its own. -/
def execVFma (p : BitVec 4) (d : BitVec 6) (a : BitVec 6) (b : BitVec 6) (t : BitVec 4) (s : State) : Host.Outcome State Fault Refusal :=
  issueOne 4 (.vFma p d a b t) (semVFma p d a b t) s

/-- V_FMIN as a bundle of its own. -/
def execVFmin (p : BitVec 4) (d : BitVec 6) (a : BitVec 6) (b : BitVec 6) (t : BitVec 4) (s : State) : Host.Outcome State Fault Refusal :=
  issueOne 4 (.vFmin p d a b t) (semVFmin p d a b t) s

/-- V_FMAX as a bundle of its own. -/
def execVFmax (p : BitVec 4) (d : BitVec 6) (a : BitVec 6) (b : BitVec 6) (t : BitVec 4) (s : State) : Host.Outcome State Fault Refusal :=
  issueOne 4 (.vFmax p d a b t) (semVFmax p d a b t) s

/-- FABS as a bundle of its own. -/
def execFabs (p : BitVec 4) (d : BitVec 6) (a : BitVec 6) (t : BitVec 4) (s : State) : Host.Outcome State Fault Refusal :=
  issueOne 4 (.fabs p d a t) (semFabs p d a t) s

/-- FNEG as a bundle of its own. -/
def execFneg (p : BitVec 4) (d : BitVec 6) (a : BitVec 6) (t : BitVec 4) (s : State) : Host.Outcome State Fault Refusal :=
  issueOne 4 (.fneg p d a t) (semFneg p d a t) s

/-- RCP as a bundle of its own. -/
def execRcp (p : BitVec 4) (d : BitVec 6) (a : BitVec 6) (s : State) : Host.Outcome State Fault Refusal :=
  issueOne 4 (.rcp p d a) (semRcp p d a) s

/-- RSQRT as a bundle of its own. -/
def execRsqrt (p : BitVec 4) (d : BitVec 6) (a : BitVec 6) (s : State) : Host.Outcome State Fault Refusal :=
  issueOne 4 (.rsqrt p d a) (semRsqrt p d a) s

/-- EXP2 as a bundle of its own. -/
def execExp2 (p : BitVec 4) (d : BitVec 6) (a : BitVec 6) (s : State) : Host.Outcome State Fault Refusal :=
  issueOne 4 (.exp2 p d a) (semExp2 p d a) s

/-- LOG2 as a bundle of its own. -/
def execLog2 (p : BitVec 4) (d : BitVec 6) (a : BitVec 6) (s : State) : Host.Outcome State Fault Refusal :=
  issueOne 4 (.log2 p d a) (semLog2 p d a) s

/-- CVT as a bundle of its own. -/
def execCvt (p : BitVec 4) (d : BitVec 6) (a : BitVec 6) (h : BitVec 1) (s : BitVec 4) (t : BitVec 4) (st : State) : Host.Outcome State Fault Refusal :=
  issueOne 4 (.cvt p d a h s t) (semCvt p d a h s t) st

/-- V_ADD as a bundle of its own. -/
def execVAdd (p : BitVec 4) (d : BitVec 6) (a : BitVec 6) (b : BitVec 6) (t : BitVec 4) (s : State) : Host.Outcome State Fault Refusal :=
  issueOne 4 (.vAdd p d a b t) (semVAdd p d a b t) s

/-- V_SUB as a bundle of its own. -/
def execVSub (p : BitVec 4) (d : BitVec 6) (a : BitVec 6) (b : BitVec 6) (t : BitVec 4) (s : State) : Host.Outcome State Fault Refusal :=
  issueOne 4 (.vSub p d a b t) (semVSub p d a b t) s

/-- V_MUL as a bundle of its own. -/
def execVMul (p : BitVec 4) (d : BitVec 6) (a : BitVec 6) (b : BitVec 6) (t : BitVec 4) (s : State) : Host.Outcome State Fault Refusal :=
  issueOne 4 (.vMul p d a b t) (semVMul p d a b t) s

/-- V_MIN as a bundle of its own. -/
def execVMin (p : BitVec 4) (d : BitVec 6) (a : BitVec 6) (b : BitVec 6) (t : BitVec 4) (s : State) : Host.Outcome State Fault Refusal :=
  issueOne 4 (.vMin p d a b t) (semVMin p d a b t) s

/-- V_MAX as a bundle of its own. -/
def execVMax (p : BitVec 4) (d : BitVec 6) (a : BitVec 6) (b : BitVec 6) (t : BitVec 4) (s : State) : Host.Outcome State Fault Refusal :=
  issueOne 4 (.vMax p d a b t) (semVMax p d a b t) s

/-- V_AND as a bundle of its own. -/
def execVAnd (p : BitVec 4) (d : BitVec 6) (a : BitVec 6) (b : BitVec 6) (t : BitVec 4) (s : State) : Host.Outcome State Fault Refusal :=
  issueOne 4 (.vAnd p d a b t) (semVAnd p d a b t) s

/-- V_OR as a bundle of its own. -/
def execVOr (p : BitVec 4) (d : BitVec 6) (a : BitVec 6) (b : BitVec 6) (t : BitVec 4) (s : State) : Host.Outcome State Fault Refusal :=
  issueOne 4 (.vOr p d a b t) (semVOr p d a b t) s

/-- V_XOR as a bundle of its own. -/
def execVXor (p : BitVec 4) (d : BitVec 6) (a : BitVec 6) (b : BitVec 6) (t : BitVec 4) (s : State) : Host.Outcome State Fault Refusal :=
  issueOne 4 (.vXor p d a b t) (semVXor p d a b t) s

/-- V_SHL as a bundle of its own. -/
def execVShl (p : BitVec 4) (d : BitVec 6) (a : BitVec 6) (b : BitVec 6) (t : BitVec 4) (s : State) : Host.Outcome State Fault Refusal :=
  issueOne 4 (.vShl p d a b t) (semVShl p d a b t) s

/-- V_SHR as a bundle of its own. -/
def execVShr (p : BitVec 4) (d : BitVec 6) (a : BitVec 6) (b : BitVec 6) (t : BitVec 4) (s : State) : Host.Outcome State Fault Refusal :=
  issueOne 4 (.vShr p d a b t) (semVShr p d a b t) s

/-- V_SAR as a bundle of its own. -/
def execVSar (p : BitVec 4) (d : BitVec 6) (a : BitVec 6) (b : BitVec 6) (t : BitVec 4) (s : State) : Host.Outcome State Fault Refusal :=
  issueOne 4 (.vSar p d a b t) (semVSar p d a b t) s

/-- V_SHLI as a bundle of its own. -/
def execVShli (p : BitVec 4) (d : BitVec 6) (a : BitVec 6) (i : BitVec 6) (t : BitVec 4) (s : State) : Host.Outcome State Fault Refusal :=
  issueOne 4 (.vShli p d a i t) (semVShli p d a i t) s

/-- V_SHRI as a bundle of its own. -/
def execVShri (p : BitVec 4) (d : BitVec 6) (a : BitVec 6) (i : BitVec 6) (t : BitVec 4) (s : State) : Host.Outcome State Fault Refusal :=
  issueOne 4 (.vShri p d a i t) (semVShri p d a i t) s

/-- V_SARI as a bundle of its own. -/
def execVSari (p : BitVec 4) (d : BitVec 6) (a : BitVec 6) (i : BitVec 6) (t : BitVec 4) (s : State) : Host.Outcome State Fault Refusal :=
  issueOne 4 (.vSari p d a i t) (semVSari p d a i t) s

/-- V_FSHL as a bundle of its own. -/
def execVFshl (p : BitVec 4) (d : BitVec 6) (a : BitVec 6) (b : BitVec 6) (t : BitVec 4) (s : State) : Host.Outcome State Fault Refusal :=
  issueOne 4 (.vFshl p d a b t) (semVFshl p d a b t) s

/-- V_FSHR as a bundle of its own. -/
def execVFshr (p : BitVec 4) (d : BitVec 6) (a : BitVec 6) (b : BitVec 6) (t : BitVec 4) (s : State) : Host.Outcome State Fault Refusal :=
  issueOne 4 (.vFshr p d a b t) (semVFshr p d a b t) s

/-- CMPM as a bundle of its own. -/
def execCmpm (p : BitVec 4) (c : BitVec 4) (a : BitVec 6) (b : BitVec 6) (t : BitVec 4) (s : State) : Host.Outcome State Fault Refusal :=
  issueOne 4 (.cmpm p c a b t) (semCmpm p c a b t) s

/-- V_SEL as a bundle of its own. -/
def execVSel (p : BitVec 4) (d : BitVec 6) (a : BitVec 6) (b : BitVec 6) (t : BitVec 4) (s : State) : Host.Outcome State Fault Refusal :=
  issueOne 4 (.vSel p d a b t) (semVSel p d a b t) s

/-- MPUSH as a bundle of its own. -/
def execMpush (p : BitVec 4) (c : BitVec 4) (a : BitVec 6) (b : BitVec 6) (t : BitVec 4) (s : State) : Host.Outcome State Fault Refusal :=
  issueOne 4 (.mpush p c a b t) (semMpush p c a b t) s

/-- MINV as a bundle of its own. -/
def execMinv (p : BitVec 4) (s : State) : Host.Outcome State Fault Refusal :=
  issueOne 4 (.minv p) (semMinv p) s

/-- MPOP as a bundle of its own. -/
def execMpop (p : BitVec 4) (s : State) : Host.Outcome State Fault Refusal :=
  issueOne 4 (.mpop p) (semMpop p) s

/-- CHKB as a bundle of its own. -/
def execChkb (p : BitVec 4) (d : BitVec 6) (a : BitVec 6) (g : BitVec 4) (t : BitVec 4) (s : State) : Host.Outcome State Fault Refusal :=
  issueOne 4 (.chkb p d a g t) (semChkb p d a g t) s

/-- RED as a bundle of its own. -/
def execRed (p : BitVec 4) (d : BitVec 6) (a : BitVec 6) (l : BitVec 3) (k : BitVec 3) (t : BitVec 4) (s : State) : Host.Outcome State Fault Refusal :=
  issueOne 4 (.red p d a l k t) (semRed p d a l k t) s

/-- SCAN as a bundle of its own. -/
def execScan (p : BitVec 4) (d : BitVec 6) (a : BitVec 6) (l : BitVec 3) (k : BitVec 3) (t : BitVec 4) (s : State) : Host.Outcome State Fault Refusal :=
  issueOne 4 (.scan p d a l k t) (semScan p d a l k t) s

/-- BCAST as a bundle of its own. -/
def execBcast (p : BitVec 4) (d : BitVec 6) (a : BitVec 6) (i : BitVec 6) (t : BitVec 4) (s : State) : Host.Outcome State Fault Refusal :=
  issueOne 4 (.bcast p d a i t) (semBcast p d a i t) s

/-- PERM as a bundle of its own. -/
def execPerm (p : BitVec 4) (d : BitVec 6) (a : BitVec 6) (b : BitVec 6) (t : BitVec 4) (s : State) : Host.Outcome State Fault Refusal :=
  issueOne 4 (.perm p d a b t) (semPerm p d a b t) s

/-- ROTM as a bundle of its own. -/
def execRotm (p : BitVec 4) (d : BitVec 6) (a : BitVec 6) (n : BitVec 7) (s : State) : Host.Outcome State Fault Refusal :=
  issueOne 4 (.rotm p d a n) (semRotm p d a n) s

/-- RNDB as a bundle of its own. -/
def execRndb (p : BitVec 4) (d : BitVec 6) (s : State) : Host.Outcome State Fault Refusal :=
  issueOne 4 (.rndb p d) (semRndb p d) s

/-- RNDF as a bundle of its own. -/
def execRndf (p : BitVec 4) (d : BitVec 6) (t : BitVec 4) (s : State) : Host.Outcome State Fault Refusal :=
  issueOne 4 (.rndf p d t) (semRndf p d t) s

/-- RNDI as a bundle of its own. -/
def execRndi (p : BitVec 4) (d : BitVec 6) (a : BitVec 5) (t : BitVec 4) (s : State) : Host.Outcome State Fault Refusal :=
  issueOne 4 (.rndi p d a t) (semRndi p d a t) s

/-- SAMPC as a bundle of its own. -/
def execSampc (p : BitVec 4) (d : BitVec 6) (a : BitVec 6) (s : State) : Host.Outcome State Fault Refusal :=
  issueOne 4 (.sampc p d a) (semSampc p d a) s

end Sys2Proof.Machine
end

