-- ==== Sys2Proof/Machine/Control.lean ====
section
/-! DEFINITION. The control slot: branches, courses, gates and waits (14_control_flow.md). -/
namespace Sys2Proof.Machine

/-- A branch of the control slot by an offset (14 Table 14.1); ends is false for CALL. -/
def branchTo (e : Env) (s : State) (o : BitVec 16) (ends : Bool) : Res :=
  .jump s (.index ((e.lead.index : Int) + signed o) false ends)

/-- NOP (02 R35) -/
def semNop : Sem := { run := fun _ s => .ok s }

/-- BR (14 R276) -/
def semBr (n : BitVec 1) (f : BitVec 4) (o : BitVec 16) : Sem :=
  { run := fun e s => if e.lead.flag f.toNat != n.getLsbD 0 then branchTo e s o true else .ok s }

/-- BEM (14 R276) -/
def semBem (o : BitVec 16) : Sem := { run := fun e s => if e.lead.top = 0 then branchTo e s o true else .ok s }

/-- BNEM (14 R276) -/
def semBnem (o : BitVec 16) : Sem := { run := fun e s => if e.lead.top = 0 then .ok s else branchTo e s o true }

/-- CALL (14 R276) -/
def semCall (d : BitVec 5) (o : BitVec 16) : Sem :=
  { sw := [d.toNat]
    run := fun e s => branchTo e (putScalar e 1 d.toNat (BitVec.ofNat 64 (e.lead.index + 1)) s) o false }

/-- RET (14 R276) -/
def semRet (a : BitVec 5) : Sem :=
  { leadReads := [a.toNat], run := fun e s => .jump s (.index ((e.lead.sreg a.toNat).toNat : Int) false true) }

/-- SJMP (14 R276, R292, R293) -/
def semSjmp (n : BitVec 1) (f : BitVec 4) (a : BitVec 5) : Sem :=
  { leadReads := [a.toNat]
    run := fun e s =>
      if e.lead.flag f.toNat != n.getLsbD 0 then .jump s (.segment (e.lead.sreg a.toNat)) else .ok s }

/-- 14 R278: course n is set up with trip count t, body length len + 1 and generators am. -/
def loopRun (n t len : Nat) (am : BitVec 4) (e : Env) (s : State) : Res :=
  let i := e.lead.index
  if e.lead.execHalf.count ≤ i + 1 + len then trapNat Cause.branchRange 0
  else if t = 0 then
    .jump (s.updCtx e.who (fun c => { c with courses := c.courses.put n { c.course n with active := false, trip := 0 } }))
      (.index (i + 2 + len) true true)
  else
    .ok (s.updCtx e.who (fun c =>
      { c with courses := c.courses.put n { active := true, trip := BitVec.ofNat 32 t, index := 0, first := i + 1,
                                            last := i + 1 + len, am := am, start := c.courseClock }
               courseClock := c.courseClock + 1 }))

/-- LOOP (14 R278) -/
def semLoop (c : BitVec 3) (a : BitVec 5) (l : BitVec 9) (m : BitVec 4) : Sem :=
  { leadReads := [a.toNat]
    run := fun e s => loopRun c.toNat ((e.lead.sreg a.toNat).toNat % 2 ^ 32) l.toNat m e s }

/-- LOOPI (14 R278) -/
def semLoopi (c : BitVec 3) (t : BitVec 10) (l : BitVec 9) (m : BitVec 4) : Sem :=
  { run := fun e s => loopRun c.toNat (t.toNat + 1) l.toNat m e s }

/-- IGATE (14 R283) -/
def semIgate (c : BitVec 3) (w : BitVec 2) (l : BitVec 7) : Sem := { gate := some (.igate c w l), run := fun _ s => .ok s }

/-- RWAIT (14 R285); filled elements are met (11 R233) -/
def semRwait (q : BitVec 4) (w : BitVec 1) (n : BitVec 8) : Sem :=
  { run := fun e s =>
      match (s.ctx e.who).ringOf q.toNat with
      | none => trapNat Cause.ring q.toNat
      | some k =>
        let h := s.hold e.who.core
        let r := h.ring k
        let m := n.toNat + 1
        if r.slots < m then trapNat Cause.ring q.toNat
        else if m ≤ (if w = 0 then r.filled else r.free) then .ok (if w = 0 then s.updCtx e.who Ctx.meet else s)
        else .block (if w = 0 then h.elementsNeeded k m else []) }

/-- BINDF (14 R286) -/
def semBindf (f : BitVec 4) (ev : BitVec 6) (i : BitVec 8) : Sem :=
  { run := fun e s =>
      if (ev = 1 ∨ ev = 2) ∧ ((s.ctx e.who).ringOf (fld i 0 4).toNat).isNone = true then
        trapNat Cause.ring (fld i 0 4).toNat
      else if ev = 0 then .ok (s.updCtx e.who (fun c => { c with binds := c.binds.drop f.toNat }))
      else
        .ok (s.updCtx e.who (fun c =>
          ({ c with binds := c.binds.put f.toNat (some (ev, i)) } : Ctx).setFlag f.toNat false)) }

/-- 14 R284: the fields of a PWAIT that select. -/
def selecting (fs : List (BitVec 4)) : List (BitVec 4) := fs.filter (fun x => decide (x ≠ 0) && decide (x ≠ 8))

/-- PWAIT (02 R40, 14 R284): fields e1 to e7 are the words' a to g. -/
def semPwait (g f ee d c b a : BitVec 4) : Sem :=
  let fs := [a, b, c, d, ee, f, g]
  { gate := some (.pwait fs)
    run := fun e s =>
      let sel := selecting fs
      if sel.isEmpty || sel.any (fieldSat e.ctx) then .ok s
      else if sel.any (fun x => decide (e.ctx.binds.get none (fld x 0 3).toNat ≠ none)) then .block []
      else trapNat Cause.wait 0 }


/-! ## The instructions, each as a bundle of its own -/

/-- NOP as a bundle of its own. -/
def execNop (s : State) : Host.Outcome State Fault Refusal :=
  issueOne 0 (.nop) (semNop) s

/-- BR as a bundle of its own. -/
def execBr (n : BitVec 1) (f : BitVec 4) (o : BitVec 16) (s : State) : Host.Outcome State Fault Refusal :=
  issueOne 0 (.br n f o) (semBr n f o) s

/-- BEM as a bundle of its own. -/
def execBem (o : BitVec 16) (s : State) : Host.Outcome State Fault Refusal :=
  issueOne 0 (.bem o) (semBem o) s

/-- BNEM as a bundle of its own. -/
def execBnem (o : BitVec 16) (s : State) : Host.Outcome State Fault Refusal :=
  issueOne 0 (.bnem o) (semBnem o) s

/-- CALL as a bundle of its own. -/
def execCall (d : BitVec 5) (o : BitVec 16) (s : State) : Host.Outcome State Fault Refusal :=
  issueOne 0 (.call d o) (semCall d o) s

/-- RET as a bundle of its own. -/
def execRet (a : BitVec 5) (s : State) : Host.Outcome State Fault Refusal :=
  issueOne 0 (.ret a) (semRet a) s

/-- SJMP as a bundle of its own. -/
def execSjmp (n : BitVec 1) (f : BitVec 4) (a : BitVec 5) (s : State) : Host.Outcome State Fault Refusal :=
  issueOne 0 (.sjmp n f a) (semSjmp n f a) s

/-- LOOP as a bundle of its own. -/
def execLoop (c : BitVec 3) (a : BitVec 5) (l : BitVec 9) (m : BitVec 4) (s : State) : Host.Outcome State Fault Refusal :=
  issueOne 0 (.loop c a l m) (semLoop c a l m) s

/-- LOOPI as a bundle of its own. -/
def execLoopi (c : BitVec 3) (t : BitVec 10) (l : BitVec 9) (m : BitVec 4) (s : State) : Host.Outcome State Fault Refusal :=
  issueOne 0 (.loopi c t l m) (semLoopi c t l m) s

/-- IGATE as a bundle of its own. -/
def execIgate (c : BitVec 3) (w : BitVec 2) (s : BitVec 7) (st : State) : Host.Outcome State Fault Refusal :=
  issueOne 0 (.igate c w s) (semIgate c w s) st

/-- RWAIT as a bundle of its own. -/
def execRwait (q : BitVec 4) (w : BitVec 1) (n : BitVec 8) (s : State) : Host.Outcome State Fault Refusal :=
  issueOne 0 (.rwait q w n) (semRwait q w n) s

/-- BINDF as a bundle of its own. -/
def execBindf (f : BitVec 4) (e : BitVec 6) (i : BitVec 8) (s : State) : Host.Outcome State Fault Refusal :=
  issueOne 0 (.bindf f e i) (semBindf f e i) s

/-- PWAIT as a bundle of its own. -/
def execPwait (g : BitVec 4) (f : BitVec 4) (e : BitVec 4) (d : BitVec 4) (c : BitVec 4) (b : BitVec 4) (a : BitVec 4) (s : State) : Host.Outcome State Fault Refusal :=
  issueOne 0 (.pwait g f e d c b a) (semPwait g f e d c b a) s

end Sys2Proof.Machine
end

