-- ==== Sys2Proof/Machine/ScalarMem.lean ====
section
/-! DEFINITION. Slot 3: global loads and stores, atomics, versions, waits, tags and spill slots (09_memory_instructions.md R195 to R202; 12_atomics_and_versions.md). -/
namespace Sys2Proof.Machine

/-! ## Address checks (09 R196; 12 R239, R249; 01 R402) -/

/-- A virtual address translated and its permissions checked: the physical address of the aligned access, or the
cause. regs says that the form may reach device registers when n is 8. -/
def State.globalAt (s : State) (w : Who) (va : Word) (n : Nat) (k : Kind) (regs : Bool) : Except Nat (Nat × State) :=
  let c := s.ctx w
  match s.translate (clusterOf w.core) c.owner c.priv va k with
  | .error e => .error e
  | .ok (p, s1) =>
    let pa := p / n * n
    match s1.placeCause c.owner va pa k (regs && decide (n = 8)) with
    | some e => .error e
    | none =>
      if s1.place pa = .registers then
        match s1.regCause c.owner pa (decide (k = .write)) with
        | some e => .error e
        | none => .ok (pa, s1)
      else .ok (pa, s1)

/-- 08 R175: the address of the access, and what CTX.TADDR holds when it faults (log 71). -/
def aligned (va : Word) (n : Nat) : Word := alignTo va n

/-- The check of a plain store, an atomic or a redirected SPILL: versioned regions and speculative tasks. -/
def State.storeRefused (s : State) (w : Who) (va : Word) : Option Nat :=
  let c := s.ctx w
  if (s.regionAt c.owner va.toNat).isSome then some Cause.versioned
  else if c.spec.isSome then some Cause.speculativeStore
  else none
def State.loadRefused (s : State) (w : Who) (va : Word) : Option Nat :=
  if (s.regionAt (s.ctx w).owner va.toNat).isSome then some Cause.versioned else none

/-! ## Queues (09 R198) -/

def Ctx.loadRoom (c : Ctx) : Bool := decide (c.loadQ.length < 32)
def Ctx.storeRoom (c : Ctx) : Bool := decide (c.storeQ.length < 32)
def Ctx.pushLoad (c : Ctx) (k : LoadKind) (d n : Nat) (sx : Bool) (va : Word) (pa : Nat) (acq : Bool) (wide : Bool := false) :
    Ctx :=
  { c.supersede (.s d) with order := c.order + 1, loadQ := c.loadQ ++ [⟨c.order, k, d, n, sx, va, pa, acq, wide⟩] }
def Ctx.pushStore (c : Ctx) (k : StoreKind) (n : Nat) (va : Word) (pa : Nat) (v : Word) (rel : Bool) : Ctx :=
  { c with order := c.order + 1, storeQ := c.storeQ ++ [⟨c.order, k, n, va, pa, v, rel⟩] }
/-- A load-queue entry with its twin in the store queue (09 R198, 12 R243). -/
def Ctx.pushBoth (c : Ctx) (k : LoadKind) (d n : Nat) (va : Word) (pa : Nat) (wide : Bool) : Ctx :=
  Ctx.settle 33
    { c.supersede (.s d) with
             order := c.order + 1
             loadQ := c.loadQ ++ [⟨c.order, k, d, n, false, va, pa, true, wide⟩]
             storeQ := c.storeQ ++ [⟨c.order, .mark, n, va, pa, 0, true⟩] }

/-- MA address: sa + imm. -/
def maAddr (c : Ctx) (a : BitVec 5) (i : BitVec 11) : Word := c.sreg a.toNat + sext i

/-- LD, LDX, LDAQ (09 R195). -/
def loadSem (d a : BitVec 5) (z : BitVec 2) (i : BitVec 11) (sx acq : Bool) (wide : Bool := false) : Sem :=
  { sr := [a.toNat], sw := [d.toNat]
    run := fun e s =>
      let va := maAddr e.ctx a i
      let n := sizeOf' z
      match s.globalAt e.who va n .read true with
      | .error x => s.failAccess e.who x (aligned va n)
      | .ok (pa, s1) =>
        match s1.loadRefused e.who va with
        | some x => trapAt x (aligned va n)
        | none =>
          if (s1.ctx e.who).loadRoom then
            .ok (s1.updCtx e.who (fun c => c.pushLoad .plain d.toNat n sx (aligned va n) pa acq wide))
          else .block [] }

/-- 09 R197: a held cause of a refused store. -/
def Ctx.lostStore (c : Ctx) : Option Res :=
  c.heldStore.map (fun h => .trap { cause := Cause.storeLost, sub := h.cause, frame := h.frame, fix := .store })

/-- ST and STRL (09 R195, R197). -/
def storeSem (d a : BitVec 5) (z : BitVec 2) (i : BitVec 11) (rel : Bool) : Sem :=
  { sr := [d.toNat, a.toNat]
    run := fun e s =>
      let va := maAddr e.ctx a i
      let n := sizeOf' z
      match s.globalAt e.who va n .write true with
      | .error x => s.failAccess e.who x (aligned va n)
      | .ok (pa, s1) =>
        match s1.storeRefused e.who va with
        | some x => trapAt x (aligned va n)
        | none =>
          match (if rel then (s1.ctx e.who).lostStore else none) with
          | some r => r
          | none =>
            if (s1.ctx e.who).storeRoom then
              .ok (s1.updCtx e.who (fun c => c.pushStore .plain n (aligned va n) pa (e.ctx.sreg d.toNat) rel))
            else .block [] }

/-- A scope code other than the context's (01 Table 1.8). -/
def isWide (c : BitVec 3) : Bool := decide (c ≠ 0)

/-- MARK and FENCE occupy one entry in each queue (09 R199). -/
def barrierRun (wide : Bool) (e : Env) (s : State) : Res :=
  if (s.ctx e.who).loadRoom && (s.ctx e.who).storeRoom then .ok (s.updCtx e.who (fun c => c.pushBoth .mark 0 1 0 0 wide))
  else .block []

/-- LD (09 R195) -/
def semLd (d a : BitVec 5) (z : BitVec 2) (i : BitVec 11) : Sem := loadSem d a z i false false
/-- LDX (09 R195) -/
def semLdx (d a : BitVec 5) (z : BitVec 2) (i : BitVec 11) : Sem := loadSem d a z i true false
/-- ST (09 R195) -/
def semSt (d a : BitVec 5) (z : BitVec 2) (i : BitVec 11) : Sem := storeSem d a z i false
/-- LDAQ (09 R199): the acquire holds every later entry; every scope is met at the home -/
def semLdaq (d a : BitVec 5) (z : BitVec 2) (c : BitVec 3) (i : BitVec 11) : Sem := loadSem d a z i false true (isWide c)
/-- STRL (09 R199) -/
def semStrl (d a : BitVec 5) (z : BitVec 2) (_c : BitVec 3) (i : BitVec 11) : Sem := storeSem d a z i true
/-- MARK (09 R199) -/
def semMark : Sem := { run := barrierRun false }
/-- FENCE (09 R197, R199) -/
def semFence (c : BitVec 3) : Sem :=
  { run := fun e s =>
      match (s.ctx e.who).lostStore with
      | some r => r
      | none => barrierRun (isWide c) e s }

/-! ## Atomics (12 R239 to R245; 19 R340) -/

/-- The window of some partition that holds a physical address, with that partition. -/
def State.windowAt (s : State) (pa : Nat) : Option (Nat × Window) :=
  s.parts.findSome? (fun e => (e.2.windowAt pa).map (fun x => (e.1, x.1)))

/-- The kind of entry an atomic makes: a contribution to a window of its partition, or an atomic; or a cause. An atomic
of another party to a window address traps (12 R245, 18 R335). A pallet's tier changes no fault (15 R307). -/
def State.atomicKind (s : State) (w : Who) (op n : Nat) (va : Word) (pa : Nat) (x y : Word) : Except Nat LoadKind :=
  let o := (s.ctx w).owner
  if decide (s.place pa = .host) && !s.sec.hmode && !(s.inTier o va.toNat) && !([0x08, 0x13, 0x14].contains op) then
    .error Cause.hostAtomic
  else
    match s.windowAt pa with
    | none => .ok (.atomic op x y)
    | some (p, v) =>
      if o.boot = false ∧ o.part = p ∧ windowAtomic v.op = op ∧ v.width = n ∧ v.members.contains s.difIndex.toNat = true then
        .ok (.contribution op x)
      else .error Cause.window

/-- The cause of an atomic whose address is refused: "window" where another partition's window shuts it out (R245). -/
def State.atomicCause (s : State) (w : Who) (va : Word) (cause : Nat) : Nat :=
  let c := s.ctx w
  if cause = Cause.translation then
    match s.translate (clusterOf w.core) c.owner c.priv va .write with
    | .ok (pa, s1) => if s1.windowShut c.owner pa then Cause.window else cause
    | .error _ => cause
  else cause

def atomicSem (op : Nat) (d a b : BitVec 5) (x : Option (BitVec 5)) (z : BitVec 2) (c : BitVec 3) : Sem :=
  { sr := [a.toNat, b.toNat] ++ x.toList.map BitVec.toNat, sw := [d.toNat]
    run := fun e s =>
      let va := e.ctx.sreg a.toNat
      let n := sizeOf' z
      let cut (r : BitVec 5) : Word := BitVec.ofNat 64 ((e.ctx.sreg r.toNat).toNat % 2 ^ (8 * n))
      match s.globalAt e.who va n .write false with
      | .error t => s.failAccess e.who (s.atomicCause e.who va t) (aligned va n)
      | .ok (pa, s1) =>
        match s1.storeRefused e.who va with
        | some t => trapAt t (aligned va n)
        | none =>
          match s1.atomicKind e.who op n va pa (cut b) (match x with | some r => cut r | none => 0) with
          | .error t => trapAt t (aligned va n)
          | .ok k =>
            if (s1.ctx e.who).loadRoom && (s1.ctx e.who).storeRoom then
              .ok (s1.updCtx e.who (fun q => q.pushBoth k d.toNat n (aligned va n) pa (isWide c)))
            else .block [] }

/-- AADD (12 R240) -/
def semAadd (d a b : BitVec 5) (z : BitVec 2) (c : BitVec 3) : Sem := atomicSem 0x08 d a b none z c
/-- AAND (12 R240) -/
def semAand (d a b : BitVec 5) (z : BitVec 2) (c : BitVec 3) : Sem := atomicSem 0x09 d a b none z c
/-- AOR (12 R240) -/
def semAor (d a b : BitVec 5) (z : BitVec 2) (c : BitVec 3) : Sem := atomicSem 0x0A d a b none z c
/-- AXOR (12 R240) -/
def semAxor (d a b : BitVec 5) (z : BitVec 2) (c : BitVec 3) : Sem := atomicSem 0x0B d a b none z c
/-- AMIN (12 R240) -/
def semAmin (d a b : BitVec 5) (z : BitVec 2) (c : BitVec 3) : Sem := atomicSem 0x0C d a b none z c
/-- AMAX (12 R240) -/
def semAmax (d a b : BitVec 5) (z : BitVec 2) (c : BitVec 3) : Sem := atomicSem 0x0D d a b none z c
/-- AMINU (12 R240) -/
def semAminu (d a b : BitVec 5) (z : BitVec 2) (c : BitVec 3) : Sem := atomicSem 0x0E d a b none z c
/-- AMAXU (12 R240) -/
def semAmaxu (d a b : BitVec 5) (z : BitVec 2) (c : BitVec 3) : Sem := atomicSem 0x0F d a b none z c
/-- AFADD (12 R241) -/
def semAfadd (d a b : BitVec 5) (c : BitVec 3) : Sem := atomicSem 0x10 d a b none 2 c
/-- AFMIN (12 R241) -/
def semAfmin (d a b : BitVec 5) (c : BitVec 3) : Sem := atomicSem 0x11 d a b none 2 c
/-- AFMAX (12 R241) -/
def semAfmax (d a b : BitVec 5) (c : BitVec 3) : Sem := atomicSem 0x12 d a b none 2 c
/-- ASWP (12 R240) -/
def semAswp (d a b : BitVec 5) (z : BitVec 2) (c : BitVec 3) : Sem := atomicSem 0x13 d a b none z c
/-- ACAS (12 R240) -/
def semAcas (d a b x : BitVec 5) (z : BitVec 2) (c : BitVec 3) : Sem := atomicSem 0x14 d a b (some x) z c

/-! ## Versions (12 R248 to R256) -/

/-- The other successor's tasks while the pair is undecided; none when the task is no speculative task or the pair
is decided (12 R255, 13 R270). -/
def State.undecidedPair (s : State) (c : Ctx) : Option (List Nat) :=
  match c.spec with
  | none => none
  | some k =>
    ((s.coresFor c.owner).flatMap contextsOf).findSome? (fun w =>
      let p := s.ctx w
      if p.resident ∧ p.task = k.parent then
        (p.pairs.find? (fun x => decide (x.uid = k.pair))).map (fun x => if k.side then x.a else x.b)
      else none)

/-- The version of an operand: bits [47:0]. -/
def versionOf (v : Word) : Nat := v.toNat % 2 ^ 48

/-- An acquire of the context is not yet performed: a version access after it asks the unit later (11 R229, 12 R256). -/
def Ctx.acquiring (c : Ctx) : Bool :=
  c.loadQ.any (fun l =>
    l.acquire && (match l.kind with | .mark => false | .version _ _ _ _ => false | _ => true))

/-- The region, and the state with the block read, that a version instruction reaches; or its cause. The unit waits for a
line that the host may hold (19 R341). -/
def State.versionAt (s : State) (w : Who) (va : Word) (n : Nat) (k : Kind) : Except Nat (Region × Nat × State) :=
  match s.globalAt w va n k false with
  | .error e => .error e
  | .ok (pa, s1) =>
    match s1.regionAt (s1.ctx w).owner va.toNat with
    | none => .error Cause.notVersioned
    | some r =>
      if (s1.ctx w).acquiring || s1.snoopingRange (pa / 64 * 64) 64 then .error Cause.later
      else
      let t := s1.touchBlock (s1.ctx w).owner.job r va.toNat pa
      .ok (t.1, pa, t.2)

/-- VLD and VLDLE (12 R252). -/
def versionLoadSem (d a b : BitVec 5) (z : BitVec 2)
    (f : Region → Nat → Nat → Nat → Answer Version) : Sem :=
  { sr := [a.toNat, b.toNat], sw := [d.toNat]
    run := fun e s =>
      let va := e.ctx.sreg a.toNat
      let n := sizeOf' z
      match s.versionAt e.who va n .read with
      | .error t => s.failAccess e.who t (aligned va n)
      | .ok (r, pa, s1) =>
        match f r (r.blockOf va.toNat) (versionOf (e.ctx.sreg b.toNat)) e.ctx.task with
        | .refuse t => trapAt t (aligned va n)
        | .wait => .block []
        | .accept x =>
          if (s1.ctx e.who).loadRoom then
            .ok (s1.updCtx e.who (fun c => c.pushLoad (.version x.v (!x.published) x.data x.poison) d.toNat n false
              (aligned va n) pa true true))
          else .block [] }

/-- VPUB, VFLOOR and VDROP act once both queues are empty (12 R251, R253, R254). -/
def regionSem (a b : BitVec 5) (k : Kind) (f : Env → State → Region → Nat → Except Nat State) : Sem :=
  { sr := [a.toNat, b.toNat]
    run := fun e s =>
      let va := e.ctx.sreg a.toNat
      match s.versionAt e.who va 1 k with
      | .error t => s.failAccess e.who t va
      | .ok (r, _, s1) =>
        match f e s1 r (versionOf (e.ctx.sreg b.toNat)) with
        | .error t => s.failAccess e.who t va
        | .ok s2 =>
          if (s1.ctx e.who).loadQ.isEmpty && (s1.ctx e.who).storeQ.isEmpty then .ok s2 else .block [] }

/-- VLD (12 R252) -/
def semVld (d a b : BitVec 5) (z : BitVec 2) : Sem := versionLoadSem d a b z Region.vld
/-- VLDLE (12 R252) -/
def semVldle (d a b : BitVec 5) (z : BitVec 2) : Sem := versionLoadSem d a b z Region.vldle

/-- The bytes of a version with the stores to it that its writer has issued before (12 R250, R252). -/
def Ctx.stored (c : Ctx) (r : Region) (b : Nat) (x : Version) : BitVec 512 :=
  if x.published then x.data
  else
    (c.storeQ.filter (fun t => decide (t.kind = .version x.v) && decide (r.blockOf t.va.toNat = b))).foldl
      (fun d t => blockWith d (t.va.toNat % 64) t.n t.data.toNat) x.data

/-- VST (12 R249, R250, R255) -/
def semVst (d a b : BitVec 5) (z : BitVec 2) : Sem :=
  let ask (e : Env) (s : State) : Except Nat (Region × Nat × State × Answer Region) :=
    let va := e.ctx.sreg a.toNat
    match s.versionAt e.who va (sizeOf' z) .write with
    | .error t => .error t
    | .ok (r, pa, s1) =>
      .ok (r, pa, s1, r.vst (r.blockOf va.toNat) (versionOf (e.ctx.sreg b.toNat)) e.ctx.task
        ((s1.undecidedPair e.ctx).getD []) ((s1.ctx e.who).stored r (r.blockOf va.toNat)))
  { sr := [d.toNat, a.toNat, b.toNat]
    run := fun e s =>
      let va := e.ctx.sreg a.toNat
      let n := sizeOf' z
      match ask e s with
      | .error t => s.failAccess e.who t (aligned va n)
      | .ok (_, pa, s1, ans) =>
        match ans with
        | .refuse t => trapAt t (aligned va n)
        | .wait => .block []
        | .accept r =>
          if (s1.ctx e.who).storeRoom then
            .ok ((s1.setRegion e.ctx.owner.job r).updCtx e.who
              (fun c => c.pushStore (.version (versionOf (e.ctx.sreg b.toNat))) n (aligned va n) pa
                (e.ctx.sreg d.toNat) false))
          else .block []
    blocked := fun e s =>
      match ask e s with
      | .ok (r, _, s1, .wait) => s1.poolEvent e.ctx.owner.job r
      | _ => s }

/-- VPUB (12 R249, R251, R255) -/
def semVpub (a b : BitVec 5) : Sem :=
  regionSem a b .write (fun e s r n =>
    if n = 0 ∨ r.horizon ≤ n then .error Cause.versionRange
    else if (s.undecidedPair e.ctx).isSome then .ok (s.holdBy e.who e.ctx.owner.job r.base n e.ctx.task)
    else .ok (s.publishBy e.who e.ctx.owner.job r.base n e.ctx.task))

/-- VFLOOR (12 R253) -/
def semVfloor (a b : BitVec 5) : Sem :=
  regionSem a b .read (fun e s r n => .ok (s.setRegion e.ctx.owner.job (r.raise n)))

/-- VDROP (12 R249, R254) -/
def semVdrop (a b : BitVec 5) : Sem :=
  regionSem a b .read (fun e s r n =>
    if n = 0 ∨ r.horizon ≤ n ∨ n < r.floor then .error Cause.versionRange
    else .ok (s.setRegion e.ctx.owner.job (r.dropFrom n)))

/-- VQUERY (12 R254) -/
def semVquery (d a : BitVec 5) : Sem :=
  { sr := [a.toNat], sw := [d.toNat]
    run := fun e s =>
      let va := e.ctx.sreg a.toNat
      match s.versionAt e.who va 1 .read with
      | .error t => s.failAccess e.who t va
      | .ok (r, pa, s1) =>
        if (s1.ctx e.who).loadRoom then
          .ok (s1.updCtx e.who (fun c => c.pushLoad (.query (r.query (r.blockOf va.toNat))) d.toNat 8 false va pa false))
        else .block [] }

/-! ## Waiting, tags and spill slots -/

/-- WAITA (09 R200): after every earlier load, the n bytes compared at this attempt -/
def semWaita (b a : BitVec 5) (z : BitVec 2) (k : BitVec 1) : Sem :=
  { sr := [b.toNat, a.toNat]
    run := fun e s =>
      let va := e.ctx.sreg a.toNat
      let n := sizeOf' z
      match s.globalAt e.who va n .read true with
      | .error t => s.failAccess e.who t (aligned va n)
      | .ok (p, s1) =>
        match s1.loadRefused e.who va with
        | some t => trapAt t (aligned va n)
        | none =>
          let pa := s1.livePa e.ctx.owner (aligned va n).toNat p
          if !(s1.ctx e.who).loadQ.isEmpty || (s1.ctx e.who).owes (aligned va n).toNat p n then .block []
          else
            match s1.readFault e.ctx.owner.part pa n with
            | some t => failAt t (aligned va n) (s1.frameOf t pa)
            | none =>
              let v := s1.readHome e.ctx.owner va.toNat pa n
              if decide (v = (e.ctx.sreg b.toNat).toNat % 2 ^ (8 * n)) == decide (k = 1) then
                .ok (s1.updCtx e.who (fun c => c.forget (s1.key pa) n))
              else .block [] }

/-- The tag of an operand (09 R202). -/
def tagOf (v : Word) : BitVec 54 := fld v 0 54
def Hold.tag (h : Hold) (i : Nat) : Option (BitVec 54) := h.tags.get none i

/-- TLOOK (09 R202) -/
def semTlook (d a : BitVec 5) : Sem :=
  { sr := [a.toNat], sw := [d.toNat]
    run := fun e s =>
      let h := s.hold e.who.core
      let t := tagOf (e.ctx.sreg a.toNat)
      let v : Word :=
        match (List.range 1024).find? (fun i => decide (h.tag i = some t)) with
        | some i => BitVec.ofNat 64 i
        | none => BitVec.allOnes 64
      .ok (putScalar e 1 d.toNat v s) }

/-- TSET (09 R202) -/
def semTset (a b : BitVec 5) : Sem :=
  { sr := [a.toNat, b.toNat]
    run := fun e s => .ok (s.updHold e.who.core (fun h =>
      { h with tags := h.tags.put ((e.ctx.sreg a.toNat).toNat % 1024) (some (tagOf (e.ctx.sreg b.toNat))) })) }

/-- TCLR (09 R202) -/
def semTclr (a : BitVec 5) : Sem :=
  { sr := [a.toNat]
    run := fun e s => .ok (s.updHold e.who.core (fun h =>
      { h with tags := h.tags.put ((e.ctx.sreg a.toNat).toNat % 1024) none })) }

/-- The mask of the 8 bytes from byte i of a row. -/
def eightBytes (i : Nat) : BitVec 128 := BitVec.ofNat 128 (255 * 2 ^ i)

/-- SPILL (08 R187, 09 R201) -/
def semSpill (d : BitVec 5) (k : BitVec 16) : Sem :=
  { sr := [d.toNat]
    run := fun e s =>
      let v := e.ctx.sreg d.toNat
      match spillPlace (s.ctx e.who) k.toNat with
      | .inl (r, i) =>
        if (s.hold e.who.core).phaseClash r true then trapNat Cause.phaseSet r
        else .ok (s.putRow e.who.core r ((s.row e.who.core r).store (v.setWidth 1024 <<< (8 * i)) (eightBytes i)))
      | .inr va =>
        match s.globalAt e.who va 8 .write false with
        | .error t => s.failAccess e.who t va
        | .ok (pa, s1) =>
          match s1.storeRefused e.who va with
          | some t => trapAt t va
          | none =>
            if (s1.ctx e.who).storeRoom then
              .ok (s1.updCtx e.who (fun c =>
                ({ c with spilled := c.spilled.put k.toNat (some v) } : Ctx).pushStore .plain 8 va pa v false))
            else .block [] }

/-- FILL (08 R187, 09 R201) -/
def semFill (d : BitVec 5) (k : BitVec 16) : Sem :=
  { sw := [d.toNat]
    run := fun e s =>
      match spillPlace (s.ctx e.who) k.toNat with
      | .inl (r, i) =>
        let c := s.row e.who.core r
        if (s.hold e.who.core).phaseClash r false then trapNat Cause.phaseSet r
        else if c.poison then trapNat Cause.poisoned r
        else .ok (putScalar e 4 d.toNat ((c.data >>> (8 * i)).setWidth 64) s)
      | .inr va =>
        match s.globalAt e.who va 8 .read false with
        | .error t => s.failAccess e.who t va
        | .ok (pa, s1) =>
          match s1.loadRefused e.who va with
          | some t => trapAt t va
          | none =>
            if (s1.ctx e.who).loadRoom then
              .ok (s1.updCtx e.who (fun c =>
                c.pushLoad (.fill (c.spilled.get none k.toNat)) d.toNat 8 false va pa false))
            else .block [] }


/-! ## The instructions, each as a bundle of its own -/

/-- LD as a bundle of its own. -/
def execLd (d : BitVec 5) (a : BitVec 5) (z : BitVec 2) (i : BitVec 11) (s : State) : Host.Outcome State Fault Refusal :=
  issueOne 3 (.ld d a z i) (semLd d a z i) s

/-- LDX as a bundle of its own. -/
def execLdx (d : BitVec 5) (a : BitVec 5) (z : BitVec 2) (i : BitVec 11) (s : State) : Host.Outcome State Fault Refusal :=
  issueOne 3 (.ldx d a z i) (semLdx d a z i) s

/-- ST as a bundle of its own. -/
def execSt (s : BitVec 5) (a : BitVec 5) (z : BitVec 2) (i : BitVec 11) (st : State) : Host.Outcome State Fault Refusal :=
  issueOne 3 (.st s a z i) (semSt s a z i) st

/-- LDAQ as a bundle of its own. -/
def execLdaq (d : BitVec 5) (a : BitVec 5) (z : BitVec 2) (c : BitVec 3) (i : BitVec 11) (s : State) : Host.Outcome State Fault Refusal :=
  issueOne 3 (.ldaq d a z c i) (semLdaq d a z c i) s

/-- STRL as a bundle of its own. -/
def execStrl (s : BitVec 5) (a : BitVec 5) (z : BitVec 2) (c : BitVec 3) (i : BitVec 11) (st : State) : Host.Outcome State Fault Refusal :=
  issueOne 3 (.strl s a z c i) (semStrl s a z c i) st

/-- MARK as a bundle of its own. -/
def execMark (s : State) : Host.Outcome State Fault Refusal :=
  issueOne 3 (.mark) (semMark) s

/-- FENCE as a bundle of its own. -/
def execFence (c : BitVec 3) (s : State) : Host.Outcome State Fault Refusal :=
  issueOne 3 (.fence c) (semFence c) s

/-- AADD as a bundle of its own. -/
def execAadd (d : BitVec 5) (a : BitVec 5) (b : BitVec 5) (z : BitVec 2) (c : BitVec 3) (s : State) : Host.Outcome State Fault Refusal :=
  issueOne 3 (.aadd d a b z c) (semAadd d a b z c) s

/-- AAND as a bundle of its own. -/
def execAand (d : BitVec 5) (a : BitVec 5) (b : BitVec 5) (z : BitVec 2) (c : BitVec 3) (s : State) : Host.Outcome State Fault Refusal :=
  issueOne 3 (.aand d a b z c) (semAand d a b z c) s

/-- AOR as a bundle of its own. -/
def execAor (d : BitVec 5) (a : BitVec 5) (b : BitVec 5) (z : BitVec 2) (c : BitVec 3) (s : State) : Host.Outcome State Fault Refusal :=
  issueOne 3 (.aor d a b z c) (semAor d a b z c) s

/-- AXOR as a bundle of its own. -/
def execAxor (d : BitVec 5) (a : BitVec 5) (b : BitVec 5) (z : BitVec 2) (c : BitVec 3) (s : State) : Host.Outcome State Fault Refusal :=
  issueOne 3 (.axor d a b z c) (semAxor d a b z c) s

/-- AMIN as a bundle of its own. -/
def execAmin (d : BitVec 5) (a : BitVec 5) (b : BitVec 5) (z : BitVec 2) (c : BitVec 3) (s : State) : Host.Outcome State Fault Refusal :=
  issueOne 3 (.amin d a b z c) (semAmin d a b z c) s

/-- AMAX as a bundle of its own. -/
def execAmax (d : BitVec 5) (a : BitVec 5) (b : BitVec 5) (z : BitVec 2) (c : BitVec 3) (s : State) : Host.Outcome State Fault Refusal :=
  issueOne 3 (.amax d a b z c) (semAmax d a b z c) s

/-- AMINU as a bundle of its own. -/
def execAminu (d : BitVec 5) (a : BitVec 5) (b : BitVec 5) (z : BitVec 2) (c : BitVec 3) (s : State) : Host.Outcome State Fault Refusal :=
  issueOne 3 (.aminu d a b z c) (semAminu d a b z c) s

/-- AMAXU as a bundle of its own. -/
def execAmaxu (d : BitVec 5) (a : BitVec 5) (b : BitVec 5) (z : BitVec 2) (c : BitVec 3) (s : State) : Host.Outcome State Fault Refusal :=
  issueOne 3 (.amaxu d a b z c) (semAmaxu d a b z c) s

/-- AFADD as a bundle of its own. -/
def execAfadd (d : BitVec 5) (a : BitVec 5) (b : BitVec 5) (c : BitVec 3) (s : State) : Host.Outcome State Fault Refusal :=
  issueOne 3 (.afadd d a b c) (semAfadd d a b c) s

/-- AFMIN as a bundle of its own. -/
def execAfmin (d : BitVec 5) (a : BitVec 5) (b : BitVec 5) (c : BitVec 3) (s : State) : Host.Outcome State Fault Refusal :=
  issueOne 3 (.afmin d a b c) (semAfmin d a b c) s

/-- AFMAX as a bundle of its own. -/
def execAfmax (d : BitVec 5) (a : BitVec 5) (b : BitVec 5) (c : BitVec 3) (s : State) : Host.Outcome State Fault Refusal :=
  issueOne 3 (.afmax d a b c) (semAfmax d a b c) s

/-- ASWP as a bundle of its own. -/
def execAswp (d : BitVec 5) (a : BitVec 5) (b : BitVec 5) (z : BitVec 2) (c : BitVec 3) (s : State) : Host.Outcome State Fault Refusal :=
  issueOne 3 (.aswp d a b z c) (semAswp d a b z c) s

/-- ACAS as a bundle of its own. -/
def execAcas (d : BitVec 5) (a : BitVec 5) (b : BitVec 5) (x : BitVec 5) (z : BitVec 2) (c : BitVec 3) (s : State) : Host.Outcome State Fault Refusal :=
  issueOne 3 (.acas d a b x z c) (semAcas d a b x z c) s

/-- VLD as a bundle of its own. -/
def execVld (d : BitVec 5) (a : BitVec 5) (b : BitVec 5) (z : BitVec 2) (s : State) : Host.Outcome State Fault Refusal :=
  issueOne 3 (.vld d a b z) (semVld d a b z) s

/-- VLDLE as a bundle of its own. -/
def execVldle (d : BitVec 5) (a : BitVec 5) (b : BitVec 5) (z : BitVec 2) (s : State) : Host.Outcome State Fault Refusal :=
  issueOne 3 (.vldle d a b z) (semVldle d a b z) s

/-- VST as a bundle of its own. -/
def execVst (s : BitVec 5) (a : BitVec 5) (b : BitVec 5) (z : BitVec 2) (st : State) : Host.Outcome State Fault Refusal :=
  issueOne 3 (.vst s a b z) (semVst s a b z) st

/-- VPUB as a bundle of its own. -/
def execVpub (a : BitVec 5) (b : BitVec 5) (s : State) : Host.Outcome State Fault Refusal :=
  issueOne 3 (.vpub a b) (semVpub a b) s

/-- VFLOOR as a bundle of its own. -/
def execVfloor (a : BitVec 5) (b : BitVec 5) (s : State) : Host.Outcome State Fault Refusal :=
  issueOne 3 (.vfloor a b) (semVfloor a b) s

/-- VDROP as a bundle of its own. -/
def execVdrop (a : BitVec 5) (b : BitVec 5) (s : State) : Host.Outcome State Fault Refusal :=
  issueOne 3 (.vdrop a b) (semVdrop a b) s

/-- VQUERY as a bundle of its own. -/
def execVquery (d : BitVec 5) (a : BitVec 5) (s : State) : Host.Outcome State Fault Refusal :=
  issueOne 3 (.vquery d a) (semVquery d a) s

/-- WAITA as a bundle of its own. -/
def execWaita (b : BitVec 5) (a : BitVec 5) (z : BitVec 2) (n : BitVec 1) (s : State) : Host.Outcome State Fault Refusal :=
  issueOne 3 (.waita b a z n) (semWaita b a z n) s

/-- TLOOK as a bundle of its own. -/
def execTlook (d : BitVec 5) (a : BitVec 5) (s : State) : Host.Outcome State Fault Refusal :=
  issueOne 3 (.tlook d a) (semTlook d a) s

/-- TSET as a bundle of its own. -/
def execTset (a : BitVec 5) (b : BitVec 5) (s : State) : Host.Outcome State Fault Refusal :=
  issueOne 3 (.tset a b) (semTset a b) s

/-- TCLR as a bundle of its own. -/
def execTclr (a : BitVec 5) (s : State) : Host.Outcome State Fault Refusal :=
  issueOne 3 (.tclr a) (semTclr a) s

/-- SPILL as a bundle of its own. -/
def execSpill (s : BitVec 5) (n : BitVec 16) (st : State) : Host.Outcome State Fault Refusal :=
  issueOne 3 (.spill s n) (semSpill s n) st

/-- FILL as a bundle of its own. -/
def execFill (d : BitVec 5) (n : BitVec 16) (s : State) : Host.Outcome State Fault Refusal :=
  issueOne 3 (.fill d n) (semFill d n) s

end Sys2Proof.Machine
end

