-- ==== Sys2Proof/Machine/Rows.lean ====
section
/-! DEFINITION. Slot 6: rows, rings, generators and bonds (09_memory_instructions.md R203 to R210). -/
namespace Sys2Proof.Machine

/-! ## Loads and stores of rows (09 R203, R204) -/

/-- A VLDR: the row's value four steps later, or a remote access that interlocks. f is what a completed access
changes besides. -/
def loadRow (e : Env) (v : Nat) (s : State) (r : RowRes) (f : Ctx → Ctx) : Res :=
  match r with
  | .trap c a => trapAt c a
  | .block on => .block on
  | .here n => .ok ((putVector e 4 v (s.row e.who.core n).data allOnes s).updCtx e.who f)
  | .there g n =>
    .ok (s.updCtx e.who (fun c =>
      if v < c.allot then f { c.supersede (.v v) with remoteQ := c.remoteQ ++ [⟨g, n, true, v, 0, 0, c.order⟩] } else f c))

/-- A VSTR of the bytes a mask enables. -/
def storeRow (e : Env) (v : Nat) (m : BitVec 5) (s : State) (r : RowRes) (f : Ctx → Ctx) : Res :=
  let x := e.ctx.vreg v
  let k := storeMask e.ctx m
  match r with
  | .trap c a => trapAt c a
  | .block on => .block on
  | .here n => .ok ((s.putRow e.who.core n ((s.row e.who.core n).store x k)).updCtx e.who f)
  | .there g n => .ok (s.updCtx e.who (fun c => f { c with remoteQ := c.remoteQ ++ [⟨g, n, false, v, x, k, c.order⟩] }))

/-- Mode 0: sa + imm as an unbounded integer. -/
def rowOperand (c : Ctx) (a : BitVec 5) (i : BitVec 8) : Int := ((c.sreg a.toNat).toNat : Int) + signed i

/-- Mode 2: the generator's row, and the generator's advance. -/
def genAccess (e : Env) (g : BitVec 2) (s : State) (write : Bool) (k : RowRes → (Ctx → Ctx) → Res) : Res :=
  let x := (s.ctx e.who).gen g.toNat
  match s.genRow e.who g.toNat x with
  | .error (c, a) => trapNat c a
  | .ok r => k (s.rowByNumber e.who r write) (fun c => { c with gens := c.gens.put g.toNat x.advance })

/-- VLDR row(sa+imm) (09 R203) -/
def semVldrRow (v : BitVec 6) (a : BitVec 5) (i : BitVec 8) : Sem :=
  { sr := [a.toNat], vw := [v.toNat]
    run := fun e s => loadRow e v.toNat s (s.rowByNumber e.who (rowOperand e.ctx a i) false) id }

/-- VSTR row(sa+imm) (09 R203) -/
def semVstrRow (v : BitVec 6) (a m : BitVec 5) (i : BitVec 8) : Sem :=
  { sr := a.toNat :: maskRegs m, vr := [v.toNat]
    run := fun e s => storeRow e v.toNat m s (s.rowByNumber e.who (rowOperand e.ctx a i) true) id }

/-- VLDR qN+imm (09 R203); it meets the element of the read slot (11 R233) -/
def semVldrRing (v : BitVec 6) (q : BitVec 4) (i : BitVec 8) : Sem :=
  { vw := [v.toNat], run := fun e s => loadRow e v.toNat s (s.rowByRing e.who q.toNat i.toNat false) Ctx.meet }

/-- VSTR qN+imm (09 R203) -/
def semVstrRing (v : BitVec 6) (q : BitVec 4) (m : BitVec 5) (i : BitVec 8) : Sem :=
  { sr := maskRegs m, vr := [v.toNat]
    run := fun e s => storeRow e v.toNat m s (s.rowByRing e.who q.toNat i.toNat true) id }

/-- VLDR aN (09 R203, R209) -/
def semVldrGenerator (v : BitVec 6) (g : BitVec 2) : Sem :=
  { vw := [v.toNat], run := fun e s => genAccess e g s false (fun r f => loadRow e v.toNat s r f) }

/-- VSTR aN (09 R203, R209) -/
def semVstrGenerator (v : BitVec 6) (g : BitVec 2) (m : BitVec 5) : Sem :=
  { sr := maskRegs m, vr := [v.toNat]
    run := fun e s => genAccess e g s true (fun r f => storeRow e v.toNat m s r f) }

/-- VLDR kN(sa) (09 R203) -/
def semVldrBond (v : BitVec 6) (a : BitVec 5) (k : BitVec 4) : Sem :=
  { sr := [a.toNat], vw := [v.toNat]
    run := fun e s => loadRow e v.toNat s (s.rowByBond e.who k.toNat (e.ctx.sreg a.toNat) false) id }

/-- VSTR kN(sa) (09 R203) -/
def semVstrBond (v : BitVec 6) (a m : BitVec 5) (k : BitVec 4) : Sem :=
  { sr := a.toNat :: maskRegs m, vr := [v.toNat]
    run := fun e s => storeRow e v.toNat m s (s.rowByBond e.who k.toNat (e.ctx.sreg a.toNat) true) id }

/-! ## Rings (09 R206, R207; 10 R222) -/

/-- RCFG (09 R206) -/
def semRcfg (q : BitVec 4) (a : BitVec 5) : Sem :=
  { sr := [a.toNat]
    run := fun e s =>
      let d := ringDesc (e.ctx.sreg a.toNat)
      if d.ok = false then trapNat Cause.ring q.toNat
      else if d.en then
        match s.mapRing e.who q.toNat d with
        | some s' => .ok s'
        | none => trapNat Cause.ring q.toNat
      else if ((s.ctx e.who).ringOf q.toNat).isNone then trapNat Cause.ring q.toNat
      else if (s.hold e.who.core).handleCaptured e.who.slot q.toNat then
        .block (((s.hold e.who.core).copies.filter (fun c =>
          decide (c.slot = e.who.slot) && decide (c.qh = q.toNat))).map (fun c => c.uid))
      else .ok (s.unmapRing e.who q.toNat) }

/-- RADVR (09 R207, 10 R222) -/
def semRadvr (q : BitVec 4) (n : BitVec 8) : Sem :=
  { run := fun e s =>
      match (s.ctx e.who).ringOf q.toNat with
      | none => trapNat Cause.ring q.toNat
      | some k =>
        let r := (s.hold e.who.core).ring k
        let m := n.toNat + 1
        if r.filled < m then trapNat Cause.ring q.toNat
        else
          match r.passed m with
          | some x => .trap { cause := x.cause, frame := x.frame, fix := .ringMark k x.slot }
          | none =>
            .ok (((s.updHold e.who.core (fun h => h.setRing k (r.advanceRead m))).updCtx e.who
              (fun c => (c.clearRing q.toNat true false).meet)).wake e.who.core) }

/-- RADVW (09 R207) -/
def semRadvw (q : BitVec 4) (n : BitVec 8) : Sem :=
  { run := fun e s =>
      match (s.ctx e.who).ringOf q.toNat with
      | none => trapNat Cause.ring q.toNat
      | some k =>
        let r := (s.hold e.who.core).ring k
        let m := n.toNat + 1
        if r.free < m then trapNat Cause.ring q.toNat
        else
          .ok (((s.updHold e.who.core (fun h => h.setRing k (r.advanceWrite m))).updCtx e.who
            (fun c => c.clearRing q.toNat false true)).wake e.who.core) }

/-- ASET (09 R208) -/
def semAset (g : BitVec 2) (a : BitVec 5) : Sem :=
  { sr := [a.toNat]
    run := fun e s =>
      let r := (e.ctx.sreg a.toNat).toNat
      if 2047 < r then trapNat Cause.generator g.toNat
      else
        match s.tableRow e.who r with
        | .error (c, a) => trapNat c a
        | .ok l =>
          match parseGen l with
          | none => trapNat Cause.generator g.toNat
          | some x => .ok (s.updCtx e.who (fun c => { c with gens := c.gens.put g.toNat x })) }

/-! ## Bonds (08 R190 to R194, 09 R210) -/

/-- BOND (08 R190); a run past the rows of the holder's own partition (18 R325) traps as one past row 34,815 does (log
76). -/
def semBond (k : BitVec 4) (a b : BitVec 5) : Sem :=
  { sr := [a.toNat, b.toNat]
    run := fun e s =>
      let first := (e.ctx.sreg a.toNat).toNat
      let n := (e.ctx.sreg b.toNat).toNat
      let h := s.hold e.who.core
      let st := ((s.ctx e.who).handle k.toNat).st
      if n = 0 ∨ s.rowOk e.who.core (first + n - 1) = false ∨ h.meetsBond first n ∨ h.meetsRing first n ∨
          h.meetsCarve first n ∨ (st ≠ .empty ∧ st ≠ .given) ∨ 64 ≤ h.bonds.length then
        trapBare Cause.bond
      else
        let s1 := s.updHold e.who.core (fun x =>
          { x with bonds := x.bonds ++ [{ id := x.nextBond, first := first, count := n }], nextBond := x.nextBond + 1 })
        .ok (s1.setHandle e.who k.toNat { st := .held, home := e.who.core, bond := h.nextBond }) }

/-- What GIVE and LEND wait for (08 R192, R193). -/
def State.bondBusy (s : State) (w : Who) (h : Handle) : Bool := s.bondCaptured w h.home h.bond || s.remotePending w h

/-- GIVE (08 R192; 13 R269) -/
def semGive (k : BitVec 4) (a : BitVec 5) : Sem :=
  { sr := [a.toNat]
    run := fun e s =>
      let v := e.ctx.sreg a.toNat
      let h := (s.ctx e.who).handle k.toNat
      let t : Who := ⟨clusterOf e.who.core * 16 + (fld v 0 4).toNat, (fld v 4 2).toNat⟩
      if e.ctx.spec.isSome then trapNat Cause.speculative 0
      else if v >>> 6 ≠ 0 ∨ h.st ≠ .held ∨ t = e.who then trapBare Cause.bond
      else if s.bondBusy e.who h then .block (s.bondUsers e.who h.home h.bond)
      else
        let s1 := s.updCtx e.who (fun c =>
          ({ c with bonds := c.bonds.put k.toNat { h with st := .given } } : Ctx).clearBond k.toNat)
        .ok { s1 with transfers := s1.transfers ++ [⟨t, k.toNat, h.home, h.bond, false, (s1.hold e.who.core).part⟩] } }

/-- LEND (08 R193; 13 R269) -/
def semLend (k : BitVec 4) (a : BitVec 5) : Sem :=
  { sr := [a.toNat]
    run := fun e s =>
      let v := e.ctx.sreg a.toNat
      let h := (s.ctx e.who).handle k.toNat
      let ts : List Who := ((List.range 16).filter (fun i => v.getLsbD i)).map
        (fun i => ⟨clusterOf e.who.core * 16 + i, (fld v 16 2).toNat⟩)
      if e.ctx.spec.isSome then trapNat Cause.speculative 0
      else if v >>> 18 ≠ 0 ∨ h.st ≠ .held ∨ ts.isEmpty = true ∨ ts.contains e.who = true then trapBare Cause.bond
      else if s.bondBusy e.who h then .block (s.bondUsers e.who h.home h.bond)
      else
        let s1 := s.updCtx e.who (fun c =>
          ({ c with bonds := c.bonds.put k.toNat { h with st := .lent } } : Ctx).clearLent k.toNat)
        let s2 := s1.changeBond h.home h.bond (fun b => { b with borrowers := ts })
        .ok { s2 with transfers := s2.transfers ++ ts.map (fun t => ⟨t, k.toNat, h.home, h.bond, true, (s2.hold e.who.core).part⟩) } }

/-- RECALL (08 R193, 06 R153) -/
def semRecall (k : BitVec 4) : Sem :=
  { run := fun e s =>
      let h := (s.ctx e.who).handle k.toNat
      let out := match s.bondOf h with | some b => !b.borrowers.isEmpty | none => false
      if h.st ≠ .lent then trapBare Cause.bond
      else if out || s.bondCaptured e.who h.home h.bond then .block (s.bondUsers e.who h.home h.bond)
      else .ok (s.setHandle e.who k.toNat { h with st := .held }) }

/-- UNBOND (08 R194, 06 R153) -/
def semUnbond (k : BitVec 4) : Sem :=
  { run := fun e s =>
      let h := (s.ctx e.who).handle k.toNat
      if h.st ≠ .held ∧ h.st ≠ .borrowed then trapBare Cause.bond
      else if s.bondCaptured e.who h.home h.bond then .block (s.bondUsers e.who h.home h.bond)
      else
        let s1 := if h.st = .held then s.dropBond h.home h.bond else s.releaseLend e.who h
        .ok (s1.updCtx e.who (fun c => ({ c with bonds := c.bonds.put k.toNat {} } : Ctx).clearBond k.toNat)) }


/-! ## The instructions, each as a bundle of its own -/

/-- VLDR_ROW as a bundle of its own. -/
def execVldrRow (v : BitVec 6) (a : BitVec 5) (i : BitVec 8) (s : State) : Host.Outcome State Fault Refusal :=
  issueOne 6 (.vldrRow v a i) (semVldrRow v a i) s

/-- VSTR_ROW as a bundle of its own. -/
def execVstrRow (v : BitVec 6) (a : BitVec 5) (m : BitVec 5) (i : BitVec 8) (s : State) : Host.Outcome State Fault Refusal :=
  issueOne 6 (.vstrRow v a m i) (semVstrRow v a m i) s

/-- VLDR_RING as a bundle of its own. -/
def execVldrRing (v : BitVec 6) (q : BitVec 4) (i : BitVec 8) (s : State) : Host.Outcome State Fault Refusal :=
  issueOne 6 (.vldrRing v q i) (semVldrRing v q i) s

/-- VSTR_RING as a bundle of its own. -/
def execVstrRing (v : BitVec 6) (q : BitVec 4) (m : BitVec 5) (i : BitVec 8) (s : State) : Host.Outcome State Fault Refusal :=
  issueOne 6 (.vstrRing v q m i) (semVstrRing v q m i) s

/-- VLDR_GENERATOR as a bundle of its own. -/
def execVldrGenerator (v : BitVec 6) (g : BitVec 2) (s : State) : Host.Outcome State Fault Refusal :=
  issueOne 6 (.vldrGenerator v g) (semVldrGenerator v g) s

/-- VSTR_GENERATOR as a bundle of its own. -/
def execVstrGenerator (v : BitVec 6) (g : BitVec 2) (m : BitVec 5) (s : State) : Host.Outcome State Fault Refusal :=
  issueOne 6 (.vstrGenerator v g m) (semVstrGenerator v g m) s

/-- VLDR_BOND as a bundle of its own. -/
def execVldrBond (v : BitVec 6) (a : BitVec 5) (k : BitVec 4) (s : State) : Host.Outcome State Fault Refusal :=
  issueOne 6 (.vldrBond v a k) (semVldrBond v a k) s

/-- VSTR_BOND as a bundle of its own. -/
def execVstrBond (v : BitVec 6) (a : BitVec 5) (m : BitVec 5) (k : BitVec 4) (s : State) : Host.Outcome State Fault Refusal :=
  issueOne 6 (.vstrBond v a m k) (semVstrBond v a m k) s

/-- RCFG as a bundle of its own. -/
def execRcfg (q : BitVec 4) (a : BitVec 5) (s : State) : Host.Outcome State Fault Refusal :=
  issueOne 6 (.rcfg q a) (semRcfg q a) s

/-- RADVR as a bundle of its own. -/
def execRadvr (q : BitVec 4) (n : BitVec 8) (s : State) : Host.Outcome State Fault Refusal :=
  issueOne 6 (.radvr q n) (semRadvr q n) s

/-- RADVW as a bundle of its own. -/
def execRadvw (q : BitVec 4) (n : BitVec 8) (s : State) : Host.Outcome State Fault Refusal :=
  issueOne 6 (.radvw q n) (semRadvw q n) s

/-- ASET as a bundle of its own. -/
def execAset (g : BitVec 2) (a : BitVec 5) (s : State) : Host.Outcome State Fault Refusal :=
  issueOne 6 (.aset g a) (semAset g a) s

/-- BOND as a bundle of its own. -/
def execBond (k : BitVec 4) (a : BitVec 5) (b : BitVec 5) (s : State) : Host.Outcome State Fault Refusal :=
  issueOne 6 (.bond k a b) (semBond k a b) s

/-- GIVE as a bundle of its own. -/
def execGive (k : BitVec 4) (a : BitVec 5) (s : State) : Host.Outcome State Fault Refusal :=
  issueOne 6 (.give k a) (semGive k a) s

/-- LEND as a bundle of its own. -/
def execLend (k : BitVec 4) (a : BitVec 5) (s : State) : Host.Outcome State Fault Refusal :=
  issueOne 6 (.lend k a) (semLend k a) s

/-- RECALL as a bundle of its own. -/
def execRecall (k : BitVec 4) (s : State) : Host.Outcome State Fault Refusal :=
  issueOne 6 (.recall k) (semRecall k) s

/-- UNBOND as a bundle of its own. -/
def execUnbond (k : BitVec 4) (s : State) : Host.Outcome State Fault Refusal :=
  issueOne 6 (.unbond k) (semUnbond k) s

end Sys2Proof.Machine
end

