-- ==== Sys2Proof/Machine/Copy.lean ====
section
/-! DEFINITION. The copy engine: records and their checks at push (10 R214 to R216), the movement of one tuple in
loop order (R217 to R219), deadlines (R220) and completion (R221, R222). -/
namespace Sys2Proof.Machine

/-! ## Records -/

/-- A declared set (06 Table 6.2). -/
def setOf (v : Word) : RowSet :=
  let one (first n : Nat) : List (Nat × Nat) := if n = 0 then [] else [(first, first + n - 1)]
  { ranges := one (fld v 0 16).toNat (fld v 16 16).toNat ++ one (fld v 32 16).toNat (fld v 48 16).toNat }

/-- A record's fields (10 Tables 10.1, 10.2) from its 256 bytes. -/
def parseCopy (l : List Byte) : CopyRec :=
  let n := fieldAt l 18 1
  let lv := List.range (n - 1)
  { raw := l
    src := BitVec.ofNat 64 (fieldAt l 0 8)
    dst := BitVec.ofNat 64 (fieldAt l 8 8)
    srcSpace := BitVec.ofNat 8 (fieldAt l 16 1)
    dstSpace := BitVec.ofNat 8 (fieldAt l 17 1)
    levels := n
    ind := BitVec.ofNat 8 (fieldAt l 19 1)
    run := fieldAt l 20 4
    listFirst := fieldAt l 24 2
    listLen := fieldAt l 28 4
    rd := setOf (BitVec.ofNat 64 (fieldAt l 32 8))
    wr := setOf (BitVec.ofNat 64 (fieldAt l 40 8))
    tag := BitVec.ofNat 32 (fieldAt l 48 4)
    counts := lv.map (fun d => fieldAt l (128 + 12 * d) 4)
    sstrides := lv.map (fun d => signedAt l (128 + 12 * d + 4))
    dstrides := lv.map (fun d => signedAt l (128 + 12 * d + 8)) }

def CopyRec.sspace (r : CopyRec) : Nat := (fld r.srcSpace 0 4).toNat
def CopyRec.shandle (r : CopyRec) : Nat := (fld r.srcSpace 4 4).toNat
def CopyRec.dspace (r : CopyRec) : Nat := (fld r.dstSpace 0 4).toNat
def CopyRec.dhandle (r : CopyRec) : Nat := (fld r.dstSpace 4 4).toNat
/-- The indirect level, and which sides are indirect. -/
def CopyRec.level (r : CopyRec) : Nat := (fld r.ind 0 4).toNat
def CopyRec.sind (r : CopyRec) : Bool := r.ind.getLsbD 4
def CopyRec.dind (r : CopyRec) : Bool := r.ind.getLsbD 5
def product (l : List Nat) : Nat := l.foldl (fun a x => a * x) 1
/-- Tuples of the nest, and tuples of one iteration of level L − 1. -/
def CopyRec.tuples (r : CopyRec) : Nat := product r.counts
def CopyRec.inner (r : CopyRec) : Nat := product r.counts.dropLast
/-- Lines of a run on a line side. -/
def CopyRec.lines (r : CopyRec) : Nat := r.run / 128

/-- The indices of tuple t in loop order: level 1 first. -/
def tupleIndices : List Nat → Nat → List Nat
  | [], _ => []
  | c :: t, k => k % c :: tupleIndices t (k / c)

/-- 10 R217: the offset of a side at a tuple, without the list. -/
def strideSum (is : List Nat) (ss : List Int) : Int := (List.zipWith (fun (i : Nat) s => (i : Int) * s) is ss).foldl (fun a x => a + x) 0

/-- The list entry a tuple uses: i_m and the levels above it. -/
def CopyRec.entry (r : CopyRec) (is : List Nat) : Nat :=
  let up := (r.counts.drop (r.level - 1)).zip (is.drop (r.level - 1))
  (up.foldr (fun (p : Nat × Nat) a => p.2 + p.1 * a) 0)

/-- Handle bits that Table 10.3 shows as 0 are nonzero. -/
def badHandle (sp h : Nat) : Bool :=
  match sp with
  | 2 => false
  | 3 => decide (1 < h)
  | 0 => decide (h ≠ 0)
  | 1 => decide (h ≠ 0)
  | 4 => decide (h ≠ 0)
  | 5 => decide (h ≠ 0)
  | _ => false

/-- 10 R216 "record"; a run outside the values of Table 10.1 is one too, and an indirect level of L or more
(log 81). -/
def CopyRec.malformed (r : CopyRec) : Bool :=
  let l := r.raw
  let line (sp : Nat) : Bool := decide (sp ≠ 0)
  decide (fieldAt l 26 2 ≠ 0) || decide (fieldAt l 52 76 ≠ 0) || decide (fieldAt l 236 20 ≠ 0) ||
    decide (fld r.ind 6 2 ≠ 0) || badHandle r.sspace r.shandle || badHandle r.dspace r.dhandle ||
    decide (r.levels < 1) || decide (10 < r.levels) || decide (r.run < 1) || decide (16777216 < r.run) ||
    r.counts.any (fun c => decide (c < 1) || decide (16777216 < c)) ||
    ((line r.sspace || line r.dspace) && decide (r.run % 128 ≠ 0)) ||
    (decide (r.level ≠ 0) != (r.sind || r.dind)) || decide (r.levels ≤ r.level) ||
    (decide (r.level = 0) && decide (r.listLen ≠ 0)) ||
    (decide (r.level ≠ 0) &&
      (decide (2048 * 32 < 32 * r.listFirst + r.listLen) || decide (r.listLen < product (r.counts.drop (r.level - 1)))))

/-- Least and greatest line of a non-indirect side. -/
def lineSpan (base : Word) (counts : List Nat) (strides : List Int) (lines : Nat) : Int × Int :=
  let b : Int := base.toNat
  let term (f : Int → Int → Int) : Int :=
    (List.zipWith (fun (c : Nat) (s : Int) => f 0 (((c : Int) - 1) * s)) counts strides).foldl (fun a x => a + x) 0
  (b + term (fun x y => if x ≤ y then x else y), b + term (fun x y => if x ≤ y then y else x) + (lines : Int) - 1)

/-- Every line of a non-indirect side lies in a set: at once when the whole span does, else tuple by tuple. -/
def CopyRec.linesIn (r : CopyRec) (base : Word) (strides : List Int) (t : RowSet) : Bool :=
  let sp := lineSpan base r.counts strides r.lines
  t.ranges.any (fun x => decide ((x.1 : Int) ≤ sp.1) && decide (sp.2 ≤ (x.2 : Int))) ||
    (List.range r.tuples).all (fun k =>
      let a := (base.toNat : Int) + strideSum (tupleIndices r.counts k) strides
      (List.range r.lines).all (fun i => decide (0 ≤ a + i) && t.has (a + i).toNat))

/-- Lines of a space whose range Table 10.3 fixes. -/
def spaceLines : Nat → Nat
  | 3 => 128
  | 4 => 272
  | 5 => 1
  | _ => 0

/-- 10 R216 "space"; a destination in the half that is executing in the issuing context's stream (R215) is one too (DESIGN
CHOICE, log 103). -/
def State.spaceRefused (s : State) (w : Who) (r : CopyRec) : Bool :=
  let sp := lineSpan r.dst r.counts r.dstrides r.lines
  decide (2 < r.sspace) || decide (5 < r.dspace) ||
    (decide (3 ≤ r.dspace) && !r.dind && (decide (sp.1 < 0) || decide ((spaceLines r.dspace : Int) ≤ sp.2))) ||
    (decide (r.dspace = 3) && decide (r.dhandle = (s.ctx w).half))

/-- Checks with the rows or the address that each names. -/
abbrev Checks := List (Bool × Word)
def Checks.first (l : Checks) : Option Word := l.findSome? (fun x => if x.1 then some x.2 else none)

/-- A declared set, or a line of a non-indirect space 1 side, leaves the rows. -/
def State.rowsRefused (s : State) (g : Nat) (r : CopyRec) : Checks :=
  let out (base : Word) (strides : List Int) : Bool :=
    let sp := lineSpan base r.counts strides r.lines
    decide (sp.1 < 0) || !(s.rowOk g sp.2.toNat)
  (r.rd.ranges ++ r.wr.ranges).map (fun x => (!(s.rowOk g x.2), BitVec.ofNat 64 x.2)) ++
    [(decide (r.sspace = 1) && !r.sind && out r.src r.sstrides, r.src),
     (decide (r.dspace = 1) && !r.dind && out r.dst r.dstrides, r.dst)]

def CopyRec.listRows (r : CopyRec) : List Nat :=
  if r.level = 0 then [] else (List.range ((r.listLen + 31) / 32)).map (fun i => r.listFirst + i)

/-- A line of a non-indirect space 1 side lies outside its declared set, or a list row outside rd_set. -/
def CopyRec.setsRefused (r : CopyRec) : Checks :=
  [(decide (r.sspace = 1) && !r.sind && !(r.linesIn r.src r.sstrides r.rd), r.src),
   (decide (r.dspace = 1) && !r.dind && !(r.linesIn r.dst r.dstrides r.wr), r.dst)] ++
    r.listRows.map (fun x => (!(r.rd.has x), BitVec.ofNat 64 x))

/-- Rights of Table 10.3 for bonds. -/
def State.bondRefused (s : State) (e : Handle) (write : Bool) (r : CopyRec) (base : Word) (strides : List Int)
    (ind : Bool) : Bool :=
  let right := decide (e.st = .held) || (!write && (decide (e.st = .lent) || decide (e.st = .borrowed)))
  match s.bondOf e with
  | none => true
  | some b =>
    let sp := lineSpan base r.counts strides r.lines
    !right || (!ind && (decide (sp.1 < 0) || decide ((b.count : Int) ≤ sp.2)))

/-- 08 R191: a non-indirect space 1 side names a row of a bond to which the handles give no right. -/
def Hold.bondedRefused (h : Hold) (l : Tab Handle) (g : Nat) (write : Bool) (r : CopyRec) (base : Word)
    (strides : List Int) : Bool :=
  let sp := lineSpan base r.counts strides r.lines
  h.bonds.any (fun b =>
    let first : Int := b.first
    let past : Int := first + b.count
    !(numberRight l g b.id write) && decide (sp.1 < past) && decide (first ≤ sp.2) &&
      (List.range r.tuples).any (fun k =>
        let a := (base.toNat : Int) + strideSum (tupleIndices r.counts k) strides
        decide (a < past) && decide (first < a + r.lines)))

/-- The rights that a record lacks (Table 10.3, 08 R191), those to the rows of its list among them. -/
def State.rightsRefused (s : State) (w : Who) (r : CopyRec) : Checks :=
  let c := s.ctx w
  [(decide (r.sspace = 2) && s.bondRefused (c.handle r.shandle) false r r.src r.sstrides r.sind, r.src),
   (decide (r.dspace = 2) && s.bondRefused (c.handle r.dhandle) true r r.dst r.dstrides r.dind, r.dst),
   (decide (r.sspace = 1) && !r.sind && (s.hold w.core).bondedRefused c.bonds w.core false r r.src r.sstrides, r.src),
   (decide (r.dspace = 1) && !r.dind && (s.hold w.core).bondedRefused c.bonds w.core true r r.dst r.dstrides, r.dst)] ++
    r.listRows.map (fun x => (!(s.rowRight w x false), BitVec.ofNat 64 x))

/-- 10 R216, R219; 08 R191: the failure found at push, in the order the element reports, with the row or the address that
a trap for it names: the side's first line, the row of a set, or the destination (log 79). "Speculative store", which the
order does not list, comes last (DESIGN CHOICE, log 103). -/
def State.pushCause (s : State) (w : Who) (r : CopyRec) : Option (Nat × Word) :=
  if r.malformed then some (Cause.badRecord, 0)
  else if s.spaceRefused w r then some (Cause.space, 0)
  else
    match (s.rowsRefused w.core r).first, r.setsRefused.first, (s.rightsRefused w r).first with
    | some a, _, _ => some (Cause.rowRange, a)
    | none, some a, _ => some (Cause.phaseSet, a)
    | none, none, some a => some (Cause.bond, a)
    | none, none, none => if r.dspace = 0 ∧ (s.ctx w).spec.isSome then some (Cause.speculativeStore, r.dst) else none

/-! ## Moving bytes -/

/-- Why a command fails: the cause, the row or address that a trap for it names, and the frame behind cause 12. -/
structure CopyFault where
  cause : Nat
  addr : Word := 0
  frame : Option Nat := none
  deriving DecidableEq, Repr

/-- What moving a piece comes to. -/
inductive Moved (α : Type) where
  | done (x : α)
  | failed (f : CopyFault)
  | wait (s : State)

/-- Bytes of a source, and where it held poison. -/
structure Piece where
  bytes : List Byte
  bad : Option CopyFault

/-- 18 R332: the leaf for a side of a copy command: the one that it keeps, or the one it finds and then keeps. -/
def State.copyLeaf (s : State) (g : Nat) (c : CCmd) (dst : Bool) (va : Word) : Except WalkFault (Leaf × State) :=
  let j := c.owner.job
  match (s.hold g).pages.find? (fun p => decide (p.uid = c.uid) && (p.dst == dst) &&
      p.leaf.covers j (s.job j).part.toNat va.toNat) with
  | some p => .ok (p.leaf, s)
  | none =>
    match s.leafFor (clusterOf g) j va with
    | .error f => .error f
    | .ok (l, s1) =>
      .ok (l, s1.updHold g (fun h =>
        { h with pages := ⟨c.uid, dst, l⟩ :: h.pages.filter (fun p => !(decide (p.uid = c.uid) && (p.dst == dst))) }))

/-- A copy's physical address (18 R331, 24 R397). -/
def State.copyPage (s : State) (g : Nat) (c : CCmd) (dst : Bool) (va : Word) (k : Kind) : Except WalkFault (Nat × State) :=
  if c.owner.boot || !(canonical va) then
    match s.translate (clusterOf g) c.owner c.priv va k with
    | .error e => .error ⟨e, none⟩
    | .ok x => .ok x
  else
    match s.copyLeaf g c dst va with
    | .error f => .error f
    | .ok (l, s1) =>
      match s1.through l c.priv va k with
      | .error e => .error ⟨e, none⟩
      | .ok pa => .ok (pa, s1)

/-- 10 Table 10.6, 18 R331: the causes with which a copy reports what an access of it comes to: a refusal as "translation",
and a host abort, which the table does not list, as "link lost" (log 93). -/
def copyCause (e : Nat) : Nat :=
  if e = Cause.permission then Cause.translation else if e = Cause.hostAbort then Cause.linkLost else e

/-- 10 R217: a copy's translation failures; a permission failure is reported as cause 19. -/
def State.copyTranslate (s : State) (g : Nat) (c : CCmd) (dst : Bool) (va : Word) (k : Kind) : Except WalkFault (Nat × State) :=
  match s.copyPage g c dst va k with
  | .error f => .error { f with cause := copyCause f.cause }
  | .ok (p, s1) =>
    match s1.placeCause c.owner va p k false with
    | some e => .error ⟨copyCause e, none⟩
    | none =>
      if (s1.regionAt c.owner va.toNat).isSome then .error ⟨Cause.versioned, none⟩
      else .ok (s1.livePa c.owner va.toNat p, s1)

/-- A failure of an access by a copy; a line that the host may hold makes it wait (19 R341). -/
def State.copyFail {α : Type} (s : State) (e : Nat) (va : Word) (f : Option Nat) : Moved α :=
  if e = Cause.later then .wait s else .failed ⟨copyCause e, va, f⟩

/-- n bytes of one page of global memory with their poison. -/
def State.copyReadPage (s : State) (g : Nat) (c : CCmd) (va : Word) (n : Nat) : Moved (Piece × State) :=
  match s.copyTranslate g c false va .read with
  | .error f => s.copyFail f.cause va f.frame
  | .ok (pa, s1) =>
    let f := s1.frameOf Cause.poisoned pa
    match s1.readFault c.owner.part pa n with
    | some e =>
      if e = Cause.poisoned ∧ s1.retired pa = false then .done (⟨s1.readFor c.owner va.toNat pa n, some ⟨e, va, f⟩⟩, s1)
      else s1.copyFail e va f
    | none => .done (⟨s1.readFor c.owner va.toNat pa n, none⟩, s1.answered pa)

/-- At most 128 bytes of global memory, which touch at most two pages. -/
def State.copyReadGlobal (s : State) (g : Nat) (c : CCmd) (va : Word) (n : Nat) : Moved (Piece × State) :=
  let m := min n (65536 - va.toNat % 65536)
  match s.copyReadPage g c va m with
  | .failed f => .failed f
  | .wait x => .wait x
  | .done (p, s1) =>
    if n ≤ m then .done (p, s1)
    else
      match s1.copyReadPage g c (va + BitVec.ofNat 64 m) (n - m) with
      | .failed f => .failed f
      | .wait x => .wait x
      | .done (q, s2) => .done (⟨p.bytes ++ q.bytes, p.bad.or q.bad⟩, s2)

/-- The core and row of line n of a row side: space 1 or a bond. -/
def State.lineRow (s : State) (g : Nat) (sp : Nat) (e : Handle) (n : Nat) : Nat × Nat :=
  if sp = 2 then
    match s.bondOf e with
    | some b => (e.home, b.first + n)
    | none => (e.home, n)
  else (g, n)

/-- Bytes i to i + n − 1 of the run that starts at source line a; an invalid row fails "expired". -/
def State.copyReadLines (s : State) (g : Nat) (c : CCmd) (a i n : Nat) : Moved (Piece × State) :=
  let rows := [a + i / 128, a + (i + n - 1) / 128].eraseDups.map (fun k => s.lineRow g c.desc.sspace c.srcBond k)
  match rows.find? (fun t => !(s.row t.1 t.2).valid) with
  | some t => .failed ⟨Cause.expired, BitVec.ofNat 64 t.2, none⟩
  | none =>
    let l := rows.flatMap (fun t => rowBytes (s.row t.1 t.2).data)
    let bad := (rows.find? (fun t => (s.row t.1 t.2).poison)).map (fun t =>
      ({ cause := Cause.poisoned, addr := BitVec.ofNat 64 t.2 } : CopyFault))
    .done (⟨(l.drop (i % 128)).take n, bad⟩, s)

/-- The store of microprogram words and routine entries, and the format table (06 R145, R148). -/
def MUnit.putWord (m : MUnit) (i : Nat) (v : Word) : MUnit :=
  if i < 4096 then { m with words := m.words.put i v } else { m with entries := m.entries.put (i - 4096) v }
def MUnit.putFormat (m : MUnit) (i : Nat) (v : Word) : MUnit := { m with formats := m.formats.put i v }
def putWords (f : MUnit → Nat → Word → MUnit) (m : MUnit) (i : Nat) : List Byte → Nat → MUnit
  | _, 0 => m
  | l, k + 1 => putWords f (f m i (BitVec.ofNat 64 (leNat (l.take 8)))) (i + 1) (l.drop 8) k

/-- Line n of a loop-buffer half holds four bundles (10 Table 10.3). -/
def Half.putLine (h : Half) (n : Nat) (l : List Byte) : Half :=
  let old := h.bundles ++ List.replicate (512 - h.bundles.length) 0
  let new : List BundleWord := [0, 1, 2, 3].map (fun k => BitVec.ofNat 256 (leNat ((l.drop (32 * k)).take 32)))
  { h with bundles := old.take (4 * n) ++ new ++ old.drop (4 * n + 4) }

/-- Poison goes to a row with the data, and fails a command with any other destination (10 Table 10.4). -/
def State.unlessBad (p : Piece) (s : State) : Moved State :=
  match p.bad with
  | some f => .failed f
  | none => .done s

/-- One line written on a line side (10 R218, Table 10.4). -/
def State.copyWriteLine (s : State) (g : Nat) (c : CCmd) (n : Nat) (p : Piece) : Moved State :=
  let cell : RowCell := { data := bytesRow p.bytes, poison := p.bad.isSome }
  match c.desc.dspace with
  | 1 => .done (s.putRow g n cell)
  | 2 => let t := s.lineRow g 2 c.dstBond n; .done (s.putRow t.1 t.2 cell)
  | 3 => State.unlessBad p (s.updCtx ⟨g, c.slot⟩ (fun x =>
      { x with halves := x.halves.put c.desc.dhandle ((x.halves.get {} c.desc.dhandle).putLine n p.bytes) }))
  | 4 => State.unlessBad p (s.updHold g (fun h => { h with matrix := putWords MUnit.putWord h.matrix (16 * n) p.bytes 16 }))
  | 5 => State.unlessBad p (s.updHold g (fun h => { h with matrix := putWords MUnit.putFormat h.matrix 0 p.bytes 16 }))
  | _ => .failed ⟨Cause.space, 0, none⟩

/-- 08 R403: bytes written at va, the first n of their run before them, end a 64-byte block that the run covers. -/
def endsBlock (va : Word) (n len : Nat) : Bool := decide ((va.toNat + len) % 64 = 0) && decide (64 ≤ n + len)

/-- The fault of a copy's write, or what the party outside answers (10 R217, 19 R339, R344). -/
def State.copyWriteFault (s : State) (p pa n : Nat) : Option Nat :=
  if s.snoopingRange pa n then some s.snoopCause
  else if s.blockBusy pa then some Cause.later
  else (s.writeFault p pa).or (s.outsideFault pa)

/-- What stood in the 8-byte block of local memory that a write of the context's own copy command reaches; no edge orders
that write before the context's accesses until it meets the element (11 R233, R235). -/
def State.remember (s : State) (w : Who) (c : CCmd) (va pa : Nat) : State :=
  let a := pa / 8 * 8
  if decide (s.place pa = .hbm) && !(s.inTier c.owner va) && !(s.poisonedRange a 8) then
    s.updCtx w (fun x =>
      { x with older := { ord := c.ord, start := s.key a, bytes := s.readBytes a 8 } :: x.older })
  else s

/-- One aligned 8-byte block, or a part of one, written to global memory (10 R218), after n bytes of its run; a write to a
pallet whose move is past its restarts waits there (15 R309). -/
def State.copyWriteGlobal (s : State) (g : Nat) (c : CCmd) (va : Word) (n : Nat) (p : Piece) : Moved State :=
  let l := p.bytes
  if p.bad.isSome then State.unlessBad p s
  else
    match s.copyTranslate g c true va .write with
    | .error f => s.copyFail f.cause va f.frame
    | .ok (pa, s1) =>
      match s1.copyWriteFault c.owner.part pa l.length with
      | some e => s1.copyFail e va (s1.frameOf e pa)
      | none =>
        if s1.palletHolds c.owner va.toNat then .wait (s1.waitAt c.owner va.toNat (.copy g c.uid))
        else
          let s2 := (s1.remember ⟨g, c.slot⟩ c va.toNat pa).storeFor c.owner va.toNat pa l
          let s3 := if endsBlock va n l.length then s2.cleanPoison (pa + l.length - 64) 64 else s2
          .done ((s3.restartMove c.owner va.toNat).answered pa)

/-- The pieces of a run: lines for a line destination, aligned 8-byte blocks for a global one; k bounds them. -/
def runPieces (line : Bool) (dst : Word) : Nat → Nat → Nat → List (Nat × Nat)
  | 0, _, _ => []
  | k + 1, i, n =>
    if n ≤ i then []
    else
      let m := if line then 128 else min (n - i) (8 - (dst.toNat + i) % 8)
      (i, m) :: runPieces line dst k (i + m) n

/-- 10 R217: an address of a side, which is an unbounded integer: outside 64 bits it is non-canonical. -/
def sideVa (a : Int) : Except CopyFault Word :=
  if a < 0 ∨ (2 : Int) ^ 64 ≤ a then .error ⟨Cause.nonCanonical, BitVec.ofInt 64 a, none⟩ else .ok (BitVec.ofInt 64 a)

/-- Bytes i to i + n − 1 of a run from its source. -/
def State.copyRead (s : State) (g : Nat) (c : CCmd) (a : Int) (i n : Nat) : Moved (Piece × State) :=
  if c.desc.sspace = 0 then
    match sideVa (a + i) with
    | .error f => .failed f
    | .ok va => s.copyReadGlobal g c va n
  else s.copyReadLines g c a.toNat i n

def State.copyWrite (s : State) (g : Nat) (c : CCmd) (a : Int) (i : Nat) (p : Piece) : Moved State :=
  if c.desc.dspace = 0 then
    match sideVa (a + i) with
    | .error f => .failed f
    | .ok va => s.copyWriteGlobal g c va i p
  else s.copyWriteLine g c (a.toNat + i / 128) p

/-- How the pieces of a run end. -/
inductive RunEnd where
  | whole
  | failed (f : CopyFault)
  | waits

/-- The pieces of one run in order: the bytes written and how it ends. -/
def State.copyPieces (g : Nat) (c : CCmd) (as ad : Int) : List (Nat × Nat) → Nat → State → Nat × State × RunEnd
  | [], n, s => (n, s, .whole)
  | (i, m) :: t, n, s =>
    match s.copyRead g c as i m with
    | .failed f => (n, s, .failed f)
    | .wait x => (n, x, .waits)
    | .done (p, s1) =>
      match s1.copyWrite g c ad i p with
      | .failed f => (n, s1, .failed f)
      | .wait x => (n, x, .waits)
      | .done s2 => State.copyPieces g c as ad t (n + m) s2

/-- 10 R217: the list entry of a tuple, signed; a poisoned list row fails "list". -/
def State.copyEntry (s : State) (g : Nat) (r : CopyRec) (is : List Nat) : Except Nat Int :=
  let e := r.entry is
  let c := s.row g (r.listFirst + e / 32)
  if c.poison || !c.valid then .error Cause.list else .ok (signedAt (rowBytes c.data) (4 * (e % 32)))

/-- The address of a side at a tuple. -/
def sideAddr (base : Word) (is : List Nat) (ss : List Int) (ind : Bool) (m : Nat) (e : Int) : Int :=
  let o := strideSum is ss
  (base.toNat : Int) + (if ind then o - ((is.getD (m - 1) 0 : Nat) : Int) * ss.getD (m - 1) 0 + e else o)

/-- 10 R217: the check of an indirect side's lines when its tuple is visited. -/
def State.lineCause (s : State) (g : Nat) (sp : Nat) (e : Handle) (declared : RowSet) (l : Tab Handle) (write : Bool)
    (a : Int) (n : Nat) : Option Nat :=
  let z := a + (n : Int) - 1
  match sp with
  | 0 => none
  | 1 =>
    if a < 0 ∨ s.rowOk g z.toNat = false then some Cause.rowRange
    else if (List.range n).all (fun i => declared.has (a.toNat + i)) = false then some Cause.phaseSet
    else if (s.hold g).bonds.any (fun b =>
        runsMeet a.toNat n b.first b.count && !(numberRight l g b.id write)) then some Cause.bond
    else none
  | 2 =>
    (match s.bondOf e with
     | some b => if a < 0 ∨ (b.count : Int) ≤ z then some Cause.bond else none
     | none => some Cause.bond)
  | k => if a < 0 ∨ (spaceLines k : Int) ≤ z then some Cause.space else none

/-! ## Commands -/

def Hold.putCopy (h : Hold) (c : CCmd) : Hold :=
  { h with copies := h.copies.map (fun x => if x.uid = c.uid then c else x) }
def State.copy? (s : State) (g uid : Nat) : Option CCmd := (s.hold g).copies.find? (fun c => decide (c.uid = uid))

/-- The classes of access of a record (11 R236): scratchpad reads, scratchpad writes, global memory. -/
def CopyRec.readsRows (r : CopyRec) : Bool := decide (r.sspace = 1) || decide (r.sspace = 2) || decide (r.level ≠ 0)
def CopyRec.writesRows (r : CopyRec) : Bool := decide (r.dspace = 1) || decide (r.dspace = 2)
def CopyRec.usesMemory (r : CopyRec) : Bool := decide (r.sspace = 0) || decide (r.dspace = 0)

/-- Where the matrix unit may go from a microword (06 R149, Table 6.9). -/
def microNext (pc : Nat) : Instr → List Nat
  | .mend => []
  | .mloop _ i => [pc + 1, i.toNat]
  | .mbr x _ _ i => if x = 0 then [i.toNat] else [pc + 1, i.toNat]
  | _ => [pc + 1]
/-- The microwords that a command can still come to from those given; n bounds the search. -/
def MUnit.reach (m : MUnit) : Nat → List Nat → List Nat → List Nat
  | 0, _, seen => seen
  | _ + 1, [], seen => seen
  | n + 1, pc :: t, seen =>
    if 4096 ≤ pc ∨ seen.contains pc = true then m.reach n t seen
    else
      match decodeMicro (m.words.get 0 pc) with
      | none => m.reach n t seen
      | some i => m.reach n (microNext pc i ++ t) (pc :: seen)
/-- A microword reads, or writes, rows. -/
def microRows (write : Bool) : Instr → Bool
  | .mlda _ _ _ _ _ => !write
  | .mldb _ _ _ _ _ => !write
  | .mdrain _ _ _ _ _ _ => write
  | .mpost _ _ => write
  | _ => false
/-- From a microword on, a command may still read, or write, rows. -/
def MUnit.mayAccess (m : MUnit) (pc : Nat) (write : Bool) : Bool :=
  (m.reach 16384 [pc] []).any (fun k => (decodeMicro (m.words.get 0 k)).any (microRows write))

/-- 11 R236: an earlier matrix command of a slot that a barrier waits for: one that may still read or write rows, as the
barrier's classes ask. -/
def Hold.matrixBehind (h : Hold) (slot : Nat) (b : Bars) : Bool :=
  let m := h.matrix
  let waits (d : MCmd) (pc : Nat) : Bool :=
    decide (d.slot = slot) && ((decide (d.ord < b.srd) && m.mayAccess pc false) || (decide (d.ord < b.swr) && m.mayAccess pc true))
  (match m.run with
   | some r => decide (r.ended = none) && waits r.cmd r.pc
   | none => false) ||
    (m.queue.filterMap MEntry.cmd?).any (fun d => waits d (fld (m.entries.get 0 d.routine) 0 12).toNat)
/-- 11 R236: an earlier copy command of a slot that a barrier waits for. -/
def Hold.copyBehind (h : Hold) (slot : Nat) (b : Bars) : Bool :=
  h.copies.any (fun d => decide (d.slot = slot) && decide (d.ended = none) &&
    ((d.desc.readsRows && decide (d.ord < b.srd)) || (d.desc.writesRows && decide (d.ord < b.swr)) ||
      (d.desc.usesMemory && decide (d.ord < b.mem))))
/-- 11 R234: an access that the context made before a push, and that is not yet performed. -/
def Ctx.accessBefore (c : Ctx) (ord : Nat) : Bool :=
  c.loadQ.any (fun l => decide (l.ord < ord)) || c.storeQ.any (fun l => decide (l.ord < ord)) ||
    c.remoteQ.any (fun r => decide (r.ord ≤ ord))

/-- 10 R223, 11 R234, R236: what the command's push must follow, and its barrier. -/
def State.copyHeldBack (s : State) (g : Nat) (c : CCmd) : Bool :=
  let h := s.hold g
  (s.ctx ⟨g, c.slot⟩).accessBefore c.ord || h.copyBehind c.slot c.bar || h.matrixBehind c.slot c.bar

/-- A command leaves: its half is free again, and rings it held are looked at. -/
def State.dropCopy (s : State) (g : Nat) (c : CCmd) : State :=
  let s1 := s.updHold g (fun h => { h with copies := h.copies.filter (fun x => !decide (x.uid = c.uid)) })
  let next (k : Nat) : Option Nat := ((s1.hold g).copies.find? (fun x =>
    decide (x.slot = c.slot) && decide (x.desc.dspace = 3) && decide (x.desc.dhandle = k))).map (fun x => x.uid)
  let s2 := s1.updCtx ⟨g, c.slot⟩ (fun x =>
    { x with halves := x.halves.map (fun e =>
        if e.2.claim = some c.uid then (e.1, { e.2 with claim := next e.1 }) else e) })
  ((s2.releaseRings g).gctlSettle g).wake g

/-- Log record kinds of Table 22.3 for an end. -/
def endRecord (kind : Nat) : Nat := if kind = 0 then 1 else if kind = 3 then 2 else 5

/-- 10 R220 to R222: the command ends, with kind 0 done, 2 failed or 3 late. -/
def State.endCopy (s : State) (g : Nat) (c : CCmd) (kind : Nat) (f : CopyFault) : State :=
  let c1 := { c with ended := some (kind, f.cause), frame := f.frame, addr := f.addr }
  match c.ring with
  | some _ =>
    let s1 := s.updHold g (fun h => h.putCopy c1)
    if c.deadline ≠ 0 ∧ c.handed = none then s1.observe ⟨g, c.slot⟩ (endRecord kind) 0 (c.seq.toNat * 2 ^ 32 + c.iters) else s1
  | none =>
    let s1 := s.dropCopy g c
    if kind = 2 then
      s1.updCtx ⟨g, c.slot⟩ (fun x => if x.ringless.isSome then x else { x with ringless := some ⟨f.cause, f.frame, f.addr⟩ })
    else s1

/-- Iterations of level L − 1 completed. -/
def CCmd.done (c : CCmd) (tuple : Nat) : Nat := if c.desc.inner = 0 then 0 else tuple / c.desc.inner

/-- 10 R220: whether the command stops at the boundary before its next tuple. -/
def CCmd.lateHere (c : CCmd) : Bool :=
  c.ring.isSome && decide (c.deadline ≠ 0) && decide (c.tuple % c.desc.inner = 0) && decide (c.moved = 0) &&
    !(c.begun && decide (c.tuple = 0)) &&
    (match c.handed with
     | some (2, k) => decide (c.done c.tuple = k)
     | some _ => false
     | none => c.expired)

/-- A command that could begin and has not. -/
def State.readyCopy (s : State) (g : Nat) (c : CCmd) : Bool :=
  !c.begun && decide (c.tuple = 0) && decide (c.moved = 0) && decide (c.ended = none) && decide (c.refused = none) &&
    !(s.copyHeldBack g c) && !(s.awaitsRecord g c) && !c.lateHere
/-- 10 R212: commands begin in push order: every earlier one that could begin has begun when one moves, and from then on
they may pass each other (log 80). -/
def State.beginCopies (s : State) (g : Nat) (c : CCmd) : State :=
  let early := ((s.hold g).copies.takeWhile (fun d => decide (d.uid ≠ c.uid))).filter (s.readyCopy g)
  s.updHold g (fun h => { h with copies := h.copies.map (fun d =>
    if d.uid = c.uid ∨ early.any (fun e => decide (e.uid = d.uid)) = true then { d with begun := true } else d) })
/-- 11 R236: what a command behind a barrier on global accesses follows has been performed at device scope. -/
def State.passBar (s : State) (w : Who) (b : Bars) : State :=
  if b.mem = 0 then s else s.updCtx w (fun x => x.settledTo b.mem)

/-- 10 R217: the present tuple moves on, from the byte that it has come to. -/
def State.copyMove (s : State) (g : Nat) (c : CCmd) : State :=
  let r := c.desc
  let is := tupleIndices r.counts c.tuple
  match (if r.level = 0 then .ok 0 else s.copyEntry g r is) with
  | .error e => s.endCopy g c 2 { cause := e }
  | .ok x =>
    let as := sideAddr r.src is r.sstrides r.sind r.level x
    let ad := sideAddr r.dst is r.dstrides r.dind r.level x
    let bad (ind : Bool) (a : Int) (o : Option Nat) : Option CopyFault :=
      if ind then o.map (fun e => { cause := e, addr := if e = Cause.space then 0 else BitVec.ofInt 64 a }) else none
    match bad r.sind as (s.lineCause g r.sspace c.srcBond r.rd c.rights false as r.lines),
          bad r.dind ad (s.lineCause g r.dspace c.dstBond r.wr c.rights true ad r.lines) with
    | some f, _ => s.endCopy g c 2 f
    | none, some f => s.endCopy g c 2 f
    | none, none =>
      let pieces := runPieces (decide (r.dspace ≠ 0)) (BitVec.ofInt 64 ad) (r.run + 1) c.moved r.run
      match State.copyPieces g c as ad pieces 0 s with
      | (n, s1, .failed f) => s1.endCopy g { c with bytes := c.bytes + n } 2 f
      | (n, s1, .waits) => s1.updHold g (fun h => h.putCopy { c with moved := c.moved + n, bytes := c.bytes + n })
      | (n, s1, .whole) =>
        let c1 := { c with tuple := c.tuple + 1, moved := 0, bytes := c.bytes + n, iters := c.done (c.tuple + 1) }
        if c1.tuple = r.tuples then (s1.updHold g (fun h => h.putCopy c1)).endCopy g c1 0 { cause := 0 }
        else s1.updHold g (fun h => h.putCopy c1)

/-- The end of the command would be recorded, and its record's place waits for a line that the host may hold. -/
def State.endWaits (s : State) (g : Nat) (c : CCmd) : Bool :=
  c.ring.isSome && decide (c.deadline ≠ 0) && decide (c.handed = none) && s.logWaits ⟨g, c.slot⟩
/-- One step of a copy command (COPY_TUPLE): a failure found at push, a stop at a deadline, or the next tuple. -/
def State.stepCopy (s : State) (g uid : Nat) : State :=
  match s.copy? g uid with
  | none => s
  | some c =>
    if c.ended.isSome || s.copyHeldBack g c || (s.hold g).restoring || s.awaitsRecord g c || s.endWaits g c then s
    else
      match c.refused with
      | some e => s.endCopy g c 2 { cause := e, addr := c.addr }
      | none =>
        if c.lateHere then s.endCopy g c 3 { cause := 0 }
        else ((s.beginCopies g c).passBar ⟨g, c.slot⟩ c.bar).copyMove g { c with begun := true }

/-- 10 Table 10.5. -/
def copyElement (c : CCmd) (kind cause : Nat) : List Byte :=
  toBytes 8 (c.desc.tag.toNat * 2 ^ 32 + cause * 2 ^ 20 + kind * 2 ^ 16 + 1 * 2 ^ 12) ++
    toBytes 8 (c.seq.toNat * 2 ^ 32 + c.iters) ++ toBytes 8 c.bytes

/-- 10 R212, R221: an ended command writes its element once the ring has a free slot, in push order per ring. -/
def State.completeCopy (s : State) (g uid : Nat) : State :=
  match s.copy? g uid with
  | none => s
  | some c =>
    match c.ended, c.ring with
    | some (kind, cause), some q =>
      let first := (s.hold g).copies.find? (fun x => decide (x.ring = some q))
      if ((s.hold g).ring q).free = 0 ∨ (first.map (fun x => x.uid)) ≠ some uid then s
      else
        let mark := if kind = 2 ∧ (cause = Cause.expired ∨ cause = Cause.poisoned) then some (cause, c.frame) else none
        (s.writeElement g q (copyElement c kind cause) mark).dropCopy g c
    | _, _ => s

end Sys2Proof.Machine
end

