-- ==== Sys2Proof/Machine/Engine.lean ====
section
/-! DEFINITION. Slot 7: the engine instructions (06 R130 to R134; 07 R163 to R165; 10 R213, R225). -/
namespace Sys2Proof.Machine

/-! ## Matrix commands (06 R130 to R134, R162) -/

/-- 06 R131: entries of the matrix queue, the one at its head included. -/
def Hold.matrixEntries (h : Hold) : Nat := h.matrix.queue.length + bit h.matrix.run.isSome

/-- 06 R134: an active copy command writes the microprogram store or the format table. -/
def Hold.tableWriter (h : Hold) : Bool :=
  h.copies.any (fun c => decide (c.desc.dspace = 4) || decide (c.desc.dspace = 5))

/-- 09 R211: the lowest row in which a new command's sets meet those of an active command. -/
def overlapRow (t u : RowSet) : Option Nat :=
  t.ranges.foldl (fun a x => u.ranges.foldl (fun b y =>
    if x.1 ≤ y.2 ∧ y.1 ≤ x.2 then some (match b with | none => max x.1 y.1 | some r => min r (max x.1 y.1)) else b) a) none

def Hold.clashRow (h : Hold) (rd wr : RowSet) : Option Nat :=
  h.sets.foldl (fun a t =>
    [overlapRow rd t.2.2, overlapRow wr t.2.2, overlapRow wr t.2.1].foldl (fun b o =>
      match b, o with
      | some x, some y => some (min x y)
      | none, some y => some y
      | b, none => b) a) none

/-- 11 R234, R236: a push takes its place in the context's program order. -/
def Ctx.pushed (c : Ctx) : Ctx := { c with order := c.order + 1 }

/-- 21 R372, 06 R131: the state of the matrix unit is not restored, or its queue is full. -/
def Hold.matrixBusy (h : Hold) : Bool := h.restoring || decide (8 ≤ h.matrixEntries)

/-- The command that MCALL pushes (06 R133, R162). -/
def Ctx.matrixCommand (c : Ctx) (slot r : Nat) : MCmd where
  slot := slot
  task := c.task
  routine := r
  p := c.pCommit
  c := [0, 1, 2, 3, 4, 5].map (fun n => (c.course n).index)
  rings := c.rings
  bonds := c.bonds.filter (fun e => decide (e.2.st = .held ∨ e.2.st = .lent ∨ e.2.st = .borrowed))
  key := c.key
  stream := c.stream
  seq := c.mseq
  rd := setOf (c.pCommit.get 0 6)
  wr := setOf (c.pCommit.get 0 7)
  ord := c.order
  bar := c.sbar

def Hold.pushMatrix (h : Hold) (e : MEntry) : Hold := { h with matrix := { h.matrix with queue := h.matrix.queue ++ [e] } }

/-- MCALL (06 R133); beside a copy that writes the tables, where no row overlaps, its trap names row 0 (log 82) -/
def semMcall (r : BitVec 8) : Sem :=
  { run := fun e s =>
      let c := s.ctx e.who
      let h := s.hold e.who.core
      let x := c.matrixCommand e.who.slot r.toNat
      let p5 := c.pCommit.get 0 5
      if !c.holdsMatrix then trapNat Cause.matrixOwner 0
      else if p5.getLsbD 4 = false ∨ (c.ringOf (fld p5 0 4).toNat).isNone = true then trapNat Cause.matrixRing 0
      else if (x.rd.ranges ++ x.wr.ranges).any (fun t => !(s.rowOk e.who.core t.2)) then trapBare Cause.rowRange
      else if h.tableWriter then trapNat Cause.phaseSet 0
      else
        match h.clashRow x.rd x.wr with
        | some n => trapNat Cause.phaseSet n
        | none =>
          if h.matrixBusy then .block []
          else
            .ok ((s.updCtx e.who (fun y => ({ y with mseq := y.mseq + 1 } : Ctx).pushed.clearMatrixIdle)).updHold
              e.who.core (fun y => y.pushMatrix (.cmd x))) }

/-- MPSET (06 R132) -/
def semMpset (p : BitVec 3) (a : BitVec 5) : Sem :=
  { sr := [a.toNat]
    run := fun e s =>
      if !(s.ctx e.who).holdsMatrix then trapNat Cause.matrixOwner 0
      else if (s.hold e.who.core).restoring then .block []
      else .ok (s.updCtx e.who (fun c => { c with pShadow := c.pShadow.put p.toNat (e.ctx.sreg a.toNat) })) }

/-- MPGO (06 R132) -/
def semMpgo : Sem :=
  { run := fun e s =>
      if !(s.ctx e.who).holdsMatrix then trapNat Cause.matrixOwner 0
      else if (s.hold e.who.core).restoring then .block []
      else .ok (s.updCtx e.who (fun c => { c with pCommit := c.pShadow })) }

/-- FMTSET (06 R134); beside a copy that writes the tables, where no row overlaps, its trap names row 0 (log 82) -/
def semFmtset (f : BitVec 4) (a : BitVec 5) : Sem :=
  { sr := [a.toNat]
    run := fun e s =>
      if !(s.ctx e.who).holdsMatrix then trapNat Cause.matrixOwner 0
      else if (s.hold e.who.core).tableWriter then trapNat Cause.phaseSet 0
      else if (s.hold e.who.core).matrixBusy then .block []
      else
        .ok ((s.updCtx e.who (fun c => c.pushed.clearMatrixIdle)).updHold e.who.core
            (fun y => y.pushMatrix (.fmt f.toNat (e.ctx.sreg a.toNat) e.who.slot))) }

/-! ## Copy commands (10 R213, R215, R220) -/

/-- A handle that a copy side in space 2 names; any other side captures none. -/
def Ctx.sideBond (c : Ctx) (space handle : Nat) : Handle := if space = 2 then c.handle handle else {}

/-- The command that CPY pushes; f is the cause with which its record fails, and the row or address that it names. -/
def Ctx.copyCommand (c : Ctx) (uid slot : Nat) (r : CopyRec) (q : Option (Nat × Nat)) (sc : BitVec 3) (dl : Nat)
    (f : Option (Nat × Word)) : CCmd where
  uid := uid
  slot := slot
  task := c.task
  owner := c.owner
  spec := c.spec.isSome
  priv := c.priv
  desc := r
  deadline := dl
  ring := q.map (fun x => x.2)
  qh := (q.map (fun x => x.1)).getD 0
  scope := sc
  seq := c.cseq
  srcBond := c.sideBond r.sspace r.shandle
  dstBond := c.sideBond r.dspace r.dhandle
  refused := f.map (fun x => x.1)
  addr := (f.map (fun x => x.2)).getD 0
  rights := c.bonds.filter (fun e => decide (e.2.st = .held ∨ e.2.st = .lent))
  ord := c.order
  bar := c.sbar

def Half.claimed (h : Half) (uid : Nat) : Half :=
  { h with valid := false, addr := 0, next := 0, image := [], claim := some uid }
/-- 10 R215: a command into a half that is not executing claims it; the half holds no segment from then on. -/
def Ctx.claimHalf (c : Ctx) (r : CopyRec) (uid : Nat) : Ctx :=
  if r.dspace = 3 ∧ r.dhandle ≤ 1 ∧ r.dhandle ≠ c.half then
    { c with halves := c.halves.put r.dhandle ((c.halves.get {} r.dhandle).claimed uid) }
  else c

/-- 10 R213, from the second check on: the record rows, the ring, the sets, the window, the push. -/
def copyRun (a b : BitVec 5) (q : Option (BitVec 4)) (sc : BitVec 3) (e : Env) (s : State) : Res :=
  let w := e.who
  let n := (e.ctx.sreg a.toNat).toNat
  let c := s.ctx w
  let h := s.hold w.core
  if 34815 < n then trapNat Cause.rowRange n
  else if 2046 < n then trapNat Cause.badRecord 0
  else
    match s.rowByNumber w n false, s.rowByNumber w (n + 1) false with
    | .trap x y, _ => trapAt x y
    | _, .trap x y => trapAt x y
    | .block on, _ => .block on
    | _, .block on => .block on
    | _, _ =>
      let r := parseCopy (rowBytes (s.row w.core n).data ++ rowBytes (s.row w.core (n + 1)).data)
      let ring := q.bind (fun k => (c.ringOf k.toNat).map (fun x => (k.toNat, x)))
      if q.isSome && ring.isNone then trapNat Cause.ring ((q.map BitVec.toNat).getD 0)
      else
        match h.clashRow r.rd r.wr with
        | some k => trapNat Cause.phaseSet k
        | none =>
          if (decide (r.dspace = 4) || decide (r.dspace = 5)) && !h.matrixCmds.isEmpty then trapNat Cause.phaseSet 0
          else if h.restoring || decide (256 ≤ h.copies.length) then .block []
          else
            let dl := if q.isSome then (fld (e.ctx.sreg b.toNat) 0 32).toNat else 0
            let x := c.copyCommand h.nextUid w.slot r ring sc dl (s.pushCause w r)
            .ok ((s.updCtx w (fun y =>
                (({ y with cseq := y.cseq + 1 } : Ctx).claimHalf r h.nextUid).pushed.clearCopyIdle)).updHold w.core
              (fun y => { y with copies := y.copies ++ [x], nextUid := y.nextUid + 1 }))

/-- CPY with a completion ring (10 R213) -/
def semCpy (a b : BitVec 5) (q : BitVec 4) (c : BitVec 3) : Sem :=
  { sr := [a.toNat, b.toNat], run := copyRun a b (some q) c }

/-- CPY without a ring (10 R213) -/
def semCpyNoRing (a b : BitVec 5) : Sem := { sr := [a.toNat, b.toNat], run := copyRun a b none 0 }

/-! ## PREF (10 R225, 15 R308, R311) -/

/-- The pallets of a tiered range that bytes first to last meet. -/
def Tiered.between (t : Tiered) (first last : Nat) : List Nat :=
  let lo := max first t.base
  let hi := min last (t.base + t.size - 1)
  if t.size = 0 ∨ hi < lo then []
  else (List.range ((hi - t.base) / 65536 + 1 - (lo - t.base) / 65536)).map (fun i => (lo - t.base) / 65536 + i)

/-- PREF (10 R225) -/
def semPref (a b x : BitVec 5) : Sem :=
  { sr := [a.toNat, b.toNat, x.toNat]
    run := fun e s =>
      let c := s.ctx e.who
      let first := (e.ctx.sreg a.toNat).toNat
      let n := (fld (e.ctx.sreg b.toNat) 0 40).toNat
      let late := decide (fld (e.ctx.sreg x.toNat) 0 32 ≠ 0)
      if c.owner.boot then .ok s
      else
        let vas := (s.job c.owner.job).tiered.flatMap (fun t =>
          (t.between first (if n = 0 then first else first + n - 1)).map (fun k => t.base + 65536 * k))
        let free : State := { s with hostLines := [] }
        let good := vas.filter (fun va =>
          match free.translate (clusterOf e.who.core) c.owner c.priv (BitVec.ofNat 64 va) .read with
          | .ok _ => true
          | .error _ => false)
        .ok (s.updPart c.owner.part (fun p =>
          { p with
            moves := p.moves ++ ((List.range good.length).zip good).map (fun x => ⟨p.moveCount + x.1, c.owner.job, x.2, true, late⟩)
            moveCount := p.moveCount + good.length })) }

/-! ## Bound registers (07 R163 to R165) -/

/-- BNDSET (07 R164) -/
def semBndset (g : BitVec 4) (a b : BitVec 5) (p : BitVec 2) : Sem :=
  { sr := [a.toNat, b.toNat]
    run := fun e s =>
      let x := fld (e.ctx.sreg a.toNat) 0 32
      let y := fld (e.ctx.sreg b.toNat) 0 32
      let lo := fp32.read x.toNat
      let hi := fp32.read y.toNat
      if lo.isNan || hi.isNan || decide (lo.cmp hi = 1) then trapNat Cause.bound g.toNat
      else if (s.hold e.who.core).restoring || decide (0 < (s.hold e.who.core).matrixEntries) then .block []
      else
        .ok (s.updHold e.who.core (fun h =>
          { h with bounds := h.bounds.put g.toNat { low := x, high := y, count := 0, pol := p } })) }

/-- BNDGET (07 R165) -/
def semBndget (d : BitVec 5) (g : BitVec 4) : Sem :=
  { sw := [d.toNat]
    run := fun e s =>
      let h := s.hold e.who.core
      let x := h.bounds.get {} g.toNat
      if h.restoring || decide (0 < h.matrixEntries) then .block []
      else .ok (putScalar e 1 d.toNat (BitVec.ofNat 64 (x.pol.toNat * 2 ^ 32 + x.count.toNat)) s) }



/-! ## The instructions, each as a bundle of its own -/

/-- MCALL as a bundle of its own. -/
def execMcall (r : BitVec 8) (s : State) : Host.Outcome State Fault Refusal :=
  issueOne 7 (.mcall r) (semMcall r) s

/-- MPSET as a bundle of its own. -/
def execMpset (p : BitVec 3) (a : BitVec 5) (s : State) : Host.Outcome State Fault Refusal :=
  issueOne 7 (.mpset p a) (semMpset p a) s

/-- MPGO as a bundle of its own. -/
def execMpgo (s : State) : Host.Outcome State Fault Refusal :=
  issueOne 7 (.mpgo) (semMpgo) s

/-- CPY as a bundle of its own. -/
def execCpy (a : BitVec 5) (b : BitVec 5) (q : BitVec 4) (c : BitVec 3) (s : State) : Host.Outcome State Fault Refusal :=
  issueOne 7 (.cpy a b q c) (semCpy a b q c) s

/-- CPY_NO_RING as a bundle of its own. -/
def execCpyNoRing (a : BitVec 5) (b : BitVec 5) (s : State) : Host.Outcome State Fault Refusal :=
  issueOne 7 (.cpyNoRing a b) (semCpyNoRing a b) s

/-- PREF as a bundle of its own. -/
def execPref (a : BitVec 5) (b : BitVec 5) (x : BitVec 5) (s : State) : Host.Outcome State Fault Refusal :=
  issueOne 7 (.pref a b x) (semPref a b x) s

/-- FMTSET as a bundle of its own. -/
def execFmtset (e : BitVec 4) (a : BitVec 5) (s : State) : Host.Outcome State Fault Refusal :=
  issueOne 7 (.fmtset e a) (semFmtset e a) s

/-- BNDSET as a bundle of its own. -/
def execBndset (g : BitVec 4) (a : BitVec 5) (b : BitVec 5) (p : BitVec 2) (s : State) : Host.Outcome State Fault Refusal :=
  issueOne 7 (.bndset g a b p) (semBndset g a b p) s

/-- BNDGET as a bundle of its own. -/
def execBndget (d : BitVec 5) (g : BitVec 4) (s : State) : Host.Outcome State Fault Refusal :=
  issueOne 7 (.bndget d g) (semBndget d g) s

end Sys2Proof.Machine
end

