-- ==== Sys2Proof/Machine/Launch.lean ====
section
/-! DEFINITION. Launching and retiring tasks (13_execution_model.md R267 to R273). -/
namespace Sys2Proof.Machine

/-! ## Reading a launch record (13 R259, R260, R267) -/

/-- What reading and checking the record at an address comes to. -/
inductive RecordRead where
  | good (l : List Byte) (s : State)
  | trap (t : TrapInfo)
  | wait

/-- The cluster belongs to the launching task's partition (13 R260). -/
def State.holdsCluster (s : State) (o : Owner) (k : Nat) : Bool := !o.boot && (s.part o.part).clusters.getLsbD k

/-- 13 R267: every earlier entry of both queues can be performed at context scope, for a read of a record: no load is left,
and no store but plain ones elsewhere, which the context's later reads of their bytes wait for (log 92). -/
def Ctx.settledFor (c : Ctx) (va pa : Nat) : Bool :=
  c.loadQ.isEmpty &&
    c.storeQ.all (fun t => decide (t.kind = .plain) && !(rangesMeet t.pa t.n pa 128) && !(rangesMeet t.va.toNat t.n va 128))

/-- 13 R267: the 128 bytes are performed after every earlier entry of both queues; a fault of the address is known at
once, a fault of the response is precise. -/
def State.readLaunch (s : State) (w : Who) (va : Word) : RecordRead :=
  let c := s.ctx w
  let a := aligned va 128
  let fail (e : ReadFault) : RecordRead :=
    if e.cause = Cause.later then .wait else .trap { cause := e.cause, addr := e.addr, frame := e.frame }
  match s.translate (clusterOf w.core) c.owner c.priv a .fetch with
  | .error e => fail ⟨e, a, s.walkFrame (clusterOf w.core) c.owner a e⟩
  | .ok (pa, s1) =>
    match s1.placeCause c.owner a pa .fetch false with
    | some e => fail ⟨e, a, none⟩
    | none =>
      if !(c.settledFor a.toNat pa) then .wait
      else
        match s1.fetchBytes (clusterOf w.core) c.owner c.priv a 128 .fetch with
        | .error e => fail e
        | .ok (l, s2) =>
          if recordInvalid l (s2.holdsCluster c.owner) then .trap { cause := Cause.launch }
          else .good l (s2.updCtx w (fun x => ({ x with seen := x.order } : Ctx).forget (s.key pa) 128))

/-! ## Inserting entries (13 R261, R263) -/

/-- Every queue has room for the entries of the records given (13 R267, R268). -/
def State.queuesTake (s : State) (ls : List (List Byte)) : Bool :=
  let cores := ls.flatMap placeCores
  cores.all (fun g => decide ((s.hold g).queue.length + cores.count g ≤ 32))

/-- 13 R263: one entry for each named core, numbered in ascending order; the task numbers given. -/
def State.insertRecord (s : State) (o : Owner) (l : List Byte) (prio : Nat) (key : BitVec 128) (stream : Word)
    (mode : BitVec 2) (sp : Option Speculative) : State :=
  let cores := placeCores l
  let gang : Option Gang :=
    if placeGang l then some { lead := cores.headD 0, members := cores, skew := placeSkew l } else none
  let entry (i t : Nat) : Launch :=
    { image := l, prio := prio, cls := prio, key := key
      stream := if i = 0 then stream else splitStream key stream (BitVec.ofNat 32 (2 ^ 31 + i))
      logMode := mode, member := i, members := cores.length, spec := sp, owner := o, task := t, gang := gang }
  let s1 := { s with nextTask := s.nextTask + cores.length }
  (List.range cores.length).foldl (fun x i =>
    (x.updHold (cores.getD i 0) (fun h => { h with queue := h.queue ++ [entry i (s.nextTask + i)] }))) s1

/-- 15 R297: an arrival lets the core select. -/
def State.selectSoon (s : State) (l : List Byte) : State :=
  (placeCores l).reverse.foldl (fun x g => x.soon (.launchBind g)) s

/-- The task numbers of the entries that insertRecord makes next. -/
def State.tasksNext (s : State) (l : List Byte) : List Nat :=
  (List.range (placeCores l).length).map (fun i => s.nextTask + i)

/-! ## The instructions -/

/-- SPAWN (13 R267) -/
def semSpawn (a : BitVec 5) (r : BitVec 2) : Sem :=
  { leadReads := [a.toNat]
    run := fun e s =>
      let c := s.ctx e.who
      if c.spec.isSome then trapNat Cause.speculative 0
      else if !e.isLead then .ok s
      else
        match s.readLaunch e.who (e.ctx.sreg a.toNat) with
        | .trap t => .trap t
        | .wait => .block []
        | .good l s1 =>
          if s1.queuesTake [l] then
            let s2 := s1.insertRecord c.owner l r.toNat c.key (splitStream c.key c.stream c.spawnIx) c.logMode none
            .ok ((s2.updCtx e.who (fun x => { x with spawnIx := x.spawnIx + 1 })).selectSoon l)
          else .block [] }

/-- SPAWNS (13 R268) -/
def semSpawns (d a b : BitVec 5) (r : BitVec 2) : Sem :=
  { sw := [d.toNat], leadReads := [a.toNat, b.toNat]
    run := fun e s =>
      let c := s.ctx e.who
      if c.spec.isSome then trapNat Cause.speculative 0
      else if !e.isLead then .ok s
      else if 8 ≤ c.pairs.length then trapNat Cause.launch 0
      else
        match s.readLaunch e.who (e.ctx.sreg a.toNat) with
        | .trap t => .trap t
        | .wait => .block []
        | .good la s1 =>
          match s1.readLaunch e.who (e.ctx.sreg b.toNat) with
          | .trap t => .trap t
          | .wait => .block []
          | .good lb s2 =>
            if s2.queuesTake [la, lb] then
              let n := c.spawnIx
              let uid := s2.nextTask
              let mark (x : Bool) : Option Speculative := some { parent := c.task, index := n, side := x, pair := uid }
              let ta := s2.tasksNext la
              let s3 := s2.insertRecord c.owner la r.toNat c.key (splitStream c.key c.stream n) c.logMode (mark false)
              let tb := s3.tasksNext lb
              let s4 := s3.insertRecord c.owner lb r.toNat c.key (splitStream c.key c.stream (n + 1)) c.logMode (mark true)
              let s5 := s4.updCtx e.who (fun x => { x with spawnIx := n + 2, pairs := x.pairs ++ [⟨n, uid, ta, tb⟩] })
              .ok (((putScalar e 1 d.toNat (BitVec.ofNat 64 (2 ^ 63 + n.toNat)) s5).selectSoon lb).selectSoon la)
            else .block [] }

/-- 13 R270: the held publications of one task of the winner take effect in its issue order. -/
def State.releaseHeld (gs : List Nat) (j : Nat) (s : State) (t : Nat) : State :=
  let s1 := (s.taskContexts t gs).foldl (fun x w =>
    let ps := (x.ctx w).heldPubs
    let y := ps.foldl (fun z p => z.releaseBy w j p.1 p.2 t) x
    y.updCtx w (fun c => { c with heldPubs := [] })) s
  let gone := s1.exitedPubs.filter (fun e => decide (e.1 = t))
  let s2 := gone.foldl (fun z e => z.updRegion e.2.1 e.2.2.1 (fun r => r.release e.2.2.2 t)) s1
  { s2 with exitedPubs := s2.exitedPubs.filter (fun e => !decide (e.1 = t)) }

/-- DECIDE (13 R270) -/
def semDecide (a b : BitVec 5) : Sem :=
  { leadReads := [a.toNat, b.toNat]
    run := fun e s =>
      let c := s.ctx e.who
      let v := e.ctx.sreg a.toNat
      let y := e.ctx.sreg b.toNat
      if c.spec.isSome then trapNat Cause.speculative 0
      else if !e.isLead then .ok s
      else if v.getLsbD 63 = false ∨ fld v 32 31 ≠ 0 ∨ y >>> 1 ≠ 0 then trapNat Cause.decide 0
      else
        match c.pairs.find? (fun p => decide (p.index = fld v 0 32)) with
        | none => trapNat Cause.decide 0
        | some p =>
          let win := if y.getLsbD 0 then p.b else p.a
          let lose := if y.getLsbD 0 then p.a else p.b
          let gs := s.coresFor c.owner
          let s1 := s.updCtx e.who (fun x => { x with pairs := x.pairs.filter (fun q => !decide (q.uid = p.uid)) })
          let s2 := win.foldl (State.releaseHeld gs c.owner.job) s1
          .ok ((lose.foldl (State.squashTask gs c.owner.job) s2).wakeAll gs) }

/-- YIELD (13 R272): in a gang it has no further effect -/
def semYield : Sem :=
  { run := fun e s =>
      if e.ctx.gang.isSome then .ok s else .ok (s.updCore e.who.core (fun c => { c with yielded := true })) }

/-- The conditions of an EXIT apart from the recall of lent bonds: what the context began before has ended. -/
def State.mayExit (s : State) (w : Who) : Bool :=
  !s.unfinished w && !(s.hold w.core).restoring && decide ((s.ctx w).ringless = none) && decide ((s.ctx w).heldStore = none)

/-- EXIT (13 R273; 08 R194; 21 R372; 22 R382): undecided pairs are squashed and borrowed bonds are released before lent ones are awaited; the bonds that
the members of a gang lend each other come back with this EXIT. -/
def semExit : Sem :=
  { leaves := true
    blocked := fun e s =>
      if s.mayExit e.who && (s.team e.who).any (fun m => s.lendsBeyond m (s.team e.who)) then s.letGo e.who else s
    run := fun e s =>
      let w := e.who
      let c := s.ctx w
      let mine := ((s.hold w.core).copies.filter (fun x => decide (x.slot = w.slot))).map (fun x => x.uid)
      if s.unfinished w || (s.hold w.core).restoring then .block mine
      else
        match c.ringless, c.heldStore with
        | some h, _ => h.ringlessTrap
        | none, some h => .trap { cause := Cause.storeLost, sub := h.cause, frame := h.frame, fix := .store }
        | none, none =>
          if s.lendsBeyond w (s.team w) then .block mine
          else .ok (s.updCtx w (fun x => { x with exiting := true })) }


/-! ## The instructions, each as a bundle of its own -/

/-- SPAWN as a bundle of its own. -/
def execSpawn (a : BitVec 5) (r : BitVec 2) (s : State) : Host.Outcome State Fault Refusal :=
  issueOne 0 (.spawn a r) (semSpawn a r) s

/-- SPAWNS as a bundle of its own. -/
def execSpawns (d : BitVec 5) (a : BitVec 5) (b : BitVec 5) (r : BitVec 2) (s : State) : Host.Outcome State Fault Refusal :=
  issueOne 0 (.spawns d a b r) (semSpawns d a b r) s

/-- DECIDE as a bundle of its own. -/
def execDecide (a : BitVec 5) (b : BitVec 5) (s : State) : Host.Outcome State Fault Refusal :=
  issueOne 0 (.decide a b) (semDecide a b) s

/-- YIELD as a bundle of its own. -/
def execYield (s : State) : Host.Outcome State Fault Refusal :=
  issueOne 0 (.yield) (semYield) s

/-- EXIT as a bundle of its own. -/
def execExit (s : State) : Host.Outcome State Fault Refusal :=
  issueOne 0 (.exit) (semExit) s

end Sys2Proof.Machine
end

