-- ==== Sys2Proof/Machine/Retention.lean ====
section
/-! DEFINITION. Row groups: invalidation, classes, ageing and refresh (08 R177 to R185, 18 R325), the temperature
band (08 R178), and what an island does about heat (15 R305, R306). -/
namespace Sys2Proof.Machine

/-! ## CORE.GCTL from the core window (08 R184) -/

/-- GCTL_INVALIDATE -/
def execGctlInvalidate (core group : Nat) (s : State) : Host.Outcome State Fault Refusal :=
  if s.groupOwned core group && !s.sec.diesStopped then
    .next ((s.updCore core (fun c => { c with gctlWait := c.gctlWait ++ [(s.physGroup core group, none)] })).gctlSettle core)
  else .next s

/-- GCTL_SET_CLASS: behind an invalidation of the same group that waits -/
def execGctlSetClass (core group : Nat) (k : BitVec 3) (s : State) : Host.Outcome State Fault Refusal :=
  let p := s.physGroup core group
  if !(s.groupOwned core group) || s.sec.diesStopped then .next s
  else if (s.core core).gctlWait.any (fun e => decide (e.1 = p)) then .next (s.updCore core (fun c => c.classBehind p k))
  else .next (s.gctl core group false true k)

/-! ## Ageing (08 R178, R182, R185) -/

/-- Whether a physical group lies in a holder's bulk store (18 R325). -/
def State.ownsGroup (s : State) (h : Hold) (p : Nat) : Bool :=
  match h.part with
  | some _ => decide ((Hold.bulk s h).1 ≤ p) && decide (p < (Hold.bulk s h).1 + (Hold.bulk s h).2)
  | none => false

/-- The swapped-out holder owns the group. -/
def State.outOwns (s : State) (g p : Nat) : Bool := s.ownsGroup (s.core g).out p && !(s.ownsGroup (s.core g).cur p)

/-- CORE.RETSTAT counts one expiry: lost under policy refresh, else expired (08 R185). -/
def Hold.countExpiry (h : Hold) (refresh : Bool) : Hold :=
  if refresh then { h with retLost := h.retLost + 1 } else { h with retExpired := h.retExpired + 1 }

/-- One tick of a core for one group (08 R182). After a change of class a request stays pending only under a refresh class
whose threshold the age reaches (R184). out says whose class table governs; a group that no holder owns ages under the
running holder's table and counts there (DESIGN CHOICE, log 45). -/
def Core.tickGroup (c : Core) (out : Bool) (p : Nat) : Core :=
  let g := c.groups.get {} p
  let h := if out then c.out else c.cur
  let thr := (h.cls g.cls).1
  let refresh := (h.cls g.cls).2
  let age := if g.age < 255 then g.age + 1 else g.age
  if (refresh = false ∧ thr ≤ age) ∨ age = 255 then
    let c1 := c.invalidateGroup p
    if out then { c1 with out := c1.out.countExpiry refresh } else { c1 with cur := c1.cur.countExpiry refresh }
  else
    let reached := refresh && decide (thr ≤ age)
    { c with groups := c.groups.put p { g with age := age, req := reached || (g.req && !g.reclassed), reclassed := false } }

/-- A refresh in service counts the ticks since it began. -/
def Hold.tickRefresh (h : Hold) : Hold := { h with refresh := h.refresh.map (fun r => { r with ticks := r.ticks + 1 }) }

/-- The class table written since the last tick comes into force (08 R181). -/
def Hold.takeClasses (h : Hold) : Hold := { h with forceA := h.lclassA, forceB := h.lclassB }
def Core.takeClasses (c : Core) : Core := { c with cur := c.cur.takeClasses, out := c.out.takeClasses }

def State.tickCore (s : State) (g : Nat) : State :=
  let c := (List.range 512).foldl (fun c p => c.tickGroup (s.outOwns g p) p) (s.core g).takeClasses
  s.setCore g { c with cur := c.cur.tickRefresh, out := c.out.tickRefresh }

/-- RETENTION_TICK; in band 15 the clock has no period, and the dies of a tripped package have stopped -/
def execRetentionTick (cluster : Nat) (s : State) : Host.Outcome State Fault Refusal :=
  if (s.cluster cluster).band = 15 ∨ s.sec.diesStopped = true then .next s else .next ((coresOf cluster).foldl State.tickCore s)

/-! ## Refresh (08 R183) -/

/-- The requesting group served next: the oldest, the lower number among equals. -/
def Core.oldestRequest (c : Core) (mine : Nat → Bool) : Option Nat :=
  ((c.groups.filter (fun e => e.2.req && mine e.1)).foldl (fun (a : Option (Nat × Nat)) e =>
    match a with
    | none => some (e.1, e.2.age)
    | some (p, age) => if age < e.2.age then some (e.1, e.2.age) else some (p, age)) none).map (fun x => x.1)

/-- One slot of refresh for a holder: begins, rewrites a row, or ends the service of a group. -/
def Core.refreshSlot (c : Core) (h : Hold) (mine : Nat → Bool) : Option (Core × Hold) :=
  let work : Option Refresh :=
    match h.refresh with
    | some r => some r
    | none => (c.oldestRequest mine).map (fun p => { group := p, row := 0, ticks := 0 })
  work.map (fun r =>
    if r.row < 63 then (c, { h with refresh := some { r with row := r.row + 1 } })
    else
      ({ c with groups := c.groups.upd {} r.group (fun g => { g with age := r.ticks, mask := 0, req := false }) },
       { h with refresh := none, retServed := h.retServed + 1 }))

/-- REFRESH_ROW_REWRITE: the rewrite re-stores the row as it is. The running and the swapped-out holder are each served in
a slot of their own, whatever the other asks (18 R328). -/
def execRefreshRowRewrite (core : Nat) (s : State) : Host.Outcome State Fault Refusal :=
  let own (c : Core) : Core :=
    match c.refreshSlot c.cur (fun p => !(s.outOwns core p)) with
    | some (c1, h) => { c1 with cur := h }
    | none => c
  let other (c : Core) : Core :=
    match c.refreshSlot c.out (s.outOwns core) with
    | some (c1, h) => { c1 with out := h }
    | none => c
  .next (if s.sec.diesStopped then s else s.updCore core (fun c => other (own c)))

/-! ## Temperature (08 R178; 15 R305) -/

/-- The band of a temperature in thousandths of a degree. -/
def bandOf (t : Int) : Nat :=
  if t ≤ 40000 then 0 else if 110000 < t then 15 else ((t - 35000 + 4999) / 5000).toNat - 1

/-- One sample of a cluster's retention clock. -/
def Cluster.sample (c : Cluster) (t : Int) : Cluster :=
  let b := bandOf t
  if c.band < b then { c with band := b, cool := [] }
  else if c.band ≠ 0 ∧ t ≤ 35000 + 5000 * (c.band : Int) - 2000 then
    let run := t :: c.cool
    if run.length < 16 then { c with cool := run }
    else { c with band := bandOf (run.foldl max t), cool := [] }
  else { c with cool := [] }

/-- The greatest effective point of a cluster's core islands. -/
def State.maxPoint (s : State) (c : Nat) : Nat := (coresOf c).foldl (fun a g => max a (s.effectivePoint g)) 0

/-- The partition that runs on a cluster. -/
def State.runningOn (s : State) (c : Nat) : Option Nat :=
  (s.hold (16 * c)).part.filter (fun p => decide ((s.part p).state = 1))

/-- The thermal cap changes: every island's effective point may change (15 R302). -/
def State.setTcap (s : State) (c n : Nat) : State :=
  (coresOf c).foldl State.opChanged
    (s.setCluster c { s.cluster c with tcap := BitVec.ofNat 3 n, hotwait := false })

/-- OP_TRANSITION_SETTLE: a change that came meanwhile starts the next transition (15 R303) -/
def execOpTransitionSettle (core : Nat) (s : State) : Host.Outcome State Fault Refusal :=
  if (s.core core).opBusy then
    s.whileRunning (fun s => ((s.opGroup core).foldl (fun x g => x.updCore g Core.settleTransition) s).opChanged core)
  else .next s

end Sys2Proof.Machine
end

