-- ==== Sys2Proof/Machine/System.lean ====
section
/-! DEFINITION. System registers, traps and returns, operating points, hints, stream barriers and the vector allotment. -/
namespace Sys2Proof.Machine

/-! ## System registers of a context (21 Table 21.10) -/

/-- What SRR reads of a context's register. -/
def Ctx.sysReg (c : Ctx) (n : Nat) : Word :=
  match n with
  | 0x001 => fld c.key 0 64
  | 0x002 => fld c.key 64 64
  | 0x003 => c.stream
  | 0x004 => c.drawCnt
  | 0x005 => zext c.spawnIx
  | 0x006 => c.mdraw
  | 0x007 => zext c.mseq
  | 0x008 => zext c.cseq
  | 0x009 => BitVec.ofNat 64 (c.spillRows * 2 ^ 16 + c.spillFirst)
  | 0x00A => c.ovfp
  | 0x00B => BitVec.ofNat 64 (bit c.armed.isSome * 2 ^ 63 + c.lbHalf * 2 ^ 9 + c.lbCount.toNat)
  | 0x01A => c.logPtr
  | 0x01B => BitVec.ofNat 64 (c.logCap.toNat * 2 ^ 40 + c.logLeft.toNat * 2 ^ 16 + bit c.logOvf * 4 + c.logMode.toNat)
  | 0x020 => c.cause
  | 0x021 => c.tpc
  | 0x022 => c.taddr
  | 0x024 => c.scr0
  | 0x025 => c.scr1
  | _ =>
    if 0x010 ≤ n ∧ n ≤ 0x015 then
      BitVec.ofNat 64 ((c.course (n - 0x010)).trip.toNat * 2 ^ 32 + (c.course (n - 0x010)).index.toNat)
    else 0

/-- What SRW writes (00 Table 0.2, R9); a field that only reads keeps its value. -/
def Ctx.setSysReg (c : Ctx) (n : Nat) (v : Word) : Ctx :=
  match n with
  | 0x001 => { c with key := fld c.key 64 64 ++ v }
  | 0x002 => { c with key := v ++ fld c.key 0 64 }
  | 0x003 => { c with stream := v }
  | 0x004 => { c with drawCnt := v }
  | 0x005 => { c with spawnIx := fld v 0 32 }
  | 0x006 => { c with mdraw := v }
  | 0x00A => { c with ovfp := v &&& ~~~7#64 }
  | 0x01A => { c with logPtr := v &&& 0x00FFFFFFFFFFFFF0#64 }
  | 0x01B =>
    { c with logLeft := fld v 16 24
             logOvf := v.getLsbD 2
             logMode := if fld v 0 2 = 3 then c.logMode else fld v 0 2 }
  | 0x021 => { c with tpc := v &&& 0x3FFFFFFFFFFFFFFF#64 }
  | 0x024 => { c with scr0 := v }
  | 0x025 => { c with scr1 := v }
  | _ => c

/-- 07 R161, 21 R372: CTX.MDRAW waits for the context's matrix commands. -/
def State.mdrawBusy (s : State) (w : Who) : Bool :=
  (s.hold w.core).restoring ||
    ((s.ctx w).holdsMatrix && (s.hold w.core).matrixCmds.any (fun c => decide (c.slot = w.slot)))

def State.sysValue (s : State) (w : Who) (n : Nat) : Word :=
  if n < 0x100 then (s.ctx w).sysReg n else s.coreReg w.core n

/-- SRR (21 R374; 22 R375, R380, R381) -/
def semSrr (d : BitVec 5) (n : BitVec 12) : Sem :=
  { priv := privSys.contains n.toNat, sw := [d.toNat], retstat := decide (n = 0x103#12)
    run := fun e s =>
      if n = 0x006#12 ∧ s.mdrawBusy e.who = true then .block []
      else if n = 0x103#12 ∧ s.logWaits e.who = true then .block []
      else if n = 0x103#12 then
        let v := e.counter.getD (s.sysValue e.who n.toNat)
        .ok ((putScalar e 1 d.toNat v s).observe e.who 4 0 v.toNat)
      else .ok (putScalar e 1 d.toNat (s.sysValue e.who n.toNat) s) }

/-- 14 R293: CTX.LBCTL is written; arming needs a half that no copy claims and that is not executing. -/
def Ctx.setLbctl (c : Ctx) (arm : Bool) (half : Nat) (count : BitVec 9) : Ctx :=
  { c with armed := if arm then some (half, count) else none, lbHalf := half, lbCount := count }

/-- SRW (21 R374; 07 R161; 08 R184; 14 R293) -/
def semSrw (a : BitVec 5) (n : BitVec 12) : Sem :=
  { priv := privSys.contains n.toNat, sr := [a.toNat]
    run := fun e s =>
      let v := e.ctx.sreg a.toNat
      let w := e.who
      if n = 0x006#12 ∧ s.mdrawBusy w = true then .block []
      else if n = 0x00B#12 then
        let arm := v.getLsbD 63
        let half := (fld v 9 1).toNat
        if arm ∧ half = (s.ctx w).half then trapNat Cause.segment 0
        else if arm ∧ ((s.ctx w).halves.get {} half).claim.isSome = true then .block []
        else .ok (s.updCtx w (fun c => c.setLbctl arm half (fld v 0 9)))
      else if n = 0x102#12 then
        let k := (fld v 0 9).toNat
        if s.groupOwned w.core k = false then trapNat Cause.rowRange k
        else if v.getLsbD 15 && (s.hold w.core).groupDeclared k then .block ((s.hold w.core).groupUsers k)
        else .ok (s.gctl w.core k (v.getLsbD 15) (v.getLsbD 14) (fld v 11 3))
      else if n.toNat < 0x100 then .ok (s.updCtx w (fun c => c.setSysReg n.toNat v))
      else .ok (s.setCoreReg w.core n.toNat v) }

/-! ## Traps and returns (21 R362 to R364) -/

/-- TRAP (21 R363): taken after its bundle -/
def semTrap (c : BitVec 8) : Sem := { after := some c.toNat, run := fun _ s => .ok s }

/-- ERET (21 R362): it blocks until every handler result has committed, which they do meanwhile -/
def semEret : Sem :=
  { priv := true, leaves := true
    run := fun e s =>
      if (s.ctx e.who).loadQ.isEmpty && (s.ctx e.who).remoteQ.isEmpty && !(e.ctx.pend.any (fun p => p.handler)) then .jump s .eret
      else .block []
    blocked := fun e s => s.updCtx e.who Ctx.finishHandler }

/-- HALT (21 R364) -/
def semHalt : Sem := { priv := true, run := fun _ _ => trapNat Cause.halted 0 }

/-! ## Operating points, hints, barriers and the allotment -/

/-- The request that a context's OPPT sets: a gang lead's is the gang's, another context's is its core's own (15 R301). -/
def State.pointRequest (s : State) (w : Who) : BitVec 3 :=
  if (s.ctx w).gang.isSome then s.gangRequest w.core else (s.hold w.core).opReq
def State.setPointRequest (s : State) (w : Who) (t : BitVec 3) : State :=
  if (s.ctx w).gang.isSome then s.updCtx w (fun c => { c with gangReq := some t })
  else s.updHold w.core (fun h => { h with opReq := t })

/-- OPPT (01 R27; 15 R301, R303): a change of the point that an unsettled island is to take freezes the core -/
def semOppt (t : BitVec 3) : Sem :=
  { run := fun e s =>
      let g := e.who.core
      if !e.isLead || decide (s.pointRequest e.who = t) then .ok s
      else
        let s1 := s.setPointRequest e.who t
        if (s.opGroup g).any (fun m => (s.core m).opBusy) && decide (s1.requestedPoint g ≠ s.requestedPoint g) then .freeze else .ok (s1.opChanged g) }

/-- HINT (15 R304) -/
def semHint (h : BitVec 2) : Sem := { run := fun e s => .ok (s.updCtx e.who (fun c => { c with hint := h })) }

/-- 11 R236: the classes that a mask names are ordered from this place of the context's order on. -/
def Ctx.bars (c : Ctx) (m : BitVec 3) : Bars where
  srd := if m.getLsbD 0 then c.order else c.sbar.srd
  swr := if m.getLsbD 1 then c.order else c.sbar.swr
  mem := if m.getLsbD 2 then c.order else c.sbar.mem

/-- SBAR (11 R236; 21 R372) -/
def semSbar (m : BitVec 3) : Sem :=
  { run := fun e s =>
      let h := s.hold e.who.core
      let pending := (h.copies.filter (fun c => decide (c.slot = e.who.slot) && decide (c.ring = none))).map (fun c => c.uid)
      if !pending.isEmpty || h.restoring then .block pending
      else
        match (s.ctx e.who).ringless with
        | some x => x.ringlessTrap
        | none => .ok (s.updCtx e.who (fun c => { c.meet with sbar := c.bars m })) }

/-- The registers that a field n names: 8(n + 1). -/
def growBy (n : BitVec 3) : Nat := 8 * (n.toNat + 1)

/-- GROW (14 R288) -/
def semGrow (n : BitVec 3) : Sem :=
  { grow := some (growBy n)
    run := fun e s =>
      if 128 < (s.hold e.who.core).allotted + growBy n then .block []
      else .ok (s.updCtx e.who (fun c => c.grow (growBy n))) }

/-- SHRINK (14 R289; 15 R297): the core may select -/
def semShrink (n : BitVec 3) : Sem :=
  { shrink := some (growBy n)
    run := fun e s => .ok (((s.updCtx e.who (fun c => c.shrink (growBy n))).wake e.who.core).soon (.launchBind e.who.core)) }


/-! ## The instructions, each as a bundle of its own -/

/-- TRAP as a bundle of its own. -/
def execTrap (c : BitVec 8) (s : State) : Host.Outcome State Fault Refusal :=
  issueOne 0 (.trap c) (semTrap c) s

/-- ERET as a bundle of its own. -/
def execEret (s : State) : Host.Outcome State Fault Refusal :=
  issueOne 0 (.eret) (semEret) s

/-- SRR as a bundle of its own. -/
def execSrr (d : BitVec 5) (s : BitVec 12) (st : State) : Host.Outcome State Fault Refusal :=
  issueOne 0 (.srr d s) (semSrr d s) st

/-- SRW as a bundle of its own. -/
def execSrw (a : BitVec 5) (s : BitVec 12) (st : State) : Host.Outcome State Fault Refusal :=
  issueOne 0 (.srw a s) (semSrw a s) st

/-- HALT as a bundle of its own. -/
def execHalt (s : State) : Host.Outcome State Fault Refusal :=
  issueOne 0 (.halt) (semHalt) s

/-- OPPT as a bundle of its own. -/
def execOppt (t : BitVec 3) (s : State) : Host.Outcome State Fault Refusal :=
  issueOne 0 (.oppt t) (semOppt t) s

/-- HINT as a bundle of its own. -/
def execHint (h : BitVec 2) (s : State) : Host.Outcome State Fault Refusal :=
  issueOne 0 (.hint h) (semHint h) s

/-- SBAR as a bundle of its own. -/
def execSbar (m : BitVec 3) (s : State) : Host.Outcome State Fault Refusal :=
  issueOne 0 (.sbar m) (semSbar m) s

/-- GROW as a bundle of its own. -/
def execGrow (n : BitVec 3) (s : State) : Host.Outcome State Fault Refusal :=
  issueOne 0 (.grow n) (semGrow n) s

/-- SHRINK as a bundle of its own. -/
def execShrink (n : BitVec 3) (s : State) : Host.Outcome State Fault Refusal :=
  issueOne 0 (.shrink n) (semShrink n) s

end Sys2Proof.Machine
end

