-- ==== Sys2Proof/Machine/Bed.lean ====
section
/-! DEFINITION. The matrix unit's arithmetic: format entries (06 R145, R146), the A and B layouts (R135 to R138), the
steps and corrections on accumulator tiles (R140 to R144), and the conversions of the drain path (07 R156 to R159). -/
namespace Sys2Proof.Machine

/-! ## Format entries (06 Table 6.7) -/

def fmtMinPlanes (v : Word) : Nat := (fld v 48 4).toNat
def fmtBound (v : Word) : Nat := (fld v 44 4).toNat
def fmtBoundEn (v : Word) : Bool := v.getLsbD 43
def fmtRound (v : Word) : Nat := (fld v 41 2).toNat
def fmtDrain (v : Word) : Nat := (fld v 37 4).toNat
def fmtOutPlanes (v : Word) : Nat := (fld v 33 4).toNat
def fmtSparsity (v : Word) : Nat := (fld v 31 2).toNat
def fmtScale (v : Word) : Nat := (fld v 29 2).toNat
def fmtA (v : Word) : Nat := (fld v 25 4).toNat
def fmtAPlanes (v : Word) : Nat := (fld v 21 4).toNat
def fmtB (v : Word) : Nat := (fld v 17 4).toNat
def fmtBPlanes (v : Word) : Nat := (fld v 13 4).toNat

/-- Half mode: an FP16 or BF16 A (06 R146). -/
def fmtHalf (v : Word) : Bool := decide (fmtA v ≠ 0)

/-- 06 R146. -/
def fmtValid (v : Word) : Bool :=
  let planes (n : Nat) : Bool := decide (1 ≤ n) && decide (n ≤ 8)
  decide (fld v 52 12 = 0 ∧ fld v 0 13 = 0) && decide (fmtRound v ≤ 1) && decide (1 ≤ fmtDrain v ∧ fmtDrain v ≤ 4) &&
    (if fmtDrain v = 4 then planes (fmtOutPlanes v) else decide (fmtOutPlanes v = 0)) &&
    decide (fmtSparsity v ≤ 2) && decide (fmtScale v ≤ 1) && decide (fmtA v ≤ 2) && decide (fmtB v ≤ 3) &&
    (if fmtA v = 0 then planes (fmtAPlanes v) else decide (fmtAPlanes v = 0)) &&
    (if fmtB v = 1 then planes (fmtBPlanes v) else decide (fmtBPlanes v = 0)) &&
    (if fmtA v = 0 then decide (fmtB v ≤ 1) && decide (1 ≤ fmtMinPlanes v ∧ fmtMinPlanes v ≤ fmtAPlanes v)
     else decide (2 ≤ fmtB v) && decide (fmtSparsity v = 0 ∧ fmtScale v = 0 ∧ fmtMinPlanes v = 0))

/-- Metadata rows of an A tile (06 R135). -/
def metaRows (v : Word) : Nat := if fmtSparsity v = 0 then 0 else if fmtSparsity v = 1 then 8 else 12

/-! ## Buffers (06 R135 to R139) -/

def Buffer.rowAt (b : Buffer) (n : Nat) : BufRow := b.rows.getD n ⟨0, 0⟩
/-- A byte of a buffer row as signed. -/
def Buffer.byteInt (b : Buffer) (r j : Nat) : Int := laneInt 8 (lane 8 (b.rowAt r).data j)

/-- Bit b of the metadata string. -/
def Buffer.metaBit (a : Buffer) (i : Nat) : Nat := bit ((a.rowAt (1 + i / 1024)).data.getLsbD (i % 1024))

/-- The position field of stored element n of row i (Table 6.4). -/
def Buffer.position (a : Buffer) (i n : Nat) : Nat :=
  if fmtSparsity a.fmt = 1 then
    let s := 64 * i + 4 * (n / 2) + 2 * (n % 2)
    a.metaBit s + 2 * a.metaBit (s + 1)
  else
    let s := 96 * i + 12 * (n / 4) + 3 * (n % 4)
    a.metaBit s + 2 * a.metaBit (s + 1) + 4 * a.metaBit (s + 2)

/-- Stored elements of a group, and logical positions of a group. -/
def groupSize (v : Word) : Nat := if fmtSparsity v = 1 then 2 else 4

/-- Fields strictly ascending. -/
def rising : List Nat → Bool
  | x :: y :: t => decide (x < y) && rising (y :: t)
  | _ => true

/-- Group g of row i is legal. -/
def Buffer.legalGroup (a : Buffer) (i g : Nat) : Bool :=
  rising ((List.range (groupSize a.fmt)).map (fun t => a.position i (groupSize a.fmt * g + t)))

/-- Logical position of stored element n of row i. -/
def Buffer.logical (a : Buffer) (i n : Nat) : Nat := 2 * groupSize a.fmt * (n / groupSize a.fmt) + a.position i n

/-- The elements of row i that a step adds: element, B half and B row; h is the half of a dense step. -/
def Buffer.elements (a : Buffer) (h i : Nat) : List (Nat × Nat × Nat) :=
  if fmtSparsity a.fmt = 0 then (List.range 32).map (fun n => (n, h, n))
  else ((List.range 32).filter (fun n => a.legalGroup i (n / groupSize a.fmt))).map
    (fun n => (n, a.logical i n / 32, a.logical i n % 32))

/-- Row i holds a group that is not legal. -/
def Buffer.badRow (a : Buffer) (i : Nat) : Bool :=
  decide (fmtSparsity a.fmt ≠ 0) && (List.range (32 / groupSize a.fmt)).any (fun g => !(a.legalGroup i g))

/-- Bit of element n of row i in the plane held. -/
def Buffer.planeBit (a : Buffer) (i n : Nat) : Int :=
  bit ((a.rowAt (1 + metaRows a.fmt + n / 8)).data.getLsbD (n % 8 * 128 + i))

/-- Bv(k, j) of a B block (06 R137). -/
def Buffer.bval (b : Buffer) (k j : Nat) : Int :=
  if fmtB b.fmt = 0 then b.byteInt (1 + k) j
  else
    let p := fmtBPlanes b.fmt
    2 * ((lane 8 (b.rowAt (1 + k)).data j % 2 ^ p : Nat) : Int) - 2 ^ p + 1

/-- EA(i) and EB(j) (06 R137). -/
def Buffer.ea (a : Buffer) (i : Nat) : Int := (if fmtScale a.fmt = 1 then 0 else a.byteInt 0 i) - 1
def Buffer.eb (b : Buffer) (j : Nat) : Int :=
  (if fmtScale b.fmt = 1 then 0 else b.byteInt 0 j) - (if fmtB b.fmt = 1 then 1 else 0)

/-- 16-bit lane of row 2k + ⌊i / 64⌋ (06 R138). -/
def Buffer.halfVal (b : Buffer) (f : Fmt) (k i : Nat) : FV := f.read (lane 16 (b.rowAt (2 * k + i / 64)).data (i % 64))
def halfFmt (code : Nat) : Fmt := if code = 1 then fp16 else bf16

/-! ## Tiles (06 R140 to R144) -/

def Tile.cell (t : Tile) (i j : Nat) : Word := (t.cells.getD i []).getD j 0

/-- The B halves a step reads. -/
def halvesRead (v : Word) (h : Nat) : List Nat := if fmtSparsity v = 0 then [h] else [0, 1]

/-- R144: the first poison cause a step or correction gives row i: marks of the A rows named, of the B halves, then
metadata (DESIGN CHOICE, log 84: the spec does not order the causes that one step meets). A correction that meets an
illegal sparsity group poisons the row as a step does (DEDUCED, log 101). -/
def stepPoison (a : Buffer) (aRows : List Nat) (bs : List Buffer) (i : Nat) : Option Nat :=
  let mark (b : Buffer) (rs : List Nat) : Option Nat :=
    rs.findSome? (fun r => if (b.rowAt r).mark = 0 then none else some (b.rowAt r).mark)
  let ra := if fmtHalf a.fmt then aRows.filter (fun r => decide (r % 2 = i / 64)) else aRows
  match mark a ra with
  | some c => some c
  | none =>
    match bs.findSome? (fun b => mark b (List.range b.rows.length)) with
    | some c => some c
    | none => if fmtHalf a.fmt = false ∧ a.badRow i = true then some 3 else none

/-- A row already poisoned keeps its first cause. -/
def poisonRows (f : Nat → Option Nat) (p : Tab Nat) : Tab Nat :=
  (List.range 128).foldl (fun t i =>
    match f i with
    | some c => if t.get 0 i = 0 then t.put i c else t
    | none => t) p

/-- The sum over one half of a row's elements of a weight times Bv. -/
def halfSum (l : List (Nat × Nat × Nat)) (hb : Nat) (wt : Nat → Int) (b : Buffer) (j : Nat) : Int :=
  (l.filter (fun e => decide (e.2.1 = hb))).foldl (fun s e => s + wt e.1 * b.bval e.2.2 j) 0

/-- R141, R142: the contribution of each half to cell (i, j) in turn: value and saturation. -/
def addHalves (base : Int) (a : Buffer) (b : Nat → Buffer) (l : List (Nat × Nat × Nat)) (wt : Nat → Int) (scale : Int)
    (i j : Nat) (hs : List Nat) (acc : Int) : Int × Bool :=
  hs.foldl (fun r hb =>
    let x := rshiftNE (scale * halfSum l hb wt (b hb) j) (base - (a.ea i + (b hb).eb j))
    let y := satAdd64 r.1 x
    (y.1, r.2 || y.2)) (acc, false)

/-- R141, R142: every cell and saturation bit of a plane-mode tile. -/
def Tile.planeAdd (t : Tile) (a : Buffer) (b : Nat → Buffer) (h : Nat) (wt : Nat → Nat → Int) (scale : Int)
    (poison : Tab Nat) : Tile :=
  let rows : List (List (Int × Bool)) := (List.range 128).map (fun i =>
    let l := a.elements h i
    (List.range 128).map (fun j =>
      addHalves t.base a b l (wt i) scale i j (halvesRead a.fmt h) (t.cell i j).toInt))
  { t with
    cells := rows.map (fun r => r.map (fun x => BitVec.ofInt 64 x.1))
    sat := t.sat ||| BitVec.ofNat 128 (lanesNat 1 (rows.map (fun r => bit (r.any (fun x => x.2)))))
    poison := poison }

/-- R141: MSTEP in plane mode. -/
def Tile.planeStep (t : Tile) (a : Buffer) (b : Nat → Buffer) (h : Nat) : Tile :=
  t.planeAdd a b h (fun i n => a.planeBit i n) (2 ^ (fmtAPlanes a.fmt - a.plane))
    (poisonRows (stepPoison a (List.range a.rows.length) ((halvesRead a.fmt h).map b)) t.poison)

/-- R142: MPCOR with k planes; it reads the scale and metadata rows of A. -/
def Tile.correct (t : Tile) (a : Buffer) (b : Nat → Buffer) (h k : Nat) : Tile :=
  t.planeAdd a b h (fun _ _ => 1) ((1 - 2 ^ k) * 2 ^ (fmtAPlanes a.fmt - k))
    (poisonRows (stepPoison a (List.range (1 + metaRows a.fmt)) ((halvesRead a.fmt h).map b)) t.poison)

/-- R81 HalfGroup. -/
def halfGroup (acc : Nat) (a b : List FV) : Nat :=
  let g := roundNE (exactSum (List.zipWith exactProduct a b)) fp32
  roundNE (exactSum [fp32.read acc, fp32.read g]) fp32

/-- R143: MSTEP in half mode. -/
def Tile.halfStep (t : Tile) (a b : Buffer) : Tile :=
  let fa := halfFmt (fmtA a.fmt)
  let fb := halfFmt (fmtB b.fmt - 1)
  let ks := List.range 16
  { t with
    cells := (List.range 128).map (fun i => (List.range 128).map (fun j =>
      BitVec.ofNat 64 (halfGroup ((t.cell i j).toNat % 2 ^ 32) (ks.map (fun k => a.halfVal fa k i))
        (ks.map (fun k => b.halfVal fb k j)))))
    poison := poisonRows (stepPoison a (List.range a.rows.length) [b]) t.poison }

/-- Rows of a tile that are poisoned, and rows whose saturation bit is set. -/
def Tile.poisonCount (t : Tile) : Nat := ((List.range 128).filter (fun i => decide (t.poison.get 0 i ≠ 0))).length
def Tile.satCount (t : Tile) : Nat := ((List.range 128).filter (fun i => t.sat.getLsbD i)).length

/-! ## Drain conversions (07 R156 to R159) -/

/-- R157: the exact value of a cell. -/
def Tile.value (t : Tile) (i j : Nat) : FV :=
  if t.halfMode then fp32.read ((t.cell i j).toNat % 2 ^ 32) else .ofInt (t.cell i j).toInt t.base

/-- The next encoding of a format above or below one that stands for a finite value or an infinity. -/
def Fmt.nextUp (f : Fmt) (r : Nat) : Nat :=
  if r % f.signBit = 0 then 1 else if r < f.signBit then r + 1 else r - 1
def Fmt.nextDown (f : Fmt) (r : Nat) : Nat :=
  if r % f.signBit = 0 then f.signBit + 1 else if r < f.signBit then r - 1 else r + 1
/-- The least value of a format not below x, and the greatest not above it; a zero keeps the sign with which the bound
rounds (DESIGN CHOICE, log 83). -/
def leastAbove (f : Fmt) (x : FV) : Nat :=
  let r := roundNE x f
  if (f.read r).cmp x = -1 then f.nextUp r else r
def greatestBelow (f : Fmt) (x : FV) : Nat :=
  let r := roundNE x f
  if (f.read r).cmp x = 1 then f.nextDown r else r

/-- The side of a bound on which a value falls (R158). -/
inductive Side where
  | within
  | below
  | above
  deriving DecidableEq, Repr

def boundSide (low high v : FV) : Side :=
  if v.isNan || decide (v.cmp low = -1) then .below else if v.cmp high = 1 then .above else .within

/-- What a drain is to do: code, format entry, bound register, and the draws of its counter value. -/
structure Drain where
  cv : Nat
  fmt : Word
  bound : BoundReg
  draw : Nat → Nat

def Drain.low (d : Drain) : FV := fp32.read d.bound.low.toNat
def Drain.high (d : Drain) : FV := fp32.read d.bound.high.toNat
def Drain.side (d : Drain) (v : FV) : Side := if fmtBoundEn d.fmt then boundSide d.low d.high v else .within
/-- R158, R167: the element violates its bound. -/
def Drain.bad (d : Drain) (t : Tile) (i j : Nat) : Bool :=
  fmtBoundEn d.fmt && (decide (d.side (t.value i j) ≠ .within) || t.sat.getLsbD i)
def Drain.badCount (d : Drain) (t : Tile) : Nat :=
  (List.range 128).foldl (fun n i => n + ((List.range 128).filter (fun j => d.bad t i j)).length) 0
def Drain.clamps (d : Drain) : Bool := decide (d.bound.pol = 1)
def Drain.form (d : Drain) : Fmt := if d.cv = 1 then fp32 else if d.cv = 2 then fp16 else bf16
def Drain.sr (d : Drain) : Bool := decide (fmtRound d.fmt = 1)

/-- Codes 1 to 3: the output of element (i, j). -/
def Drain.float (d : Drain) (t : Tile) (i j : Nat) : Nat :=
  let v := t.value i j
  match (if d.clamps then d.side v else .within) with
  | .below => leastAbove d.form d.low
  | .above => greatestBelow d.form d.high
  | .within => roundTo v d.form d.sr (d.draw (128 * i + j))

/-- Code 4: the exact value converted. -/
def Drain.exact (d : Drain) (t : Tile) (i j : Nat) : FV :=
  let v := t.value i j
  match (if d.clamps then d.side v else .within) with
  | .below => d.low
  | .above => d.high
  | .within => v

/-- Code 4: the rows of block b: its scale row, then its 32 code rows. -/
def Drain.blockRows (d : Drain) (t : Tile) (b : Nat) : List Row :=
  let p := fmtOutPlanes d.fmt
  let es := (List.range 128).map (fun j => bpniScale ((List.range 32).map (fun n => d.exact t (32 * b + n) j)) p)
  ofLanes 8 (es.map (toLane 8)) ::
    (List.range 32).map (fun n => ofLanes 8 ((List.range 128).map (fun j =>
      bpniQuant (d.exact t (32 * b + n) j) p (es.getD j 0) n d.sr (d.draw (128 * (32 * b + n) + j)))))

/-- Rows that a code writes (Table 7.1). -/
def drainRows (cv : Nat) : Nat := if cv = 1 then 512 else if cv = 4 then 132 else 256

/-- R159, R169: the rows of a drain with their poison. -/
def Drain.rows (d : Drain) (t : Tile) : List RowCell :=
  let bad (i : Nat) : Bool := decide (t.poison.get 0 i ≠ 0)
  if d.cv = 4 then
    [0, 1, 2, 3].flatMap (fun b =>
      (d.blockRows t b).map (fun r => { data := r, poison := (List.range 32).any (fun n => bad (32 * b + n)) }))
  else
    let w := d.form.width
    let per := 1024 / w
    (List.range 128).flatMap (fun i => (List.range (128 / per)).map (fun q =>
      { data := ofLanes w ((List.range per).map (fun j => d.float t i (per * q + j))), poison := bad i }))

end Sys2Proof.Machine
end

