-- ==== Sys2Proof/Machine/Matrix.lean ====
section
/-! DEFINITION. The matrix unit: its queue (06 R131, R134, R148), the sixteen microwords (R149 to R152), the drains
(07 R156 to R169), the completion element (06 Table 6.11) and the issue governor (07 R170). -/
namespace Sys2Proof.Machine

/-! ## The running command -/

def State.matrix (s : State) (g : Nat) : MUnit := (s.hold g).matrix
def State.updMatrix (s : State) (g : Nat) (f : MUnit → MUnit) : State := s.updHold g (fun h => { h with matrix := f h.matrix })
def State.setRun (s : State) (g : Nat) (r : MRun) : State := s.updMatrix g (fun m => { m with run := some r })

/-- 06 R152: the command ends with a kind, a cause and a microword address. -/
def State.endRun (s : State) (g : Nat) (r : MRun) (kind cause : Nat) : State :=
  s.setRun g { r with ended := some (kind, cause, min r.pc 4095) }
def State.failRun (s : State) (g : Nat) (r : MRun) (cause : Nat) : State := s.endRun g r 2 cause

/-- The next microword in order, or at an address. -/
def State.goOn (s : State) (g : Nat) (r : MRun) : State := s.setRun g { r with pc := r.pc + 1 }
def State.goTo (s : State) (g : Nat) (r : MRun) (n : Nat) : State := s.setRun g { r with pc := n }

def MRun.work (r : MRun) (n : BitVec 3) : BitVec 32 := r.w.get 0 n.toNat
def MRun.setWork (r : MRun) (n : BitVec 3) (v : BitVec 32) : MRun := { r with w := r.w.put n.toNat v }

/-- 06 Table 6.11, with the accumulators as they stand. -/
def MUnit.element (m : MUnit) (c : MCmd) (code maddr cause kind : Nat) : List Byte :=
  toBytes 8 (code * 2 ^ 48 + maddr * 2 ^ 36 + c.routine * 2 ^ 28 + cause * 2 ^ 20 + kind * 2 ^ 16) ++
    toBytes 8 (c.seq.toNat * 2 ^ 32 + (m.t0.poisonCount + m.t1.poisonCount) * 2 ^ 16 + m.t0.satCount + m.t1.satCount)

def MUnit.tile (m : MUnit) (x : BitVec 4) : Tile := if x = 0 then m.t0 else m.t1
def MUnit.setTile (m : MUnit) (x : BitVec 4) (t : Tile) : MUnit := if x = 0 then { m with t0 := t } else { m with t1 := t }

/-- 06 R147, R139: the buffers that a step reads were loaded under the current format. -/
def MRun.half (r : MRun) (h : Nat) : Option Buffer := if h = 0 then r.b0 else r.b1
def MRun.bufferOk (f : Word) (b : Option Buffer) : Bool := b.any (fun x => decide (x.fmt = f))
def MRun.operandsOk (r : MRun) (f : Word) (h : Nat) : Bool :=
  MRun.bufferOk f r.a && (halvesRead f h).all (fun k => MRun.bufferOk f (r.half k))
def Buffer.none : Buffer := ⟨0, 0, []⟩

/-! ## Row operands (06 R151) -/

/-- The core and first row of a run, or the cause; offs are the rows moved, counted from the first. The sum of a working
register and an offset is not reduced modulo 2^32 before the range check (DESIGN CHOICE, log 86). With am 0 the state of a
bond that holds the rows is not looked at (DEDUCED, log 102). -/
def State.runRows (s : State) (g : Nat) (r : MRun) (am : BitVec 2) (wa : BitVec 3) (h : BitVec 4) (off : BitVec 16)
    (offs : List Nat) (drain : Bool) : Except Nat (Nat × Nat) :=
  let last := offs.foldl max 0
  let n := (r.work wa).toNat
  if am = 0 then
    let first : Int := (n : Int) + signed off
    if first < 0 ∨ offs.all (fun k => s.rowOk g (first.toNat + k)) = false then .error Cause.rowRange
    else if offs.all (fun k => (if drain then r.cmd.wr else r.cmd.rd).has (first.toNat + k)) then .ok (g, first.toNat)
    else .error Cause.phaseSet
  else if am = 1 then
    match r.cmd.rings.get none h.toNat with
    | none => .error Cause.ring
    | some q =>
      let x := (s.hold g).ring q
      if (if drain then x.free else x.filled) ≤ n ∨ signed off < 0 ∨ (x.rows : Int) ≤ signed off + last then
        .error Cause.ring
      else .ok (g, (if drain then x.writeRow n else x.readRow n) + (signed off).toNat)
  else
    let e := r.cmd.bonds.get {} h.toNat
    match s.bondOf e with
    | none => .error Cause.bond
    | some b =>
      let first : Int := (n : Int) + signed off
      if e.st = .empty ∨ (drain = true ∧ e.st ≠ .held) ∨ first < 0 ∨ (b.count : Int) ≤ first + last then
        .error Cause.bond
      else .ok (e.home, b.first + first.toNat)

/-- 06 R144: an invalid row loads as zero bytes and marks its buffer row, a poisoned one marks it. -/
def bufRow (c : RowCell) : BufRow :=
  if !c.valid then ⟨0, 1⟩ else ⟨c.data, if c.poison then 2 else 0⟩
def State.loadRows (s : State) (at' : Nat × Nat) (offs : List Nat) : List BufRow :=
  offs.map (fun k => bufRow (s.row at'.1 (at'.2 + k)))

/-- Rows that MLDA moves of a plane-mode tile (06 R135). -/
def aRows (f : Word) (p : Nat) : List Nat :=
  List.range (1 + metaRows f) ++ [0, 1, 2, 3].map (fun k => 1 + metaRows f + 4 * p + k)

/-- 10 R222: the marks' codes join those of the element. -/
def State.ringOp (s : State) (g q : Nat) (f : Ring → Ring) : State :=
  (s.updHold g (fun h => h.setRing q (f (h.ring q)))).wake g

/-! ## The issue governor (07 R170) -/

/-- One cycle of the bed's window. -/
def bedPush (b : Bool) (l : List Bool) : List Bool := (b :: l).take 256
/-- Pauses until a plane-step fits under the limit: k bounds the pauses. -/
def bedPause (limit : Nat) : Nat → List Bool → Nat → List Bool × Nat
  | 0, l, n => (l, n)
  | k + 1, l, n =>
    if limit ≤ ((l.take 255).filter id).length then bedPause limit k (bedPush false l) (n + 1) else (l, n)
/-- n plane-steps. -/
def bedRun (limit : Nat) : Nat → List Bool → Nat → List Bool × Nat
  | 0, l, n => (l, n)
  | k + 1, l, n =>
    let p := bedPause limit 256 l n
    bedRun limit k (bedPush true p.1) p.2
def Core.planeSteps (c : Core) (n : Nat) : Core :=
  let r := bedRun c.mgov.toNat n c.bed 0
  { c with bed := r.1, mgstall := c.mgstall + BitVec.ofNat 64 r.2 }

/-! ## Which core a microword acts on -/

/-- The matrix unit at the head of the agenda, which the microword leaves; else that of the context in focus. -/
def State.microCore (s : State) : Nat × State :=
  match s.agenda with
  | .micro g :: t => (g, { s with agenda := t })
  | _ => (s.focus.core, s)

/-- A microword acts on the running command of its core; one that R149 does not accept fails it. -/
def microword (i : Instr) (s : State) (f : Nat → MRun → State → State) : Host.Outcome State Fault Refusal :=
  let c := s.microCore
  match (c.2.matrix c.1).run with
  | none => .next c.2
  | some r =>
    if r.ended.isSome || c.2.coreOff c.1 then .next c.2
    else if 4096 ≤ r.pc ∨ i.wf = false then .next (c.2.failRun c.1 r Cause.microword)
    else .next (f c.1 r c.2)

/-! ## The microwords (06 Table 6.9) -/

/-- MEND -/
def execMend (s : State) : Host.Outcome State Fault Refusal :=
  microword .mend s (fun g r s => s.endRun g r 0 0)

/-- MLDA -/
def execMlda (am : BitVec 2) (wa : BitVec 3) (h : BitVec 4) (off : BitVec 16) (wb : BitVec 3) (s : State) :
    Host.Outcome State Fault Refusal :=
  microword (.mlda am wa h off wb) s (fun g r s =>
    match r.fmt with
    | none => s.failRun g r Cause.format
    | some f =>
      let p := (r.work wb).toNat
      if fmtHalf f = false ∧ fmtAPlanes f ≤ p then s.failRun g r Cause.format
      else
        let offs := if fmtHalf f then List.range 32 else aRows f p
        match s.runRows g r am wa h off offs false with
        | .error c => s.failRun g r c
        | .ok t => s.goOn g { r with a := some ⟨f, p, s.loadRows t offs⟩ })

/-- MLDB -/
def execMldb (y : BitVec 4) (am : BitVec 2) (wa : BitVec 3) (h : BitVec 4) (off : BitVec 16) (s : State) :
    Host.Outcome State Fault Refusal :=
  microword (.mldb y am wa h off) s (fun g r s =>
    match r.fmt with
    | none => s.failRun g r Cause.format
    | some f =>
      let offs := List.range (if fmtHalf f then 32 else 33)
      match s.runRows g r am wa h off offs false with
      | .error c => s.failRun g r c
      | .ok t =>
        let b : Buffer := ⟨f, 0, s.loadRows t offs⟩
        s.goOn g (if y = 0 then { r with b0 := some b } else { r with b1 := some b }))

/-- MSTEP (06 R141, R143) -/
def execMstep (x y : BitVec 4) (s : State) : Host.Outcome State Fault Refusal :=
  microword (.mstep x y) s (fun g r s =>
    match r.fmt with
    | none => s.failRun g r Cause.format
    | some f =>
      let t := (s.matrix g).tile x
      if fmtSparsity f ≠ 0 ∧ y ≠ 0 then s.failRun g r Cause.microword
      else if t.halfMode != fmtHalf f then s.failRun g r Cause.format
      else if r.operandsOk f y.toNat = false then s.failRun g r Cause.operand
      else
        let a := r.a.getD Buffer.none
        let b (k : Nat) : Buffer := (r.half k).getD Buffer.none
        let t' := if fmtHalf f then t.halfStep a (b y.toNat) else t.planeStep a b y.toNat
        let s1 := s.updCore g (fun c => c.planeSteps (if fmtHalf f then 256 else 32))
        (s1.updMatrix g (fun m => m.setTile x t')).goOn g r)

/-- MPCOR (06 R142) -/
def execMpcor (x y : BitVec 4) (wa : BitVec 3) (s : State) : Host.Outcome State Fault Refusal :=
  microword (.mpcor x y wa) s (fun g r s =>
    match r.fmt with
    | none => s.failRun g r Cause.format
    | some f =>
      let t := (s.matrix g).tile x
      let k := (r.work wa).toNat
      if fmtHalf f || t.halfMode then s.failRun g r Cause.format
      else if k < fmtMinPlanes f ∨ fmtAPlanes f < k then s.failRun g r Cause.planes
      else if r.operandsOk f y.toNat = false then s.failRun g r Cause.operand
      else
        let a := r.a.getD Buffer.none
        let b (n : Nat) : Buffer := (r.half n).getD Buffer.none
        let s1 := s.updCore g (fun c => c.planeSteps (if fmtSparsity f = 0 then 1 else 32))
        (s1.updMatrix g (fun m => m.setTile x (t.correct a b y.toNat k))).goOn g r)

/-- MSWAP -/
def execMswap (s : State) : Host.Outcome State Fault Refusal :=
  microword .mswap s (fun g r s => (s.updMatrix g (fun m => { m with t0 := m.t1, t1 := m.t0 })).goOn g r)

/-- MCLR -/
def execMclr (x : BitVec 4) (wa : BitVec 3) (s : State) : Host.Outcome State Fault Refusal :=
  microword (.mclr x wa) s (fun g r s =>
    match r.fmt with
    | none => s.failRun g r Cause.format
    | some f =>
      (s.updMatrix g (fun m =>
        m.setTile x { halfMode := fmtHalf f, base := signed (fld (r.work wa) 0 16) })).goOn g r)

/-- Writes the rows of a drain one after another. -/
def State.writeCells (g : Nat) : State → Nat → List RowCell → State
  | s, _, [] => s
  | s, n, c :: t => State.writeCells g (s.putRow g n c) (n + 1) t

/-- 07 R158: the drain of a tile to a run of rows. -/
def State.drainTile (s : State) (g : Nat) (r : MRun) (d : Drain) (t : Tile) (at' : Nat × Nat) : State :=
  let s1 := State.writeCells at'.1 s at'.2 (d.rows t)
  let s2 := s1.updHold g (fun h =>
    { h with bounds := h.bounds.upd {} (fmtBound d.fmt) (fun b => b.addCount (d.badCount t)) })
  let s3 := if d.sr then s2.updCtx ⟨g, r.cmd.slot⟩ (fun c => { c with mdraw := c.mdraw + 1 }) else s2
  s3.goOn g { r with drains := r.drains + 1, lastDrain := r.pc }

/-- MDRAIN (07 R156 to R169) -/
def execMdrain (x y : BitVec 4) (am : BitVec 2) (wa : BitVec 3) (h : BitVec 4) (off : BitVec 16) (s : State) :
    Host.Outcome State Fault Refusal :=
  microword (.mdrain x y am wa h off) s (fun g r s =>
    match r.fmt with
    | none => s.failRun g r Cause.format
    | some f =>
      let cv := if y = 0 then fmtDrain f else y.toNat
      let c := (s.ctx ⟨g, r.cmd.slot⟩).mdraw
      let d : Drain :=
        { cv := cv, fmt := f, bound := (s.hold g).bounds.get {} (fmtBound f)
          draw := fun i => (fld (draw r.cmd.key r.cmd.stream c (BitVec.ofNat 32 i)) 0 32).toNat }
      let t := (s.matrix g).tile x
      if cv = 4 ∧ fmtOutPlanes f = 0 then s.failRun g r Cause.format
      else
        match s.runRows g r am wa h off (List.range (drainRows cv)) true with
        | .error e => s.failRun g r e
        | .ok z =>
          if fmtBoundEn f = true ∧ d.bound.pol = 2 ∧ 0 < d.badCount t then s.failRun g r Cause.bound
          else s.drainTile g r d t z)

/-- MLOOP -/
def execMloop (wa : BitVec 3) (imm : BitVec 24) (s : State) : Host.Outcome State Fault Refusal :=
  microword (.mloop wa imm) s (fun g r s =>
    let v := if r.work wa = 0 then 0 else r.work wa - 1
    if v = 0 then s.goOn g (r.setWork wa v) else s.goTo g (r.setWork wa v) imm.toNat)

/-- MBR -/
def execMbr (x : BitVec 4) (wa wb : BitVec 3) (imm : BitVec 24) (s : State) : Host.Outcome State Fault Refusal :=
  microword (.mbr x wa wb imm) s (fun g r s =>
    let taken : Bool :=
      match x.toNat with
      | 0 => true
      | 1 => decide (r.work wa = 0)
      | 2 => decide (r.work wa ≠ 0)
      | _ => decide ((r.work wa).toNat < (r.work wb).toNat)
    if taken then s.goTo g r imm.toNat else s.goOn g r)

/-- MWAITR: the unit alone waits. A handle that MCALL found unmapped fails the command with cause ring, here and in MRADV
and MPOST (DESIGN CHOICE, log 85). -/
def execMwaitr (y h : BitVec 4) (imm : BitVec 24) (s : State) : Host.Outcome State Fault Refusal :=
  microword (.mwaitr y h imm) s (fun g r s =>
    match r.cmd.rings.get none h.toNat with
    | none => s.failRun g r Cause.ring
    | some q =>
      let x := (s.hold g).ring q
      if imm.toNat ≤ (if y = 0 then x.filled else x.free) then s.goOn g r else s)

/-- MRADV (10 R222) -/
def execMradv (y h : BitVec 4) (imm : BitVec 24) (s : State) : Host.Outcome State Fault Refusal :=
  microword (.mradv y h imm) s (fun g r s =>
    match r.cmd.rings.get none h.toNat with
    | none => s.failRun g r Cause.ring
    | some q =>
      let x := (s.hold g).ring q
      let n := imm.toNat
      if y = 0 then
        if x.filled < n then s.failRun g r Cause.ring
        else
          match x.passed n with
          | some m => (s.ringOp g q (fun z => z.clearMark m.slot)).failRun g r m.cause
          | none => (s.ringOp g q (fun z => z.advanceRead n)).goOn g r
      else if x.free < n then s.failRun g r Cause.ring
      else (s.ringOp g q (fun z => z.advanceWrite n)).goOn g r)

/-- MPOST: the unit alone waits for a free slot -/
def execMpost (h : BitVec 4) (imm : BitVec 24) (s : State) : Host.Outcome State Fault Refusal :=
  microword (.mpost h imm) s (fun g r s =>
    match r.cmd.rings.get none h.toNat with
    | none => s.failRun g r Cause.ring
    | some q =>
      if ((s.hold g).ring q).free = 0 then s
      else (s.writeElement g q ((s.matrix g).element r.cmd (fld imm 0 16).toNat r.pc 0 1) none).goOn g r)

/-- MFMT (06 R147): the buffers become empty -/
def execMfmt (x : BitVec 4) (s : State) : Host.Outcome State Fault Refusal :=
  microword (.mfmt x) s (fun g r s =>
    let f := (s.matrix g).formats.get 0 ((r.cmd.c.getD x.toNat 0).toNat % 16)
    if fmtValid f then s.goOn g { r with fmt := some f, a := none, b0 := none, b1 := none }
    else s.failRun g r Cause.format)

/-- MSET -/
def execMset (x y : BitVec 4) (wa : BitVec 3) (imm : BitVec 24) (s : State) : Host.Outcome State Fault Refusal :=
  microword (.mset x y wa imm) s (fun g r s =>
    let v : BitVec 32 :=
      match y.toNat with
      | 0 => imm.signExtend 32
      | 1 => fld (r.cmd.p.get 0 x.toNat) 0 32
      | 2 => fld (r.cmd.p.get 0 x.toNat) 32 32
      | _ => r.cmd.c.getD x.toNat 0
    s.goOn g (r.setWork wa v))

/-- MADD -/
def execMadd (y : BitVec 4) (wa wb : BitVec 3) (imm : BitVec 24) (s : State) : Host.Outcome State Fault Refusal :=
  microword (.madd y wa wb imm) s (fun g r s =>
    s.goOn g (r.setWork wa (r.work wa + (if y = 0 then 0 else r.work wb) + imm.signExtend 32)))

/-! ## The queue -/

/-- 11 R234, R236: the accesses and commands that a matrix command's push follows. -/
def State.matrixHeldBack (s : State) (g : Nat) (c : MCmd) : Bool :=
  (s.ctx ⟨g, c.slot⟩).accessBefore c.ord || (s.hold g).copyBehind c.slot c.bar

/-- MATRIX_COMMAND_START (06 R148); an invalid entry fails the command before any microword runs, with address 0 (DESIGN
CHOICE, log 87) -/
def execMatrixCommandStart (core : Nat) (s : State) : Host.Outcome State Fault Refusal :=
  let m := s.matrix core
  match m.run, m.queue with
  | none, .cmd c :: t =>
    if (s.hold core).restoring || s.coreOff core || s.matrixHeldBack core c then .next s
    else
      let e := m.entries.get 0 c.routine
      let s1 := (s.updMatrix core (fun x => { x with queue := t })).passBar ⟨core, c.slot⟩ c.bar
      let r : MRun := { cmd := c, pc := (fld e 0 12).toNat }
      if e &&& 0xFFFFFFFFFFFFF000#64 = 0x8000000000000000#64 then .next (s1.setRun core r)
      else .next (s1.failRun core { r with pc := 0 } Cause.routine)
  | _, _ => .next s

/-- FORMAT_ENTRY_WRITE (06 R134): its entry leaves the queue -/
def execFormatEntryWrite (core : Nat) (s : State) : Host.Outcome State Fault Refusal :=
  let m := s.matrix core
  match m.run, m.queue with
  | none, .fmt e v _ :: t =>
    if (s.hold core).restoring || s.coreOff core then .next s
    else .next ((s.updMatrix core (fun x => { x with formats := x.formats.put e v, queue := t })).wake core)
  | _, _ => .next s

/-- The completion ring of a command: the one that p5 named at MCALL. -/
def MCmd.ring (c : MCmd) : Nat := (c.rings.get none (fld (c.p.get 0 5) 0 4).toNat).getD 0

/-- MATRIX_COMPLETION (06 R152) -/
def execMatrixCompletion (core : Nat) (s : State) : Host.Outcome State Fault Refusal :=
  match (s.matrix core).run with
  | none => .next s
  | some r =>
    match r.ended with
    | none => .next s
    | some (kind, cause, maddr) =>
      if ((s.hold core).ring r.cmd.ring).free = 0 ∨ s.coreOff core then .next s
      else
        let s1 := s.writeElement core r.cmd.ring ((s.matrix core).element r.cmd 0 maddr cause kind) none
        .next ((((s1.updMatrix core (fun m => { m with run := none })).releaseRings core).gctlSettle core).wake core)

/-- The next microword of a core's running command, as the unit fetches it (06 R148, R149): none past the store's end
or where it is not accepted. -/
def State.nextMicro (s : State) (g : Nat) : Option Instr :=
  match (s.matrix g).run with
  | none => none
  | some r => if 4096 ≤ r.pc then none else decodeMicro ((s.matrix g).words.get 0 r.pc)

/-- A microword that is not accepted fails its command. -/
def State.badMicro (s : State) (g : Nat) : State :=
  match (s.matrix g).run with
  | none => s
  | some r => if r.ended.isSome || s.coreOff g then s else s.failRun g r Cause.microword

end Sys2Proof.Machine
end

