-- ==== Sys2Proof/Machine/Cycle.lean ====
section
/-! DEFINITION. One core cycle: the bundle of the executing half (02 R30), the selector and its budgets (15 R294 to
R296), and the current limiter (R299, R300). -/
namespace Sys2Proof.Machine

/-- A word that is not an instruction (02 R33). -/
def illegalSem : Sem := { ill := true, run := fun _ s => .ok s }

/-- The meaning of a slot word. -/
def semOf : Instr → Sem
  | .nop => semNop
  | .br n f o => semBr n f o
  | .bem o => semBem o
  | .bnem o => semBnem o
  | .call d o => semCall d o
  | .ret a => semRet a
  | .sjmp n f a => semSjmp n f a
  | .loop c a l m => semLoop c a l m
  | .loopi c t l m => semLoopi c t l m
  | .igate c w s => semIgate c w s
  | .rwait q w n => semRwait q w n
  | .bindf f e i => semBindf f e i
  | .yield => semYield
  | .exit => semExit
  | .spawn a r => semSpawn a r
  | .spawns d a b r => semSpawns d a b r
  | .decide a b => semDecide a b
  | .oppt t => semOppt t
  | .hint h => semHint h
  | .sbar m => semSbar m
  | .grow n => semGrow n
  | .shrink n => semShrink n
  | .trap c => semTrap c
  | .eret => semEret
  | .srr d s => semSrr d s
  | .srw a s => semSrw a s
  | .halt => semHalt
  | .pwait g f e d c b a => semPwait g f e d c b a
  | .add p d a b => semAdd p d a b
  | .sub p d a b => semSub p d a b
  | .and p d a b => semAnd p d a b
  | .or p d a b => semOr p d a b
  | .xor p d a b => semXor p d a b
  | .andn p d a b => semAndn p d a b
  | .shl p d a b => semShl p d a b
  | .shr p d a b => semShr p d a b
  | .sar p d a b => semSar p d a b
  | .ror p d a b => semRor p d a b
  | .fshl p d a b x => semFshl p d a b x
  | .fshr p d a b x => semFshr p d a b x
  | .mul p d a b => semMul p d a b
  | .mulh p d a b => semMulh p d a b
  | .mulhu p d a b => semMulhu p d a b
  | .div p d a b => semDiv p d a b
  | .divu p d a b => semDivu p d a b
  | .rem p d a b => semRem p d a b
  | .remu p d a b => semRemu p d a b
  | .min p d a b => semMin p d a b
  | .max p d a b => semMax p d a b
  | .minu p d a b => semMinu p d a b
  | .maxu p d a b => semMaxu p d a b
  | .sel p d a b f => semSel p d a b f
  | .clz p d a => semClz p d a
  | .popc p d a => semPopc p d a
  | .brev p d a => semBrev p d a
  | .addi p d a i => semAddi p d a i
  | .andi p d a i => semAndi p d a i
  | .ori p d a i => semOri p d a i
  | .xori p d a i => semXori p d a i
  | .shli p d a h => semShli p d a h
  | .shri p d a h => semShri p d a h
  | .sari p d a h => semSari p d a h
  | .rori p d a h => semRori p d a h
  | .movi p d i => semMovi p d i
  | .movs p d i => semMovs p d i
  | .cmp p f c a b => semCmp p f c a b
  | .cmpi p f c a i => semCmpi p f c a i
  | .cb p c a b o => semCb p c a b o
  | .fadd p d a b => semFadd p d a b
  | .fsub p d a b => semFsub p d a b
  | .fmul p d a b => semFmul p d a b
  | .fma p d a b => semFma p d a b
  | .fcmp p f c a b => semFcmp p f c a b
  | .fcvt p d a s t => semFcvt p d a s t
  | .ld d a z i => semLd d a z i
  | .ldx d a z i => semLdx d a z i
  | .st s a z i => semSt s a z i
  | .ldaq d a z c i => semLdaq d a z c i
  | .strl s a z c i => semStrl s a z c i
  | .mark => semMark
  | .fence c => semFence c
  | .aadd d a b z c => semAadd d a b z c
  | .aand d a b z c => semAand d a b z c
  | .aor d a b z c => semAor d a b z c
  | .axor d a b z c => semAxor d a b z c
  | .amin d a b z c => semAmin d a b z c
  | .amax d a b z c => semAmax d a b z c
  | .aminu d a b z c => semAminu d a b z c
  | .amaxu d a b z c => semAmaxu d a b z c
  | .afadd d a b c => semAfadd d a b c
  | .afmin d a b c => semAfmin d a b c
  | .afmax d a b c => semAfmax d a b c
  | .aswp d a b z c => semAswp d a b z c
  | .acas d a b x z c => semAcas d a b x z c
  | .vld d a b z => semVld d a b z
  | .vldle d a b z => semVldle d a b z
  | .vst s a b z => semVst s a b z
  | .vpub a b => semVpub a b
  | .vfloor a b => semVfloor a b
  | .vdrop a b => semVdrop a b
  | .vquery d a => semVquery d a
  | .waita b a z n => semWaita b a z n
  | .tlook d a => semTlook d a
  | .tset a b => semTset a b
  | .tclr a => semTclr a
  | .spill s n => semSpill s n
  | .fill d n => semFill d n
  | .vFadd p d a b t => semVFadd p d a b t
  | .vFsub p d a b t => semVFsub p d a b t
  | .vFmul p d a b t => semVFmul p d a b t
  | .vFma p d a b t => semVFma p d a b t
  | .vFmin p d a b t => semVFmin p d a b t
  | .vFmax p d a b t => semVFmax p d a b t
  | .fabs p d a t => semFabs p d a t
  | .fneg p d a t => semFneg p d a t
  | .rcp p d a => semRcp p d a
  | .rsqrt p d a => semRsqrt p d a
  | .exp2 p d a => semExp2 p d a
  | .log2 p d a => semLog2 p d a
  | .cvt p d a h s t => semCvt p d a h s t
  | .vAdd p d a b t => semVAdd p d a b t
  | .vSub p d a b t => semVSub p d a b t
  | .vMul p d a b t => semVMul p d a b t
  | .vMin p d a b t => semVMin p d a b t
  | .vMax p d a b t => semVMax p d a b t
  | .vAnd p d a b t => semVAnd p d a b t
  | .vOr p d a b t => semVOr p d a b t
  | .vXor p d a b t => semVXor p d a b t
  | .vShl p d a b t => semVShl p d a b t
  | .vShr p d a b t => semVShr p d a b t
  | .vSar p d a b t => semVSar p d a b t
  | .vShli p d a i t => semVShli p d a i t
  | .vShri p d a i t => semVShri p d a i t
  | .vSari p d a i t => semVSari p d a i t
  | .vFshl p d a b t => semVFshl p d a b t
  | .vFshr p d a b t => semVFshr p d a b t
  | .cmpm p c a b t => semCmpm p c a b t
  | .vSel p d a b t => semVSel p d a b t
  | .mpush p c a b t => semMpush p c a b t
  | .minv p => semMinv p
  | .mpop p => semMpop p
  | .chkb p d a g t => semChkb p d a g t
  | .red p d a l k t => semRed p d a l k t
  | .scan p d a l k t => semScan p d a l k t
  | .bcast p d a i t => semBcast p d a i t
  | .perm p d a b t => semPerm p d a b t
  | .rotm p d a n => semRotm p d a n
  | .rndb p d => semRndb p d
  | .rndf p d t => semRndf p d t
  | .rndi p d a t => semRndi p d a t
  | .sampc p d a => semSampc p d a
  | .vldrRow v a i => semVldrRow v a i
  | .vstrRow v a m i => semVstrRow v a m i
  | .vldrRing v q i => semVldrRing v q i
  | .vstrRing v q m i => semVstrRing v q m i
  | .vldrGenerator v g => semVldrGenerator v g
  | .vstrGenerator v g m => semVstrGenerator v g m
  | .vldrBond v a k => semVldrBond v a k
  | .vstrBond v a m k => semVstrBond v a m k
  | .rcfg q a => semRcfg q a
  | .radvr q n => semRadvr q n
  | .radvw q n => semRadvw q n
  | .aset g a => semAset g a
  | .bond k a b => semBond k a b
  | .give k a => semGive k a
  | .lend k a => semLend k a
  | .recall k => semRecall k
  | .unbond k => semUnbond k
  | .mcall r => semMcall r
  | .mpset p a => semMpset p a
  | .mpgo => semMpgo
  | .cpy a b q c => semCpy a b q c
  | .cpyNoRing a b => semCpyNoRing a b
  | .pref a b x => semPref a b x
  | .fmtset e a => semFmtset e a
  | .bndset g a b p => semBndset g a b p
  | .bndget d g => semBndget d g
  | _ => illegalSem

/-! ## The bundle (02 R30, R35) -/

/-- Slot k of a bundle: the all-zero word is NOP and does nothing. -/
def slotSem (b : BundleWord) (k : Nat) : Option (Nat × Sem) :=
  if slotWord b k = 0 then none
  else
    match decodeSlot b k with
    | some i => some (k, { semOf i with ill := !i.wf })
    | none => some (k, illegalSem)

def decodeBundle (b : BundleWord) : Bundle := [0, 1, 2, 3, 4, 5, 6, 7].filterMap (slotSem b)

/-- The bundle that a context issues next. -/
def Ctx.bundle (c : Ctx) : BundleWord := c.execHalf.bundles.getD c.index 0

/-- The team's contexts wait (15 R295). -/
def State.markWaiting (s : State) (w : Who) : State := s.updTeam (s.team w) (fun c => { c with waiting := true })

/-- What fetch waits for has come: the executing half holds the segment of the next bundle (14 R292). -/
def State.fetched (s : State) (w : Who) : Option State := s.settleFetch (s.team w) (s.leadOf w)

/-- The context's bundle is offered the port; a context whose EXIT has issued takes the log records that its last bundle's
commands wait for (22 R381), and leaves when it can. A transfer that waits for a command which waits for its record diverges
(R382). -/
def State.offer (s : State) (w : Who) : State × Offer :=
  if (s.ctx (s.leadOf w)).exiting then
    match s.gates false (s.team w) with
    | .consumed x => (x.settled, .blocked)
    | _ =>
      let x := s.leave (s.team w)
      if (x.ctx w).resident then (x.markWaiting w, .blocked) else (x, .left)
  else
    match s.fetched w with
    | none =>
      match (s.team w).find? (fun m => s.blocksOnRecord m (((s.ctx (s.leadOf w)).incoming.map (s.imageUsers m)).getD [])) with
      | some m => s.takeTrap w [] m { cause := Cause.diverged }
      | none => (s.markWaiting w, .blocked)
    | some x => x.offerBundle w (decodeBundle (x.ctx (x.leadOf w)).bundle)

/-! ## Current weights (15 R299) -/

/-- A floating lane operation: 12 on f32, 10 on f16 and bf16. -/
def floatWeight (t : BitVec 4) : Nat := if t = 0 then 12 else 10

/-- Table 15.4. -/
def weightOf : SlotClass → Instr → Nat
  | .control, _ => 1
  | .scalar, i =>
    match i with
    | .mul _ _ _ _ => 4
    | .mulh _ _ _ _ => 4
    | .mulhu _ _ _ _ => 4
    | .div _ _ _ _ => 4
    | .divu _ _ _ _ => 4
    | .rem _ _ _ _ => 4
    | .remu _ _ _ _ => 4
    | .fadd _ _ _ _ => 4
    | .fsub _ _ _ _ => 4
    | .fmul _ _ _ _ => 4
    | .fma _ _ _ _ => 4
    | .fcmp _ _ _ _ _ => 4
    | .fcvt _ _ _ _ _ => 4
    | _ => 2
  | .memory, _ => 3
  | .vector, i =>
    match i with
    | .red _ _ _ _ _ _ => 8
    | .scan _ _ _ _ _ _ => 8
    | .vFadd _ _ _ _ t => floatWeight t
    | .vFsub _ _ _ _ t => floatWeight t
    | .vFmul _ _ _ _ t => floatWeight t
    | .vFma _ _ _ _ t => floatWeight t
    | .vFmin _ _ _ _ t => floatWeight t
    | .vFmax _ _ _ _ t => floatWeight t
    | .fabs _ _ _ t => floatWeight t
    | .fneg _ _ _ t => floatWeight t
    | .rndb _ _ => 10
    | .rndf _ _ _ => 10
    | .rndi _ _ _ _ => 10
    | .rcp _ _ _ => 14
    | .rsqrt _ _ _ => 14
    | .exp2 _ _ _ => 14
    | .log2 _ _ _ => 14
    | .sampc _ _ _ => 14
    | _ => 6
  | .row, _ => 6
  | .engine, _ => 2

/-- The weight of one slot for a member of a team: 1 where it takes no effect. -/
def State.slotWeight (s : State) (lead w : Who) (b : BundleWord) (k : Nat) : Nat :=
  match slotSem b k with
  | none => 0
  | some (_, m) =>
    if m.active (gateOf (decodeBundle b)) (s.env lead (fun _ => none) w k) k then
      (match decodeSlot b k with
       | some i => weightOf (classOf k) i
       | none => 0)
    else 1

def State.bundleWeight (s : State) (w : Who) : Nat :=
  let lead := s.leadOf w
  let b := (s.ctx lead).bundle
  [0, 1, 2, 3, 4, 5, 6, 7].foldl (fun a k => a + s.slotWeight lead w b k) 0

/-! ## The selector (15 R294 to R296) -/

/-- The order in which a cycle is offered: the current context first, or, after its YIELD, last. -/
def Core.offerOrder (c : Core) : List Nat :=
  let l := [0, 1, 2, 3].map (fun i => (c.current + i) % 4)
  if c.yielded then l.drop 1 ++ l.take 1 else l

/-- The loader has made the context's first bundle ready, and nothing has stopped it. -/
def Ctx.loaded (c : Ctx) : Bool := !c.loading && c.loadFault.isNone && !c.stopped

/-- A context that may be offered a cycle; a gang is offered one at its lead's core. -/
def State.offerable (s : State) (w : Who) : Bool :=
  (s.ctx w).resident && (s.team w).all (fun m => (s.ctx m).loaded) && decide (s.leadOf w = w)

/-- A context that does not wait for a wake; a wake of one member is a wake of its gang (15 R295). -/
def State.ready (s : State) (w : Who) : Bool := s.offerable w && (s.team w).any (fun m => !(s.ctx m).waiting)

/-- A slot with quota left (15 R296). -/
def Core.quotaLeft (c : Core) (k : Nat) : Bool := decide (c.used.get 0 k < (c.quota k).toNat)

/-- 15 R296: the slot has used its quota while another ready context of its core has some left. -/
def State.outOfQuota (s : State) (w : Who) : Bool :=
  let c := s.core w.core
  !(c.quotaLeft w.slot) &&
    [0, 1, 2, 3].any (fun k => decide (k ≠ w.slot) && c.quotaLeft k && s.ready (s.leadOf ⟨w.core, k⟩))

/-- The contexts offered this cycle, in turn: the gang, which another member's quota can delay (01 R17), then from the
current context on; those out of quota last (15 R294 to R296). -/
def State.candidates (s : State) (g : Nat) : List Who :=
  let l := (((s.core g).offerOrder.map (fun k => (⟨g, k⟩ : Who))).filter s.ready).filter (fun w =>
    (s.team w).all (fun m => (decide (m.core = g) || !(s.outOfQuota m)) && !(s.core m.core).opWait))
  let gangs := l.filter (fun w => (s.ctx w).gang.isSome)
  let rest := l.filter (fun w => (s.ctx w).gang.isNone)
  (gangs ++ rest).filter (fun w => !(s.outOfQuota w)) ++ (gangs ++ rest).filter s.outOfQuota

/-- 15 R300: the weights of the last 64 cycles. -/
def Core.recent (c : Core) : Nat := c.window.foldl (fun a x => a + x) 0
def Core.noteWeight (c : Core) (w : Nat) : Core := { c with window := (w :: c.window).take 64 }
/-- A bundle of that weight would exceed the limit. -/
def Core.limited (c : Core) (w : Nat) : Bool := decide (c.curlim.toNat < c.recent + w)

/-- The cycle is taken by a context: current, quota and weight, on every core of its team. -/
def State.endCycle (s : State) (ws : List Who) (weights : Who → Nat) : State :=
  ws.foldl (fun x w => x.updCore w.core (fun c =>
    ({ c with current := w.slot, used := c.used.put w.slot (c.used.get 0 w.slot + 1) } : Core).noteWeight (weights w))) s

/-- A frozen cycle of a team's cores: a limiter freeze of the cores high, or, with none, a transition freeze, which lasts until
the transition settles (15 R300, R303). -/
def State.freezeCycle (s : State) (ws : List Who) (high : List Who) : State :=
  ws.foldl (fun x w => x.updCore w.core (fun c =>
    ({ c with freezeLimiter := if high.contains w then c.freezeLimiter + 1 else c.freezeLimiter
              freezeTransition := if high.isEmpty then c.freezeTransition + 1 else c.freezeTransition
              opWait := c.opWait || (high.isEmpty && c.opBusy) } : Core).noteWeight 0)) s

/-- What an offer of the cycle to one context after another comes to. -/
inductive Cycle where
  | taken (s : State)
  /-- the contexts of the frozen team, and those whose core is over its limit -/
  | frozen (ws high : List Who)
  | idle (s : State)

/-- 15 R294, R300: the first context whose bundle issues or traps takes the cycle. -/
def State.offerEach (s : State) : List Who → Cycle
  | [] => .idle s
  | w :: t =>
    let r := s.offer w
    let ws := s.team w
    match r.2 with
    | .blocked => State.offerEach r.1 t
    | .left => State.offerEach r.1 t
    | .trapped => .taken (r.1.endCycle ws (fun _ => 0))
    | .frozen => .frozen ws []
    | .issued =>
      let weights := ((s.fetched w).getD s).bundleWeight
      let high := ws.filter (fun m => (s.core m.core).limited (weights m))
      if high.isEmpty then .taken (r.1.endCycle ws weights) else .frozen ws high

/-- A cycle in which nothing issues. -/
def Core.idleCycle (c : Core) : Core :=
  { c.noteWeight 0 with bed := if c.cur.matrix.run.isNone then bedPush false c.bed else c.bed }

/-- ISSUE_CYCLE (15 R294): the state after, and whether a bundle issued or trapped, or the core froze. -/
def State.cycle (s : State) (g : Nat) : State × Bool :=
  if s.coreOff g then (s, false)
  else
    let s0 := s.updCore g (fun c => { c with yielded := false })
    if (s.core g).opWait then (s.freezeCycle [⟨g, 0⟩] [], true)
    else
    match s0.offerEach (s.candidates g) with
    | .taken x => (x, true)
    | .frozen ws high => (s.freezeCycle ws high, true)
    | .idle x => (x.updCore g Core.idleCycle, false)

/-- ISSUE_CYCLE -/
def execIssueCycle (core : Nat) (s : State) : Host.Outcome State Fault Refusal := .next (s.cycle core).1

/-- BUDGET_PERIOD_BOUNDARY (15 R296): every quota is restored, and written values come into force -/
def execBudgetPeriodBoundary (core : Nat) (s : State) : Host.Outcome State Fault Refusal :=
  s.whileRunning (fun s => s.updCore core (fun c => { c with used := [], period := c.iperiod, quotas := c.iquota }))

end Sys2Proof.Machine
end

