-- ==== Sys2Proof/Machine/Difosal.lean ====
section
/-! DEFINITION. This device as the target of other devices' requests (19 R343, R344; 12 R245). -/
namespace Sys2Proof.Machine

def State.physical (s : State) (a : Nat) : Nat := s.difIndex.toNat * 2 ^ 42 + a

/-- Blocks that n bytes touch. -/
def blocksOf (a n : Nat) : List Nat := (List.range ((a + n + 63) / 64 - a / 64)).map (fun i => a / 64 + i)

/-- A retired frame meets the bytes. -/
def State.retiredRun (s : State) (a n : Nat) : Bool := s.retired (s.physical a) || s.retired (s.physical (a + n - 1))

/-- A valid export entry with the tag covers the local bytes. -/
def State.exported (s : State) (tag : BitVec 16) (a n : Nat) (write : Bool) : Bool :=
  s.exports.any (fun e => e.2.v && decide (e.2.tag = tag) && (e.2.w || !write) &&
    decide (e.2.base.toNat * 2 ^ 30 ≤ a) && decide (a + n ≤ (e.2.base.toNat + e.2.count.toNat) * 2 ^ 30))

def State.answerDif (s : State) (src cause : Nat) (data : List Byte) : State :=
  { s with difReplies := s.difReplies ++ [⟨src, cause, data⟩] }

/-- 12 R245, 22 R389: round k of element e of a window homed here receives device d's value; a closed round discards
it, and a retired frame refuses it (08 R403). -/
def State.arriveContribution (s : State) (p : Nat) (w : Window) (e d k : Nat) (x : Word) : State :=
  if s.retired (w.base + e * w.width) then s.answerDif d Cause.poisoned []
  else if k < w.closed.get 0 e then s.answerDif d Cause.linkLost []
  else
    let w1 := { w with rounds := joinRound s.cutOff e k d x w.rounds }
    (State.closeReady p w.wid e (w1.rounds.length + 1) (s.setWindow p w1)).answerDif d 0 (toBytes 8 (k % 2 ^ 32))

/-- The window of a partition that is homed here, names the device and has the element. -/
def State.homeWindow (s : State) (p wid d e : Nat) : Option Window :=
  (s.part p).windows.find? (fun w => decide (w.wid = wid) && decide (deviceOf w.base = s.difIndex.toNat) &&
    w.members.contains d && decide (e < w.elements))

/-- An accepted request performed at this device. -/
def State.serveDif (s : State) (src : Nat) : DifReq → State
  | .read a n =>
    if s.retiredRun a n || s.poisonedRange (s.physical a) n then s.answerDif src Cause.poisoned []
    else s.answerDif src 0 (s.readBytes (s.physical a) n)
  | .write a l =>
    if s.retiredRun a l.length then s.answerDif src Cause.poisoned []
    else (s.storeBytes (s.physical a) l).answerDif src 0 []
  | .atomic op a n x y =>
    if s.retiredRun a n || s.poisonedRange (s.physical a) n then s.answerDif src Cause.poisoned []
    else
      let r := s.atomicHome op (s.physical a) n (x.toNat % 2 ^ (8 * n)) (y.toNat % 2 ^ (8 * n))
      r.2.answerDif src 0 (toBytes 8 (atomicReturn op r.1 (x.toNat % 2 ^ (8 * n))).toNat)
  | .contribute op p wid e n k x =>
    match s.homeWindow p wid src e with
    | none => s.answerDif src Cause.window []
    | some w =>
      if windowAtomic w.op = op ∧ w.width = n then s.arriveContribution p w e src k x
      else s.answerDif src Cause.window []

/-- The local bytes of a request, and whether it needs w = 1. -/
def State.difTarget (s : State) : DifReq → Nat × Nat × Bool
  | .read a n => (a, n, false)
  | .write a l => (a, l.length, true)
  | .atomic _ a n _ _ => (a, n, true)
  | .contribute _ p wid e n _ _ =>
    (match (s.part p).windows.find? (fun w => decide (w.wid = wid)) with
     | some w => (localOf w.base + e * n, n, true)
     | none => (2 ^ 42, n, true))

/-- An incoming request is performed, refused with "permission", or waits for a back-invalidation response, which may not
come (19 R341). -/
def State.receiveDif (s : State) (src : Nat) (tag : BitVec 16) (req : DifReq) : State :=
  let t := s.difTarget req
  if !s.difEn || decide (s.difUp = 0) then s
  else if s.exported tag t.1 t.2.1 t.2.2 = false then s.answerDif src Cause.permission []
  else if s.snoopingRange (s.physical t.1) t.2.1 then
    if s.snoopLost then (s.answerDif src Cause.linkLost []).settled
    else { s with difWaiting := s.difWaiting ++ [(src, tag, req)] }
  else s.serveDif src req

/-- The requests that waited are received again, in their order. -/
def State.retryDif (s : State) : State :=
  s.difWaiting.foldl (fun x r => x.receiveDif r.1 r.2.1 r.2.2) { s with difWaiting := [] }

end Sys2Proof.Machine
end

