-- ==== Sys2Proof/Machine/Responses.lean ====
section
/-! DEFINITION. What other parties answer a context's queues (09 R197, R198, R200, R204; 12 R249; 18 R332; 19 R339,
R341), its observers (14 R287; 22 R375, R381) and the arming of a loop-buffer half (14 R293), each a step of its own.
A step whose condition does not hold leaves the state as it is (log 6). -/
namespace Sys2Proof.Machine

/-! ## Queue heads -/

/-- GLOBAL_LOAD_RESPONSE (09 R197): the load at the head of the context's queue is performed, and its data or its
fault reaches the destination. With no load there, a fault is the answer to the read that hardware makes next for a
context: of a WAITA, a launch record, a table or a segment (R200; 02 R50). -/
def execGlobalLoadResponse (core slot : Nat) (env : Resp) (s : State) : Host.Outcome State Fault Refusal :=
  s.whileRunning (fun s =>
    if (s.ctx ⟨core, slot⟩).loadQ.isEmpty then { s.shown env with foreign := s.foreign ++ [Resp.cause env] } else s.performLoad ⟨core, slot⟩ env)

/-- STORE_PERFORMED (09 R198): the store at the head of the context's queue is performed at its home. -/
def execStorePerformed (core slot : Nat) (s : State) : Host.Outcome State Fault Refusal :=
  s.whileRunning (fun s => s.performStore ⟨core, slot⟩)

/-- REMOTE_ROW_RESPONSE (09 R204): the context's oldest remote row access is performed at the home core. With none left, a
squashed context whose other accesses have been performed leaves (13 R271). -/
def execRemoteRowResponse (core slot : Nat) (s : State) : Host.Outcome State Fault Refusal :=
  let w : Who := ⟨core, slot⟩
  s.whileRunning (fun s => if (s.ctx w).remoteQ.isEmpty then s.freeSquashed w else s.performRemote w)

/-- STORE_REFUSAL (09 R197): the store at the head is refused by what it reaches now; one that cannot be sent fails with
"link lost" and with nothing else (19 R339, R344). -/
def execStoreRefusal (core slot cause : Nat) (s : State) : Host.Outcome State Fault Refusal :=
  let w : Who := ⟨core, slot⟩
  s.whileRunning (fun s =>
    if (s.ctx w).storeQ.head?.any (fun t => s.answers (s.headPa w t) cause &&
        (!(s.unsent (s.ctx w).owner.part (s.headPa w t)) || decide (cause = Cause.linkLost))) then s.refuseHead w cause
    else s)

/-- The context tries its bundle again (09 R200). -/
def Ctx.retry (c : Ctx) : Ctx := { c with waiting := false }

/-- WAITA_REREAD (09 R200): the waiting context's bundle is offered again, and its WAITA reads again then. -/
def execWaitaReread (core slot : Nat) (s : State) : Host.Outcome State Fault Refusal :=
  .next (s.updCtx ⟨core, slot⟩ Ctx.retry)

/-- The context's next bundle holds a version instruction (12 R249). -/
def State.versionNext (s : State) (w : Who) : Bool :=
  match decodeSlot (s.ctx (s.leadOf w)).bundle 3 with
  | some (.vld _ _ _ _) => true
  | some (.vldle _ _ _ _) => true
  | some (.vst _ _ _ _) => true
  | some (.vpub _ _) => true
  | some (.vfloor _ _) => true
  | some (.vdrop _ _) => true
  | some (.vquery _ _) => true
  | _ => false

/-- VERSION_UNIT_ANSWER (12 R249; 15 R294, R295): the unit has an answer for the version instruction of the context's next
bundle, which its core's next cycles offer again. -/
def execVersionUnitAnswer (core slot : Nat) (s : State) : Host.Outcome State Fault Refusal :=
  let w : Who := ⟨core, slot⟩
  .next (if s.offerable w && !(s.coreOff core) && s.versionNext w then s.updTeam (s.team w) Ctx.retry else s)

/-- The access at the head of a queue that goes to the host window (19 R339). -/
def State.loadToHost (s : State) (w : Who) : Bool :=
  (s.ctx w).loadQ.head?.any (fun l => (s.ctx w).loadReady l && decide (s.place (s.livePa (s.ctx w).owner l.va.toNat l.pa) = .host))
def State.storeToHost (s : State) (w : Who) : Bool :=
  (s.ctx w).storeQ.head?.any (fun t => (s.ctx w).storeReady t && decide (s.place (s.headPa w t) = .host))

/-- NO_COMPLETION (19 R339): a request to the host window ends with "host abort" in PCIe mode; with none at the heads of
the context's queues it is the request that hardware makes next for a context. -/
def execNoCompletion (core slot : Nat) (s : State) : Host.Outcome State Fault Refusal :=
  let w : Who := ⟨core, slot⟩
  s.whileRunning (fun s =>
    if s.sec.hmode then s
    else if s.loadToHost w then s.performLoad w .hostAbort
    else if s.storeToHost w then
      (if s.hostUp then s.refuseHead w Cause.hostAbort else s.performStore w)
    else { s with foreign := s.foreign ++ [some Cause.hostAbort] })

/-- A copy command that waits for a back-invalidation response: it would move if no line were held by the host. -/
def State.copySnoops (s : State) (g uid : Nat) : Bool :=
  let free := { s with hostLines := [] }
  decide (s.stepCopy g uid = s) && !decide (free.stepCopy g uid = free)

/-- The copy commands of a context that wait so. -/
def State.snoopedCopy (s : State) (w : Who) : Option CCmd :=
  (s.hold w.core).copies.find? (fun c => decide (c.slot = w.slot) && s.copySnoops w.core c.uid)

/-- The entry at the head of a queue waits for a back-invalidation response. -/
def State.loadSnoops (s : State) (w : Who) : Bool :=
  (s.ctx w).loadQ.head?.any (fun l => (s.ctx w).loadReady l && s.snoopingRange (s.livePa (s.ctx w).owner l.va.toNat l.pa) l.line)
def State.storeSnoops (s : State) (w : Who) : Bool :=
  (s.ctx w).storeQ.head?.any (fun t => (s.ctx w).storeReady t && s.snoopingRange (s.headPa w t) t.n)

/-! ## Lines that the host may hold -/

/-- The rounds that are open at the windows homed here: partition, window, element and round. -/
def State.openRounds (s : State) : List (Nat × Nat × Nat × Nat) :=
  s.parts.flatMap (fun p => (p.2.windows.filter (fun w => decide (deviceOf w.base = s.difIndex.toNat))).flatMap (fun w =>
    w.rounds.map (fun r => (p.1, w.wid, r.elem, r.k))))
/-- Every window's rounds that are complete close, but for lines that the host may hold. -/
def State.closeAll (s : State) : State :=
  s.openRounds.foldl (fun x r => State.closeReady r.1 r.2.1 r.2.2.1 (s.openRounds.length + 1) x) s

/-- What waited for a line that the host may hold is tried again (19 R341): commands of the job registers, requests of other
devices, event records, rounds, and the contexts that wait. -/
def State.retryAll (s : State) : State :=
  let s1 : State := { s with agenda := s.later.map Act.event ++ s.agenda, later := [] }
  let s2 := s1.parts.foldl (fun x p => State.flushEvents p.1 (p.2.evWaiting.length + 1) x) s1
  ((s2.cores.map (fun e => e.1)).foldl State.wake s2).closeAll.retryDif

/-- SNOOP_NO_RESPONSE (19 R341): the access of the context that waits for the snoop fails with "link lost": its load, its
store, its copy command, or else what hardware reads next for it or another party of the device that waits (log 94). -/
def execSnoopNoResponse (core slot : Nat) (s : State) : Host.Outcome State Fault Refusal :=
  let w : Who := ⟨core, slot⟩
  let lost (s : State) : State := { s with foreign := [some Cause.linkLost] }
  s.whileRunning (fun s =>
    if s.loadSnoops w then
      (s.ctx w).loadQ.head?.elim s (fun l => (s.updCtx w (fun x => x.failLoad l Cause.linkLost none)).wake core)
    else if s.storeSnoops w then
      (s.ctx w).storeQ.head?.elim s (fun t => s.refuseStore w Cause.linkLost (s.headPa w t))
    else
      match s.snoopedCopy w with
      | some x => if s.coreOff core then s else ((lost s).stepCopy core x.uid).settled
      | none => (lost s).retryAll)

/-- A task of the job is resident on the cluster. -/
def State.jobRuns (s : State) (cluster job : Nat) : Bool :=
  (s.job job).en && ((coresOf cluster).flatMap contextsOf).any (fun w =>
    (s.ctx w).resident && !(s.ctx w).owner.boot && decide ((s.ctx w).owner.job = job))

/-- The leaf of a page stands in a cluster's TLB. -/
def State.inTlb (s : State) (cluster job va : Nat) : Bool :=
  (s.cluster cluster).tlb.any (fun l => l.covers job (s.job job).part.toNat va)
/-- 18 R332: an access of the job on the cluster misses the TLB for a page: the next bundle of a context, or the next step of
a copy command, makes a walk for it. -/
def State.missed (s : State) (cluster job va : Nat) : Bool :=
  !(s.inTlb cluster job va) && (coresOf cluster).any (fun g =>
    (contextsOf g).any (fun w => (s.offerable w && (s.offer w).1.inTlb cluster job va)) ||
      (s.hold g).copies.any (fun c => (s.stepCopy g c.uid).inTlb cluster job va))

/-- TRANSLATION_WALK (18 R331, R332): on a miss, a walk for the page fills the cluster TLB; a walk that ends in a fault fills
nothing, and the access that needed it reports the fault. -/
def execTranslationWalk (cluster job : Nat) (va : BitVec 64) (s : State) : Host.Outcome State Fault Refusal :=
  s.whileRunning (fun s =>
    if s.jobRuns cluster job && s.missed cluster job va.toNat then
      (match s.leafFor cluster job va with
       | .ok (_, s') => s'
       | .error _ => s)
    else s)

/-! ## Observers -/

/-- VIEW_UPDATE (14 R287): hardware updates a bound flag's view between two bundles; a handler runs no update. -/
def execViewUpdate (core slot flag : Nat) (s : State) : Host.Outcome State Fault Refusal :=
  let w : Who := ⟨core, slot⟩
  let c := s.ctx w
  if c.resident && !c.stopped && !c.exiting && !c.inTrap && (s.viewDue w flag).isSome && !(s.coreOff core) && !(s.logWaits w) then
    .next ((s.updateView w flag).updCtx w Ctx.retry)
  else .next s

/-- RETSTAT_READ (22 R375): the context issues SRR of CORE.RETSTAT, which is logged or replayed. -/
def execRetstatRead (core slot : Nat) (d : BitVec 5) (s : State) : Host.Outcome State Fault Refusal :=
  .next (if s.coreOff core then s else s.issueBundle ⟨core, slot⟩ [(0, semSrr d 0x103#12)])

/-- REPLAY_CONSUME (22 R381, R382): the record due at the context's step is consumed, or the replay diverges. -/
def execReplayConsume (core slot : Nat) (s : State) : Host.Outcome State Fault Refusal :=
  let w : Who := ⟨core, slot⟩
  let b := decodeBundle (s.ctx (s.leadOf w)).bundle
  let c := s.ctx w
  if c.resident && !c.loading && !c.stopped && !(s.coreOff core) then
    match s.replayGate w (b.any (fun x => x.2.retstat)) with
    | .consumed s' => .next s'
    | .trap e a f => .next (if c.exiting then s else (s.takeTrap w b w { cause := e, addr := a, frame := f }).1)
    | .live => .next s
    | .counter _ => .next s
    | .wait => .next s
  else .next s

/-- CTX.LBCTL written with arm = 1, as a bundle of its own (14 R293). -/
def armSem (half : Nat) (count : BitVec 9) : Sem :=
  { run := fun e s =>
      if half = (s.ctx e.who).half then trapNat Cause.segment 0
      else if ((s.ctx e.who).halves.get {} half).claim.isSome = true then .block []
      else .ok (s.updCtx e.who (fun c => c.setLbctl true half count)) }

/-- LBCTL_ARM (14 R293) -/
def execLbctlArm (core slot half : Nat) (count : BitVec 9) (s : State) : Host.Outcome State Fault Refusal :=
  .next (if s.coreOff core then s else s.issueBundle ⟨core, slot⟩ [(0, armSem half count)])

end Sys2Proof.Machine
end

