-- ==== Sys2Proof/Machine/Moves.lean ====
section
/-! DEFINITION. Steps of the copy engine (10 R217, R220, R221), the end of a command that a CORE.GCTL of the core window
waits for (08 R184), and the arrival of bonds (08 R192, R193). -/
namespace Sys2Proof.Machine

/-- COPY_TUPLE (10 R217): the command moves one run, or ends. -/
def execCopyTuple (core uid : Nat) (s : State) : Host.Outcome State Fault Refusal :=
  .next (if s.coreOff core then s else (s.stepCopy core uid).settled)

/-- COPY_COMPLETION (10 R221) -/
def execCopyCompletion (core uid : Nat) (s : State) : Host.Outcome State Fault Refusal :=
  .next (if s.coreOff core then s else s.completeCopy core uid)

/-- COPY_DEADLINE_EXPIRY (10 R220, R224): the counter runs while the holder runs, through freeze and gating. -/
def execCopyDeadlineExpiry (core uid : Nat) (s : State) : Host.Outcome State Fault Refusal :=
  match s.copy? core uid with
  | none => .next s
  | some c =>
    if c.ring.isSome && decide (c.deadline ≠ 0) && !(s.hold core).halting then
      .next (s.updHold core (fun h => h.putCopy { c with expired := true }))
    else .next s

/-- The oldest transfer of a kind towards a handle that can arrive. -/
def State.arrival (s : State) (w : Who) (k : Nat) (lend : Bool) : Option Transfer :=
  s.transfers.find? (fun t => decide (t.target = w) && decide (t.k = k) && (t.lend == lend) && s.canArrive t)

/-- BOND_TRANSFER_ARRIVAL (08 R192) -/
def execBondTransferArrival (core slot k : Nat) (s : State) : Host.Outcome State Fault Refusal :=
  s.whileRunning (fun s => (s.arrival ⟨core, slot⟩ k false).elim s s.arrive)

/-- LEND_ARRIVAL (08 R193) -/
def execLendArrival (core slot k : Nat) (s : State) : Host.Outcome State Fault Refusal :=
  s.whileRunning (fun s => (s.arrival ⟨core, slot⟩ k true).elim s s.arrive)

end Sys2Proof.Machine
end

