-- ==== Sys2Proof/Machine/Start.lean ====
section
/-! DEFINITION. From the launch queue to a task's first bundle: selection and binding (13 R262, R263; 15 R297), the
overlay loader (13 R259, R264; 22 R377), segment prefetch (14 R292) and the boot doorbell (13 R265, R266). -/
namespace Sys2Proof.Machine

/-! ## Selection -/

/-- 13 R262: the record can bind to its slot of a core. -/
def State.canBind (s : State) (g : Nat) (l : List Byte) : Bool :=
  let h := s.hold g
  !(s.ctx ⟨g, placeSlot l⟩).resident && decide (h.allotted + 8 * placeAlloc l ≤ 128) &&
    !(placeMatrix l && h.matrixHeld) && !(h.meetsBond (placeSpillFirst l) (placeSpillRows l)) &&
    !(h.meetsRing (placeSpillFirst l) (placeSpillRows l)) && !(h.meetsCarve (placeSpillFirst l) (placeSpillRows l))

/-- The number of the record an entry belongs to: its entries' tasks are numbered in turn. -/
def Launch.record (l : Launch) : Nat := l.task - l.member

/-- 13 R263: no earlier gang entry of the core's queue waits for the slot. -/
def Hold.slotFree (h : Hold) (l : Launch) : Bool :=
  !(h.queue.any (fun e => e.gang.isSome && decide (e.record < l.record) && decide (placeSlot e.image = placeSlot l.image)))

/-- 13 R263: no gang whose record reached the cluster earlier waits. -/
def State.gangFirst (s : State) (g : Nat) (l : Launch) : Bool :=
  !((coresOf (clusterOf g)).any (fun k => (s.hold k).queue.any (fun e => e.gang.isSome && decide (e.record < l.record))))

/-- An entry of core g is eligible, apart from the rest of its gang. -/
def State.eligibleHere (s : State) (g : Nat) (l : Launch) : Bool := s.canBind g l.image && (s.hold g).slotFree l

/-- A gang's entry on another member. -/
def State.sibling (s : State) (g : Nat) (l : Launch) : Option Launch :=
  (s.hold g).queue.find? (fun e => e.gang.isSome && decide (e.record = l.record))

/-- 15 R297: eligible on this core; a gang entry only with every member's. -/
def State.eligible (s : State) (g : Nat) (l : Launch) : Bool :=
  match l.gang with
  | none => s.eligibleHere g l
  | some k => s.gangFirst g l && k.members.all (fun m => (s.sibling m l).any (fun e => s.eligibleHere m e))

/-- The most urgent of a list, the oldest of its class. -/
def mostUrgent : List Launch → Option Launch
  | [] => none
  | l :: t =>
    match mostUrgent t with
    | none => some l
    | some m => if m.cls < l.cls then some m else some l

/-- 15 R297: the entry a core's selection takes. -/
def State.selection (s : State) (g : Nat) : Option Launch := mostUrgent ((s.hold g).queue.filter (s.eligible g))

/-- A pass; the 16th moves the entry to the next class. -/
def Launch.pass (l : Launch) : Launch :=
  if l.passes + 1 < 16 then { l with passes := l.passes + 1 } else { l with passes := 0, cls := l.cls - 1 }

/-- The selected entry leaves the queue and every other eligible one counts a pass; a launch that waited for room may try
again (13 R267, 15 R295). -/
def State.take (s : State) (g : Nat) (l : Launch) : State :=
  let ok := (s.hold g).queue.filter (s.eligible g)
  (if (s.hold g).queue.length < 32 then s else s.wakeAll (s.coresFor l.owner)).updHold g (fun h =>
    { h with queue := (h.queue.filter (fun e => !decide (e.task = l.task))).map (fun e =>
        if ok.any (fun x => decide (x.task = e.task)) then e.pass else e) })

/-- 13 R264, Table 13.4: the context starts. A launch leaves the lead's core's request as it is (15 R301): it is what the
gang requests. -/
def State.bind (s : State) (g : Nat) (l : Launch) : State :=
  (s.updCtx ⟨g, placeSlot l.image⟩ (fun _ =>
    { Ctx.launched l with gangReq := if l.gang.any (fun k => decide (k.lead = g)) then some (s.hold g).opReq else none })).opChanged g

/-- The cores on which a selection binds at once: the core itself, or every member of a gang once each member's
selection has come to the gang's entry (13 R263). -/
def State.bindOn (s : State) (g : Nat) (l : Launch) : List (Nat × Launch) :=
  match l.gang with
  | none => [(g, l)]
  | some k =>
    let picks := k.members.filterMap (fun m => (s.selection m).map (fun e => (m, e)))
    if picks.length = k.members.length ∧ picks.all (fun e => e.2.gang.isSome && decide (e.2.record = l.record)) = true then
      picks
    else []

/-- LAUNCH_BIND (13 R262, R263; 15 R297); a core selects again while something stays eligible. -/
def execLaunchBind (core : Nat) (s : State) : Host.Outcome State Fault Refusal :=
  if s.coreOff core then .next s
  else
    match s.selection core with
    | none => .next s
    | some l =>
      let picks := s.bindOn core l
      let s1 := picks.foldl (fun x e => x.take e.1 e.2) s
      let s2 := picks.foldl (fun x e => x.bind e.1 e.2) s1
      if picks.isEmpty then .next s
      else .next (if (s2.selection core).isSome then s2.soon (.launchBind core) else s2)

/-! ## The overlay loader -/

/-- What the loader's steps come to: the state so far, and why a step failed. -/
abbrev Loaded := State × Option ReadFault

/-- Step 1 (22 R377): cap_0, the member's own header, CTX.LOGP and CTX.LOGM. -/
def State.loadLog (s : State) (w : Who) : Loaded :=
  let c := s.ctx w
  if c.logMode ≠ 1 ∧ c.logMode ≠ 2 then (s, none)
  else
    let base := recWord c.record 48 &&& ~~~15#64
    let fetch (x : State) (va : Word) := x.fetchBytes (clusterOf w.core) c.owner c.priv va 16 .read
    match fetch s base with
    | .error e => (s, some e)
    | .ok (h0, s1) =>
      let at' := base + BitVec.ofNat 64 (16 * (fieldAt h0 0 3 + 1) * c.member)
      match fetch s1 at' with
      | .error e => (s1, some e)
      | .ok (h, s2) =>
        let cap := BitVec.ofNat 24 (fieldAt h 0 3)
        (s2.updCtx w (fun x => { x with logHeader := at', logPtr := nextLog at', logCap := cap, logLeft := cap }), none)

/-- A ring-table entry's handle, and its descriptor without those bits (13 R259). -/
def ringEntryHandle (v : Word) : Nat := (fld v 48 4).toNat
def ringEntryDesc (v : Word) : RingDesc := ringDesc (v &&& ~~~0x000F000000000000#64)

/-- Step 2: the entries in table order; one that RCFG with en = 1 would refuse raises "ring". -/
def State.applyRings (w : Who) : Nat → List Byte → State → Loaded
  | 0, _, s => (s, none)
  | n + 1, l, s =>
    let v := BitVec.ofNat 64 (fieldAt l 0 8)
    match s.mapRing w (ringEntryHandle v) (ringEntryDesc v) with
    | none => (s, some ⟨Cause.ring, BitVec.ofNat 64 (ringEntryHandle v), none⟩)
    | some s1 => State.applyRings w n (l.drop 8) s1

/-- Step 3: a valid setting has setcls 1 and no other bit beside its group, in range, and its class. -/
def State.applyClasses (w : Who) : Nat → List Byte → State → Loaded
  | 0, _, s => (s, none)
  | n + 1, l, s =>
    let v := fieldAt l 0 4
    let group := v % 512
    if bits v 31 14 ≠ 1 ∨ bits v 10 9 ≠ 0 ∨ s.groupOwned w.core group = false then
      (s, some ⟨Cause.launch, 0, none⟩)
    else State.applyClasses w n (l.drop 4) (s.gctl w.core group false true (BitVec.ofNat 3 (bits v 13 11)))

/-- A table of the record read for a context, and applied. -/
def State.loadTable (s : State) (w : Who) (va : Word) (count size : Nat)
    (apply : Nat → List Byte → State → Loaded) : Loaded :=
  let c := s.ctx w
  if va = 0 ∨ count = 0 then (s, none)
  else
    match s.fetchBytes (clusterOf w.core) c.owner c.priv va (count * size) .read with
    | .error e => (s, some e)
    | .ok (l, s1) => apply count l s1

/-- Step 4: the first segment in half 0, its image in the rows of the member's core; none waits (02 R52). -/
def State.loadSegment (s : State) (w : Who) : Option Loaded :=
  let c := s.ctx w
  match s.readSegment (clusterOf w.core) c.owner c.priv (recWord c.record 0) with
  | .error e => some (s, some e)
  | .ok (g, s1) =>
    let h := g.half (recWord c.record 0) c.priv
    if s1.imageClash w h then none
    else
      some ((State.writeRows w.core s1 h.imageRow h.image).updCtx w (fun x =>
        { x with halves := x.halves.put 0 h, half := 0, index := 0, loading := false }), none)

/-- One step after another, up to the first that fails. -/
def Loaded.andThen (x : Loaded) (f : State → Loaded) : Loaded :=
  match x.2 with
  | none => f x.1
  | some _ => x

/-- The four steps. -/
def State.load (s : State) (w : Who) : Option Loaded :=
  let l := (s.ctx w).record
  let x := ((s.loadLog w).andThen (fun y =>
    y.loadTable w (recWord l 64) (fieldAt l 72 1) 8 (State.applyRings w))).andThen (fun y =>
      y.loadTable w (recWord l 80) (fieldAt l 88 2) 4 (State.applyClasses w))
  match x.2 with
  | some _ => some x
  | none => x.1.loadSegment w

/-- The loader's steps for a context: done, failed for good, or to be made again (19 R341). -/
def State.loadCtx (s : State) (w : Who) : State :=
  match s.load w with
  | none => s
  | some (x, none) => x.settled
  | some (x, some e) =>
    if e.cause = Cause.later then s
    else (x.updCtx w (fun c => { c with loading := false, loadFault := some (e.cause, e.addr, e.frame) })).settled

/-- 13 R264, 21 R360: once every member's steps are over, the first member that failed takes its precise trap, before the
first bundle. -/
def State.loadTrap (s : State) (w : Who) : State :=
  let ws := s.team w
  if ws.any (fun m => (s.ctx m).loading) then s
  else
    match ws.findSome? (fun m => (s.ctx m).loadFault.map (fun f => (m, f))) with
    | none => s
    | some (m, c, a, f) =>
      (State.enterTrap s s m { cause := c, addr := a, frame := f } false (s.ctx (s.leadOf w)).tpcHere).getD s

/-- OVERLAY_LOAD (13 R264) -/
def execOverlayLoad (core slot : Nat) (s : State) : Host.Outcome State Fault Refusal :=
  let w : Who := ⟨core, slot⟩
  let c := s.ctx w
  if !c.resident || c.stopped || s.coreOff core then .next s
  else .next ((if c.loading then s.loadCtx w else s).loadTrap w)

/-- SEGMENT_PREFETCH (14 R292): what fails here is raised by the transfer. -/
def execSegmentPrefetch (core slot : Nat) (s : State) : Host.Outcome State Fault Refusal :=
  let w : Who := ⟨core, slot⟩
  let c := s.ctx w
  let h := c.execHalf
  let o := c.otherHalf
  if !c.resident || c.loading || c.stopped || s.coreOff core || decide (s.leadOf w ≠ w) || h.last || c.incoming.isSome ||
      o.claim.isSome || decide (c.armed.map (fun a => a.1) = some (1 - c.half)) ||
      (o.valid && decide (o.addr = segmentBase h.next) && (c.priv || !o.priv)) then .next s
  else
    match s.readSegment (clusterOf core) c.owner c.priv h.next with
    | .error _ => .next s
    | .ok (g, s1) =>
      .next ((s1.updCtx w (fun x => { x with halves := x.halves.put (1 - x.half) (g.half h.next c.priv) })).settled)

/-! ## The doorbell (13 R265, R266; 18 R326; 21 R366, R373) -/

/-- The enabled job that names a host function and whose partition holds the cluster. -/
def State.doorbellJob (s : State) (f cl : Nat) : Option (Nat × Nat) :=
  (s.jobs.find? (fun e => e.2.en && e.2.fv && decide (e.2.func.toNat = f) && (s.part e.2.part.toNat).en &&
    (s.part e.2.part.toNat).clusters.getLsbD cl)).map (fun e => (e.1, e.2.part.toNat))

def State.setBoot (s : State) (g result : Nat) : State :=
  s.updCore g (fun c => { c with
    bootResult := BitVec.ofNat 8 result
    bootAccepted := if result = 0 then c.bootAccepted + 1 else c.bootAccepted })

/-- What both paths check first, result 3 by the mailbox's own cluster (DEDUCED, log 107); the record, its job and its partition, or the result. -/
def State.doorbell (s : State) (f g : Nat) (single : Bool) : Except Nat (List Byte × Nat × Nat) :=
  match s.doorbellJob f (clusterOf g) with
  | none => .error 3
  | some (j, p) =>
    let l := padTo 128 (padTo 64 (s.core g).bootRec)
    if recordInvalid l (fun k => (s.part p).clusters.getLsbD k) || decide (placeCluster l ≠ clusterOf g) ||
        (single && (placeGang l || decide (placeCores l ≠ [g]))) then .error 2
    else if (s.job j).losing then .error 1
    else .ok (l, j, p)

/-- A partition's state on a core, whether it runs or is swapped out. -/
def State.partHold (s : State) (p g : Nat) : Hold :=
  if (s.core g).cur.part = some p then (s.core g).cur else (s.core g).out

def recKey (l : List Byte) : BitVec 128 := BitVec.ofNat 128 (fieldAt l 16 16)

/-- BOOT_DOORBELL_DIRECT: bound at once, ahead of the queue -/
def execBootDoorbellDirect (func core : Nat) (s : State) : Host.Outcome State Fault Refusal :=
  match s.doorbell func core true with
  | .error r => .next (s.setBoot core r)
  | .ok (l, j, p) =>
    if (s.hold core).part ≠ some p ∨ s.coreOff core = true ∨ s.canBind core l = false then .next (s.setBoot core 1)
    else
      let e : Launch :=
        { image := l, prio := 0, cls := 0, key := recKey l, stream := recWord l 32, logMode := placeLog l, member := 0,
          members := 1, owner := { part := p, job := j }, task := s.nextTask }
      .next ((({ s with nextTask := s.nextTask + 1 } : State).bind core e).setBoot core 0)

/-- BOOT_DOORBELL_ENQUEUE: queued in the partition's own queues, whether it runs or is swapped out -/
def execBootDoorbellEnqueue (func core : Nat) (pr : BitVec 2) (s : State) : Host.Outcome State Fault Refusal :=
  match s.doorbell func core false with
  | .error r => .next (s.setBoot core r)
  | .ok (l, j, p) =>
    if (placeCores l).any (fun k => decide (32 ≤ (s.partHold p k).queue.length)) then .next (s.setBoot core 1)
    else
      .next (((s.onPart p (fun x => x.insertRecord { part := p, job := j } l pr.toNat (recKey l) (recWord l 32)
        (placeLog l) none)).selectSoon l).setBoot core 0)

end Sys2Proof.Machine
end

