-- ==== Sys2Proof/Machine/Register.lean ====
section
/-! DEFINITION. The translation service and the version unit as servers of the job registers: invalidation (18 R333),
registration and dropping of versioned regions, windows and tiered ranges (18 R334; 12 R244, R248; 15 R307), and
attestation (19 R348). -/
namespace Sys2Proof.Machine

/-! ## Invalidation (18 R333) -/

/-- The bytes a request's range covers: base and size; none is the whole job. -/
def invalRange (v : Word) : Option (Nat × Nat) :=
  let va := bits v.toNat 55 16 * 65536
  match (fld v 0 2).toNat with
  | 0 => some (va, 65536)
  | 1 => some (va / 2 ^ 21 * 2 ^ 21, 2 ^ 21)
  | 2 => some (va / 2 ^ 30 * 2 ^ 30, 2 ^ 30)
  | _ => none

/-- JOB_INVAL: the request is counted and queued; with 64 pending it is not yet taken -/
def execJobInval (job : Nat) (v : BitVec 64) (s : State) : Host.Outcome State Fault Refusal :=
  if s.invalBusy (.jobInval job) then .next s
  else
    let s1 := s.updJob job (fun x => { x with invReq := x.invReq + 1 })
    .next { s1 with invalidations := s1.invalidations ++ [{ job := job, v := v }] }

/-- INVALIDATION_COMPLETE: the oldest request drops its entries, and completes once the accesses that had used them then
have been performed -/
def execInvalidationComplete (s : State) : Host.Outcome State Fault Refusal :=
  match s.invalidations with
  | [] => .next s
  | i :: t =>
    let r := invalRange i.v
    let s1 := if i.dropped then s else s.dropLeaves i.job r
    let waits := if i.dropped then i.waits else s.accessesIn i.job r
    if waits.any s1.inFlight then .next { s1 with invalidations := { i with dropped := true, waits := waits } :: t }
    else .next ({ s1 with invalidations := t }.updJob i.job (fun x => { x with invDone := x.invDone + 1 }))

/-! ## Registration (18 R334) -/

/-- 18 Table 18.8: the command completes with a result. -/
def State.regDone (s : State) (j result : Nat) : State :=
  s.updJob j (fun x => { x with regSeq := x.regSeq + 1, regResult := BitVec.ofNat 8 result })

/-- The job whose block a command came from. -/
def commandJob : Instr → Option Nat
  | .registerRegion j _ => some j
  | .dropRegion j _ => some j
  | .registerWindow j _ => some j
  | .dropWindow j _ => some j
  | .registerTieredRange j _ => some j
  | .dropTieredRange j _ => some j
  | _ => none
/-- The command waits for a back-invalidation response (19 R341, log 78). -/
def State.putOff (s : State) (i : Instr) : State := { s with later := s.later ++ [i] }

/-- A command meets a line that the host may hold: it waits, and ends with result 1 where the snoop fails (log 94). -/
def State.waitLine (s : State) (j : Nat) (i : Instr) : State := if s.snoopLost then (s.regDone j 1).settled else s.putOff i

/-- What a command does with the 128 bytes of its descriptor, which lies in the HBM of the job's partition. It waits behind
an earlier command of the job that waits, and for lines that the host may hold; bytes that are poisoned or lie in a
retired frame are no descriptor (log 88). -/
def State.withDescriptor (s : State) (j desc : Nat) (i : Instr) (f : List Byte → State) : State :=
  let p := (s.job j).part.toNat
  if s.later.any (fun x => decide (commandJob x = some j)) then s.putOff i
  else if !(s.inHbm p desc && s.inHbm p (desc + 127)) then s.regDone j 1
  else if s.snoopingRange desc 128 then s.waitLine j i
  else if s.retired desc || s.poisonedRange desc 128 then s.regDone j 1
  else f (s.readBytes desc 128)

/-- A run of n bytes in the HBM of a partition. -/
def State.runInHbm (s : State) (p a n : Nat) : Bool := s.inHbm p a && (n = 0 || s.inHbm p (a + n - 1))

def Job.meetsRegion (j : Job) (a n : Nat) : Bool := j.regions.any (fun r => rangesMeet a n r.base r.size)
def Job.meetsTiered (j : Job) (a n : Nat) : Bool := j.tiered.any (fun t => rangesMeet a n t.base t.size)

/-- The pages of a virtual range, and the leaf of each. -/
def pagesOf (base size : Nat) : List Nat := (List.range (size / 65536)).map (fun i => base + 65536 * i)
def State.leafOf (s : State) (j va : Nat) : Option Leaf :=
  match s.walk j (BitVec.ofNat 64 va) with
  | .ok (l, _) => some l
  | .error _ => none
/-- A page's walk meets a line that the host may hold: it waits, or its snoop has failed. -/
def State.walksWait (s : State) (j base size : Nat) : Bool :=
  (pagesOf base size).any (fun va =>
    match s.walk j (BitVec.ofNat 64 va) with
    | .ok _ => false
    | .error f => decide (f.cause = Cause.later) || decide (f.cause = Cause.linkLost))
def Leaf.physical (l : Leaf) (va : Nat) : Nat := l.pa + va % 2 ^ l.bits

/-- 12 R248: a base and a size of a virtual range. -/
def rangeOk (base size : Nat) : Bool :=
  decide (base % 65536 = 0) && decide (size % 65536 = 0) && decide (0 < size) && decide (size ≤ 2 ^ 40) &&
    decide (base + size ≤ 2 ^ 56)

/-- 12 Table 12.7; 19 R340: a region's descriptor is well formed. -/
def State.regionOk (s : State) (j : Nat) (l : List Byte) : Bool :=
  let base := fieldAt l 0 8
  let size := fieldAt l 8 8
  let span := fieldAt l 16 8
  rangeOk base size && decide (2 ^ 8 ≤ span) && decide (span ≤ 2 ^ 47) &&
    s.runInHbm (s.job j).part.toNat (fieldAt l 24 8) (128 * fieldAt l 32 8) && decide (fieldAt l 40 24 = 0) &&
    !((pagesOf base size).any (fun va => (s.leafOf j va).any (fun f => decide (s.place (f.physical va) = .host))))

/-- REGISTER_REGION (12 R248) -/
def execRegisterRegion (job desc : Nat) (s : State) : Host.Outcome State Fault Refusal :=
  .next (s.withDescriptor job desc (.registerRegion job desc) (fun l =>
    let x := s.job job
    let base := fieldAt l 0 8
    let size := fieldAt l 8 8
    if rangeOk base size && s.walksWait job base size then s.waitLine job (.registerRegion job desc)
    else if s.regionOk job l = false then s.regDone job 1
    else if x.meetsRegion base size || x.meetsTiered base size then s.regDone job 2
    else if 64 ≤ x.regions.length then s.regDone job 3
    else
      let r : Region := { base := base, size := size, span := fieldAt l 16 8, pool := fieldAt l 24 8,
                          poolSize := fieldAt l 32 8 }
      (s.updJob job (fun y => { y with regions := y.regions ++ [r] })).regDone job 0))

/-- 12 Table 12.2: a window as its descriptor gives it. -/
def parseWindow (job : Nat) (l : List Byte) : Window :=
  { base := fieldAt l 0 8, elements := fieldAt l 8 4, op := fieldAt l 12 1, size := fieldAt l 13 1
    wid := fieldAt l 14 2, status := fieldAt l 16 8, loss := fieldAt l 24 8
    members := (List.range 576).filter (fun d => Nat.testBit (fieldAt l 32 72) d), job := job }
def Window.span (w : Window) : Nat := w.elements * w.width

/-- 12 R244, Table 12.2, Table 12.3: a descriptor that a device accepts; a window homed here lies in its partition's HBM with
all that its rounds write (00 R4; log 99). -/
def State.windowOk (s : State) (p : Nat) (w : Window) (l : List Byte) : Bool :=
  let home := deviceOf w.base
  decide (fieldAt l 104 24 = 0) && decide (w.base % 128 = 0) && decide (1 ≤ w.elements) && decide (w.elements ≤ 2 ^ 24) &&
    decide (w.op ≤ 10) && (decide (w.size = 2) || (decide (w.size = 3) && !([1, 6, 7].contains w.op))) &&
    decide (w.wid ≤ 4095) && decide (w.status % 8 = 0) && decide (w.loss % 128 = 0) && decide (2 ≤ w.members.length) &&
    decide (home < 576) && decide (deviceOf w.status = home) && decide (deviceOf w.loss = home) &&
    decide (w.base < 2 ^ 52) && decide (localOf w.base + w.span ≤ 2 ^ 39) &&
    (decide (home ≠ s.difIndex.toNat) ||
      (s.runInHbm p w.base w.span && s.runInHbm p w.status (8 * w.elements) && s.runInHbm p w.loss 128))

/-- 12 R244, 15 R307: the range overlaps another window, a versioned region or a tiered range. -/
def State.windowMeets (s : State) (p : Nat) (w : Window) : Bool :=
  s.parts.any (fun e => e.2.windows.any (fun v => rangesMeet w.base w.span v.base v.span)) ||
    (s.part p).windows.any (fun v => decide (v.wid = w.wid)) ||
    s.jobs.any (fun e =>
      e.2.regions.any (fun r => (pagesOf r.base r.size).any (fun va =>
        (s.leafOf e.1 va).any (fun f => rangesMeet (f.physical va) 65536 w.base w.span))) ||
      e.2.tiered.any (fun t => rangesMeet t.pool (65536 * t.frames) w.base w.span))

/-- The walks that find where a window meets versioned regions, and its status words, wait for lines that the host may
hold (19 R341). -/
def State.windowWaits (s : State) (w : Window) : Bool :=
  s.jobs.any (fun e => e.2.regions.any (fun r => s.walksWait e.1 r.base r.size)) ||
    (decide (deviceOf w.base = s.difIndex.toNat) && s.snoopingRange w.status (8 * w.elements))

/-- REGISTER_WINDOW (12 R244, R247): the home's status words read zero -/
def execRegisterWindow (job desc : Nat) (s : State) : Host.Outcome State Fault Refusal :=
  .next (s.withDescriptor job desc (.registerWindow job desc) (fun l =>
    let p := (s.job job).part.toNat
    let w := parseWindow job l
    if s.windowOk p w l = false then s.regDone job 1
    else if s.windowWaits w then s.waitLine job (.registerWindow job desc)
    else if s.windowMeets p w then s.regDone job 2
    else if 64 ≤ (s.part p).windows.length then s.regDone job 3
    else
      let s1 := s.updPart p (fun x => { x with windows := x.windows ++ [w] })
      let s2 :=
        if deviceOf w.base = s.difIndex.toNat then
          { s1 with mem := Memory.clear s1.mem (s1.key w.status) (s1.key w.status + 8 * w.elements) }
        else s1
      s2.regDone job 0))

/-- 18 Table 18.9: a tiered range as its descriptor gives it. -/
def parseTiered (l : List Byte) : Tiered :=
  { base := fieldAt l 0 8, size := fieldAt l 8 8, low := fieldAt l 16 8, pool := fieldAt l 24 8,
    frames := fieldAt l 32 4, policy := fieldAt l 36 1 }
def State.tieredOk (s : State) (j : Nat) (t : Tiered) (l : List Byte) : Bool :=
  rangeOk t.base t.size && decide (t.low % 65536 = 0) && decide (s.place t.low = .host) &&
    decide (s.place (t.low + t.size - 1) = .host) && decide (t.pool % 65536 = 0) && decide (1 ≤ t.frames) &&
    decide (t.frames ≤ 2 ^ 24) && s.runInHbm (s.job j).part.toNat t.pool (65536 * t.frames) && decide (t.policy ≤ 1) &&
    decide (fieldAt l 37 91 = 0) &&
    (pagesOf t.base t.size).all (fun va => (s.leafOf j va).any (fun f => decide (f.bits = 16)))
/-- 15 R307. -/
def State.tieredMeets (s : State) (j : Nat) (t : Tiered) : Bool :=
  (s.job j).meetsRegion t.base t.size || (s.job j).meetsTiered t.base t.size ||
    s.parts.any (fun e => e.2.windows.any (fun w => rangesMeet t.pool (65536 * t.frames) w.base w.span))

/-- REGISTER_TIERED_RANGE (15 R307; 18 R334): every pallet starts low -/
def execRegisterTieredRange (job desc : Nat) (s : State) : Host.Outcome State Fault Refusal :=
  .next (s.withDescriptor job desc (.registerTieredRange job desc) (fun l =>
    let t := parseTiered l
    if rangeOk t.base t.size && s.walksWait job t.base t.size then s.waitLine job (.registerTieredRange job desc)
    else if s.tieredOk job t l = false then s.regDone job 1
    else if s.tieredMeets job t then s.regDone job 2
    else
      let s1 := (pagesOf t.base t.size).foldl (fun x va => x.mapPage job va (t.low + (va - t.base))) s
      (s1.updJob job (fun y => { y with tiered := y.tiered ++ [t] })).regDone job 0))

/-! ## Dropping (18 R334) -/

/-- A partition's state on a core, running or swapped out. -/
def State.ownersOn (s : State) (p g : Nat) : List Owner :=
  let h := s.partHold p g
  if h.part = some p then
    (h.ctxs.filter (fun c => c.2.resident)).map (fun c => c.2.owner) ++ h.queue.map (fun l => l.owner)
  else []
/-- The owners of the tasks of a partition that are resident or queued. -/
def State.partTasks (s : State) (p : Nat) : List Owner := (s.partCores p).flatMap (s.ownersOn p)
/-- 18 R327, R334: some task of the job is resident or queued. -/
def State.jobBusy (s : State) (j : Nat) : Bool :=
  (s.partTasks (s.job j).part.toNat).any (fun o => !o.boot && decide (o.job = j))

/-- A drop command: busy, unknown, or the base it names and the change. -/
def State.dropBy (s : State) (job desc : Nat) (i : Instr) (known : Nat → Bool) (f : Nat → State) : State :=
  s.withDescriptor job desc i (fun l =>
    let base := fieldAt l 0 8
    if s.jobBusy job then s.regDone job 4
    else if known base then (f base).regDone job 0
    else s.regDone job 1)

/-- DROP_REGION -/
def execDropRegion (job desc : Nat) (s : State) : Host.Outcome State Fault Refusal :=
  .next (s.dropBy job desc (.dropRegion job desc) (fun b => (s.job job).regions.any (fun r => decide (r.base = b)))
    (fun b => s.updJob job (fun x => { x with regions := x.regions.filter (fun r => !decide (r.base = b)) })))

/-- DROP_WINDOW -/
def execDropWindow (job desc : Nat) (s : State) : Host.Outcome State Fault Refusal :=
  let p := (s.job job).part.toNat
  .next (s.dropBy job desc (.dropWindow job desc) (fun b => (s.part p).windows.any (fun w => decide (w.base = b)))
    (fun b => s.updPart p (fun x => { x with windows := x.windows.filter (fun w => !decide (w.base = b)) })))

/-- DROP_TIERED_RANGE: requests queued for its pallets leave with it -/
def execDropTieredRange (job desc : Nat) (s : State) : Host.Outcome State Fault Refusal :=
  let p := (s.job job).part.toNat
  .next (s.dropBy job desc (.dropTieredRange job desc) (fun b => (s.job job).tiered.any (fun t => decide (t.base = b)))
    (fun b =>
      let inIt (va : Nat) : Bool :=
        (s.job job).tiered.any (fun t => decide (t.base = b) && decide (t.base ≤ va) && decide (va < t.base + t.size))
      (s.updJob job (fun x => { x with tiered := x.tiered.filter (fun t => !decide (t.base = b)) })).updPart p
        (fun x => { x with moves := x.moves.filter (fun m => !(decide (m.job = job) && inIt m.va)) })))

/-! ## Attestation (19 R347, R348, R350) -/

def word8 (v : Word) : List Byte := toBytes 8 v.toNat

/-- The registers that the report's config digest covers, in order. -/
def State.configBytes (s : State) (p : Nat) : List Byte :=
  let x := s.part p
  word8 (s.partCtl p) ++ word8 x.clusters ++ word8 x.hbmWord ++ word8 x.bulkWord ++ word8 (zext x.progmon) ++
    (List.range 7).flatMap (fun k => word8 (zext (x.budget k))) ++ word8 (zext (s.ptags.get 0 p)) ++
    ((List.range 64).filter (fun e => decide ((s.exports.get {} e).tag = (s.ptags.get 0 p).setWidth 16))).flatMap
      (fun e => word8 (s.exports.get {} e).word)

/-- 19 Table 19.5, bytes 0 to 1,023. -/
def State.reportBody (s : State) (j : Nat) (nonce : List Byte) : List Byte :=
  let p := (s.job j).part.toNat
  padTo 1024
    ([0x51, 0x41, 0x54, 0x52] ++ toBytes 2 1 ++ toBytes 2 s.sec.stages ++ nonce ++ toBytes 2 s.difIndex.toNat ++
      toBytes 1 p ++ toBytes 1 j ++ toBytes 4 0 ++ padTo 512 (s.sec.chain.flatten) ++ shake256 (s.configBytes p) ++
      (List.range 7).flatMap (fun k => word8 (zext ((s.part p).budget k))))

/-- The whole report: the signature over the digest of the body. -/
def State.report (s : State) (j : Nat) (nonce : List Byte) : List Byte :=
  let body := s.reportBody j nonce
  let d := shake256 body
  body ++ (List.range 1280).map (Config.signatureByte d)

def State.attDone (s : State) (j result : Nat) : State :=
  s.updJob j (fun x => { x with attSeq := x.attSeq + 1, attResult := BitVec.ofNat 8 result })

/-- A request of the job is pending: it waits for a back-invalidation response. -/
def attestingJob : Instr → Option Nat
  | .attestationRequest j _ => some j
  | _ => none

/-- ATTESTATION_REQUEST: served in one step, but for lines that the host may hold (log 31); a poisoned nonce is no buffer
(log 88) -/
def execAttestationRequest (job : Nat) (v : BitVec 64) (s : State) : Host.Outcome State Fault Refusal :=
  let p := (s.job job).part.toNat
  let buf := bits v.toNat 51 12 * 4096
  if s.sec.erased then .next (s.attDone job 3)
  else if s.later.any (fun x => decide (attestingJob x = some job)) then .next (s.attDone job 2)
  else if !(s.runInHbm p buf 4096) then .next (s.attDone job 1)
  else if s.snoopingRange buf 2304 then
    .next (if s.snoopLost then (s.attDone job 1).settled else s.putOff (.attestationRequest job v))
  else if s.retired buf || s.poisonedRange buf 64 then .next (s.attDone job 1)
  else .next ((s.storeBytes buf (s.report job (s.readBytes buf 64))).attDone job 0)

end Sys2Proof.Machine
end

