-- ==== Sys2Proof/Machine/Partitions.lean ====
section
/-! DEFINITION. Partitions and jobs as the management function changes them (18 R324 to R328; 19 R343, R346), register
writes (00 R8), the recovery block's commands (21 R365, R367, R371 to R373) and the progress monitor (13 R258). -/
namespace Sys2Proof.Machine

/-! ## Enabling (18 R327) -/

def sharesCluster (a b : Part) : Bool := decide (a.clusters &&& b.clusters ≠ 0)
/-- The enabled partitions other than n. -/
def State.others (s : State) (n : Nat) : List (Nat × Part) := s.parts.filter (fun e => e.2.en && decide (e.1 ≠ n))

/-- Table 18.5: the capacity of each budgeted resource. -/
def capacities : List Nat := [960, 1024, 512, 512, 240, 1024, 896]
/-- The refresh budget is counted per core over its holders; every other over every enabled partition. -/
def State.budgetOk (s : State) (n k : Nat) : Bool :=
  let p := s.part n
  let sum (l : List (Nat × Part)) : Nat := l.foldl (fun a e => a + (e.2.budget k).toNat) (p.budget k).toNat
  decide (p.budget k ≠ 0) &&
    (if k = 5 then (clustersIn p.clusters).all (fun c =>
        decide (sum ((s.others n).filter (fun e => e.2.clusters.getLsbD c)) ≤ 1024))
     else decide (sum (s.others n) ≤ capacities.getD k 0))

/-- Two enabled jobs that may not name one host function. -/
def State.funcClash (s : State) : Bool :=
  let js := s.jobs.filter (fun e => e.2.en && e.2.fv)
  js.any (fun a => js.any (fun b =>
    decide (a.1 < b.1) && decide (a.2.func = b.2.func) &&
      (decide (a.2.part = b.2.part) ||
        ((s.part a.2.part.toNat).en && (s.part b.2.part.toNat).en &&
          sharesCluster (s.part a.2.part.toNat) (s.part b.2.part.toNat)))))

/-- 18 R327, 24 R396: the configuration may be enabled. -/
def State.canEnable (s : State) (n : Nat) : Bool :=
  let p := s.part n
  decide (s.sec.stage = 5) && decide (p.clusters ≠ 0) &&
    (clustersIn p.clusters).all (fun c => decide (((s.others n).filter (fun e => e.2.clusters.getLsbD c)).length < 2)) &&
    decide (1 ≤ p.hbmCount.toNat) && decide (p.hbmBase.toNat + p.hbmCount.toNat ≤ 512) &&
    decide (p.bulkBase.toNat + p.groups ≤ 512) &&
    (s.others n).all (fun e =>
      !(rangesMeet p.hbmBase.toNat p.hbmCount.toNat e.2.hbmBase.toNat e.2.hbmCount.toNat) &&
        !(sharesCluster p e.2 && rangesMeet p.bulkBase.toNat p.groups e.2.bulkBase.toNat e.2.groups)) &&
    (List.range 7).all (s.budgetOk n) && !((s.updPart n (fun x => { x with en := true })).funcClash)

/-- 18 R324: no other partition runs on a cluster of n. -/
def State.mayRun (s : State) (n : Nat) : Bool :=
  (s.others n).all (fun e => !(decide (e.2.state = 1) && sharesCluster (s.part n) e.2))

/-- The core's meters as its running holder leaves them, and as an incoming one finds its own (18 R322; log 98). -/
def Core.meters (c : Core) : Meters :=
  { current := c.current, period := c.period, quotas := c.quotas, iperiod := c.iperiod, iquota := c.iquota, used := c.used,
    window := c.window, curlim := c.curlim, freezeLimiter := c.freezeLimiter, freezeTransition := c.freezeTransition,
    mgov := c.mgov, mgstall := c.mgstall, bed := c.bed }
def Core.withMeters (c : Core) (m : Meters) : Core :=
  { c with current := m.current, period := m.period, quotas := m.quotas, iperiod := m.iperiod, iquota := m.iquota
           used := m.used, window := m.window, curlim := m.curlim, freezeLimiter := m.freezeLimiter
           freezeTransition := m.freezeTransition, mgov := m.mgov, mgstall := m.mgstall, bed := m.bed }
/-- One holder comes to run where another ran, which keeps its meters. -/
def Core.changeHolder (c : Core) (new old : Hold) : Core :=
  { c.withMeters new.meters with cur := new, out := { old with meters := c.meters } }

/-- A new holder's place on a core: beside the other holder, if there is one. -/
def Core.takeHolder (c : Core) (n : Nat) (run : Bool) : Core :=
  if c.cur.part = none then { c with cur := { c.cur with part := some n, halting := !run } }
  else
    let new : Hold := { part := some n, halting := !run }
    if run then c.changeHolder new c.cur else { c with out := new }

/-- The HBM of a partition, which a fresh key pair leaves unreadable (19 R346), and the poison of no block. -/
def State.forgetHbm (s : State) (p : Part) : State :=
  { s with mem := Memory.clear s.mem (p.hbmBase.toNat * 2 ^ 30) ((p.hbmBase.toNat + p.hbmCount.toNat) * 2 ^ 30) }

/-- 18 R324: when a second holder joins, the first keeps its share of the entries of the TLBs of the clusters they share. -/
def Cluster.cutTlb (c : Cluster) (n share : Nat) : Cluster :=
  { c with tlb := (c.tlb.filter (fun l => decide (l.part ≠ n))).take share }
def State.cutTlbs (s : State) (n : Nat) : State :=
  (clustersIn (s.part n).clusters).foldl (fun x c => x.setCluster c ((x.cluster c).cutTlb n (x.tlbShare c))) s

/-- PARTITION_ENABLE (18 R327, 19 R346) -/
def execPartitionEnable (part : Nat) (s : State) : Host.Outcome State Fault Refusal :=
  if (s.part part).en then .next s
  else if s.canEnable part = false then .next (s.updPart part (fun x => { x with rej := true }))
  else
    let run := s.mayRun part
    let s1 := (s.forgetHbm (s.part part)).updPart part (fun x =>
      { x with en := true, state := if run then 1 else 2, eventNo := 0, keyGen := x.keyGen + 1, keyLive := true })
    .next ((s1.partCores part).foldl (fun x g => (x.updCore g (fun c => c.takeHolder part run)).opChanged g) (s1.cutTlbs part))

/-! ## Running and swapping (18 R324; 21 R371 to R373) -/

/-- A partition comes to run on one core: its state is restored if it was swapped out there. -/
def Core.resume (c : Core) (n : Nat) : Core :=
  if c.cur.part = some n then { c with cur := { c.cur with halting := false, halted := false } }
  else if c.out.part = some n then
    c.changeHolder { c.out with halting := false, halted := false, restoring := true } c.cur
  else c

def State.resumePart (s : State) (n : Nat) : State :=
  (s.partCores n).foldl (fun x g => (x.updCore g (fun c => c.resume n)).opChanged g)
    (s.updPart n (fun x => { x with state := 1 }))

/-- 21 R371 step 4: the other holders of a partition's clusters that no running partition stands against. -/
def State.resumeOthers (s : State) (n : Nat) : State :=
  ((s.others n).filter (fun e => decide (e.2.state = 2) && sharesCluster (s.part n) e.2)).foldl
    (fun x e => if x.mayRun e.1 then x.resumePart e.1 else x) s

def State.commandDone (s : State) (n : Nat) : State :=
  s.updPart n (fun x => { x with cmdBusy := false, cmdDone := x.cmdDone + 1 })

/-- SWAP_OUT (21 R371): issue stops on every core of a running partition; otherwise the command completes. -/
def execSwapOut (part : Nat) (s : State) : Host.Outcome State Fault Refusal :=
  if (s.part part).state ≠ 1 then .next (s.commandDone part)
  else
    .next ((s.partCores part).foldl (fun x g => x.updHold g (fun h => { h with halting := true, halted := false }))
      (s.updPart part (fun x => { x with cmdBusy := true })))

/-- 21 R371 step 1: every access of the core has its response or has been performed, and so has every access of other
cores to its rows. -/
def State.quiet (s : State) (g : Nat) : Bool :=
  (s.hold g).ctxs.all (fun e => !e.2.resident || (e.2.loadQ.isEmpty && e.2.storeQ.isEmpty && e.2.remoteQ.isEmpty)) &&
    s.cores.all (fun e => e.2.cur.ctxs.all (fun c => c.2.remoteQ.all (fun r => decide (r.home ≠ g))))

/-- Step 2: the groups of expire classes are invalidated and counted. -/
def State.expireGroups (s : State) (g : Nat) : State :=
  let b := Hold.bulk s (s.hold g)
  ((List.range b.2).map (fun i => b.1 + i)).foldl (fun x p =>
    if ((x.hold g).cls ((x.core g).groups.get {} p).cls).2 then x
    else (x.updCore g (fun c => c.invalidateGroup p)).updHold g (fun h => h.countExpiry false)) s

/-- Step 3: the holder has halted, and changes places with the other. -/
def Core.exchange (c : Core) : Core :=
  let mine := { c.cur with halted := true }
  if c.out.part = none then { c with cur := mine }
  else c.changeHolder { c.out with restoring := true } mine

/-- 21 Table 21.6: the core's save slot. -/
def State.saveSlot (s : State) (n g : Nat) : Nat :=
  (s.part n).mSave.toNat + 524288 * ((s.partCores n).filter (fun k => decide (k < g))).length
/-- The save slot holds lines that the host may hold, and their snoops have not failed (19 R341, log 94). -/
def State.saveWaits (s : State) (n g : Nat) : Bool := s.snoopingRange (s.saveSlot n g) 524288 && !s.snoopLost
/-- Step 3: the engine state goes to the core's save slot, whose layout the spec does not give: the bytes are open, and a
slot outside the partition's HBM is not written (log 89), nor one whose snoop failed (log 94). -/
def State.saveEngines (s : State) (n g : Nat) : State :=
  let slot := s.saveSlot n g
  if s.snoopingRange slot 524288 then s.settled
  else if s.runInHbm n slot 524288 then
    let d := s.freshFree
    ({ d.2 with mem := Memory.putRun d.2.mem (d.2.key slot) ((List.range 524288).map (Config.freeByte d.1)) } : State).cleanPoison
      slot 524288
  else s

/-- A partition's state on every core has halted. -/
def State.allHalted (s : State) (n : Nat) : Bool := (s.partCores n).all (fun g => (s.partHold n g).halted)

/-- CORE_HALTED (21 R371): the last core's halt ends the swap, and the other holders resume. -/
def execCoreHalted (core : Nat) (s : State) : Host.Outcome State Fault Refusal :=
  let h := s.hold core
  match h.part with
  | none => .next s
  | some n =>
    if h.halting && !h.halted && (s.part n).cmdBusy && decide ((s.part n).state = 1) && s.quiet core && !(s.saveWaits n core) then
      let s1 := (((s.expireGroups core).saveEngines n core).updCore core Core.exchange).opChanged core
      if s1.allHalted n then
        .next (((s1.updPart n (fun x => { x with state := 2 })).commandDone n).resumeOthers n)
      else .next s1
    else .next s

/-- ENGINE_RESTORE_COMPLETE (21 R372): the engine instructions that waited may issue. -/
def execEngineRestoreComplete (core : Nat) (s : State) : Host.Outcome State Fault Refusal :=
  .next ((s.updHold core (fun h => { h with restoring := false })).wake core)

/-- KILL_JOB (21 R365): the command completes with the loss's report; one that names no enabled job of the partition, or
one already being lost, completes at once. -/
def execKillJob (part job : Nat) (s : State) : Host.Outcome State Fault Refusal :=
  let j := s.job job
  if j.en && decide (j.part.toNat = part) && (s.part part).en && !j.losing then
    .next ((s.updPart part (fun x => { x with cmdBusy := true })).loseJob part job Cause.killed 0 {})
  else .next (s.commandDone part)

/-- LOSS_REPORT (21 R366 step 7): a loss whose contexts have drained by now goes on before it -/
def execLossReport (part : Nat) (s : State) : Host.Outcome State Fault Refusal := .next ((s.finishLosses part).reportLoss part)

/-- PROGRESS_MONITOR_EXPIRY (13 R258; 21 R368, R371): not while the partition is swapped out; then it waits for the next
issue. -/
def execProgressMonitorExpiry (part : Nat) (s : State) : Host.Outcome State Fault Refusal :=
  let p := s.part part
  if p.en && decide (p.state = 1) && decide (p.progmon ≠ 0) && !p.idleReported then
    .next ((s.updPart part (fun x => { x with idleReported := true })).ownerEvent part 3 65 0 0)
  else .next s

/-! ## Disabling (18 R327; 19 R343, R346) -/

/-- A holder that is disabled leaves the core, and so do its counts (18 R322; log 98); the last OPPT of a context of the core
stands (15 R301). -/
def Core.expel (c : Core) (n : Nat) : Core :=
  if c.cur.part = some n then
    { c with cur := { opReq := c.cur.opReq }, used := [], window := [], freezeLimiter := 0, freezeTransition := 0, mgstall := 0
             bed := [] }
  else if c.out.part = some n then { c with out := {} } else c

/-- The partition's row groups are discarded. -/
def Core.dropGroups (c : Core) (b : Nat × Nat) : Core :=
  ((List.range b.2).map (fun i => b.1 + i)).foldl (fun x p =>
    { x.invalidateGroup p with groups := (x.invalidateGroup p).groups.drop p }) c

/-- The exporter of an entry: the enabled partition whose HBM holds it (19 R343). -/
def State.exporter (s : State) (e : Export) : Option Nat :=
  (s.parts.find? (fun p => p.2.en && decide (1 ≤ e.count.toNat) && decide (p.2.hbmBase.toNat ≤ e.base.toNat) &&
    decide (e.base.toNat + e.count.toNat ≤ p.2.hbmBase.toNat + p.2.hbmCount.toNat))).map (fun p => p.1)

/-- The partition leaves its cores, its groups, keys, exports, translations and windows with it; the partition it shared a
cluster with may come to run. -/
def State.disablePart (s : State) (n : Nat) : State :=
  let p := s.part n
  let s1 := (s.partCores n).foldl (fun x g =>
    (x.updCore g (fun c => (c.expel n).dropGroups (p.bulkBase.toNat, p.groups))).opChanged g) s
  let s2 : State := { s1.forgetHbm p with
    exports := s.exports.map (fun e => if s.exporter e.2 = some n then (e.1, { e.2 with v := false }) else e)
    transfers := s.transfers.filter (fun t => !decide (t.part = some n))
    clusters := s1.clusters.map (fun c =>
      (c.1, { c.2 with tlb := c.2.tlb.filter (fun l => !decide (l.part = n)) }))
    walks := s1.walks.drop n
    jobs := s1.jobs.map (fun e => if e.2.part.toNat = n then (e.1, { e.2 with losing := false }) else e)
    later := s.later.filter (fun i => !((commandJob i).any (fun j => decide ((s.job j).part.toNat = n)))) }
  let s3 := s2.setPart n { p with en := false, state := 0, keyLive := false, windows := [], moves := [], losses := [] }
  s3.resumeOthers n

/-- PARTITION_DISABLE (18 R327) -/
def execPartitionDisable (part : Nat) (s : State) : Host.Outcome State Fault Refusal :=
  if (s.part part).en = false then .next s
  else if (s.partTasks part).isEmpty then .next (s.disablePart part)
  else .next (s.updPart part (fun x => { x with rej := true }))

/-! ## Jobs (18 R327) -/

/-- JOB.CTL's fields written. -/
def Job.withCtl (j : Job) (v : Word) : Job :=
  { j with fv := v.getLsbD 24, func := fld v 16 8, en := v.getLsbD 8, part := fld v 0 6 }

/-- JOB_CTL_WRITE -/
def execJobCtlWrite (job : Nat) (root : Bool) (v : BitVec 64) (s : State) : Host.Outcome State Fault Refusal :=
  let j := s.job job
  if j.en || s.jobBusy job then .next (s.updPart j.part.toNat (fun x => { x with rej := true }))
  else if root then .next (s.updJob job (fun x => { x with root := bits v.toNat 51 20 * 2 ^ 20 }))
  else
    let s1 := s.updJob job (fun x => x.withCtl v)
    if s1.funcClash then .next (s.updPart (fld v 0 6).toNat (fun x => { x with rej := true })) else .next s1

/-! ## Other registers -/

/-- DIF_EXPORT_WRITE (19 R343): an entry made valid lies in the HBM of one enabled partition; otherwise the partition whose
HBM holds its first GiB sees the refusal. -/
def execDifExportWrite (e : Nat) (v : BitVec 64) (s : State) : Host.Outcome State Fault Refusal :=
  let x : Export := { v := v.getLsbD 63, w := v.getLsbD 62, tag := fld v 32 16, count := fld v 16 10, base := fld v 0 9 }
  if x.v = false ∨ (s.exporter x).isSome = true then .next { s with exports := s.exports.put e x }
  else
    match s.exporter { x with count := 1 } with
    | some n => .next (s.updPart n (fun y => { y with rej := true }))
    | none => .next s

/-- Stage 5 has ended. -/
def State.booted (s : State) : Bool := decide (s.sec.stage = 5)
/-- What the host port accepts before stage 5 ends (24 R396). -/
def earlyAccess (r : RegId) (write : Bool) : Bool :=
  match r with
  | .bootStat => !write
  | .alarm => !write
  | .bootCtl => write
  | _ => false
/-- A requester's access comes before the port takes it. -/
def State.tooEarly (s : State) (who : Requester) (r : RegId) (write : Bool) : Bool :=
  match who with
  | .host _ => !(s.booted || earlyAccess r write)
  | _ => false

/-- REGISTER_WRITE (00 R8, Table 0.2): a write to a device register by a requester that may make it; any other changes
nothing. -/
def execRegisterWrite (who : Requester) (off : Nat) (v : BitVec 64) (s : State) : Host.Outcome State Fault Refusal :=
  match regAt off with
  | none => .next s
  | some r => if (s.regRefusal who r true).isSome || s.tooEarly who r true then .next s else .next (s.regWrite who r v)

end Sys2Proof.Machine
end

