-- ==== Sys2Proof/Machine/Bringup.lean ====
section
/-! DEFINITION. Channel PHYs (24 R399, R400), reset and the boot stages (24 R395 to R397), the host port's link (19
R336, R339), the alarm (19 R349, R350), temperature readings (08 R178; 15 R305) and the package trip (15 R306). -/
namespace Sys2Proof.Machine

/-! ## PHY tests (24 R399, R400) -/

/-- A PHY.TEST write: the test starts, is held until the running one ends, or is ignored. -/
def Phy.test (p : Phy) (kind : Nat) : Phy :=
  match p.running, p.held with
  | none, _ => { p with running := some kind }
  | some _, none => { p with held := some kind }
  | some _, some _ => p

/-- PHY_READ_TEST -/
def execPhyReadTest (ch : Nat) (s : State) : Host.Outcome State Fault Refusal := .next (s.setPhy ch ((s.phy ch).test 1))
/-- PHY_WRITE_TEST -/
def execPhyWriteTest (ch : Nat) (s : State) : Host.Outcome State Fault Refusal := .next (s.setPhy ch ((s.phy ch).test 2))
/-- PHY_CONFIRM_TEST -/
def execPhyConfirmTest (ch : Nat) (s : State) : Host.Outcome State Fault Refusal := .next (s.setPhy ch ((s.phy ch).test 3))

/-- A v bit set with its lane outside the spare's half. -/
def badRepair (v : Word) : Bool :=
  (v.getLsbD 15 && decide ((fld v 8 6).toNat < 32)) || (v.getLsbD 7 && decide (31 < (fld v 0 6).toNat))

/-- One write in force. -/
def Phy.apply (p : Phy) : PhyWrite → Phy
  | .repair v =>
    if badRepair v then p
    else
      let r := fld (v &&& 0xBFBF#64) 0 16
      { p with repair := r, sent := if r = p.repair then p.sent else r }
  | .lane n v => { p with lanes := p.lanes.put n (v &&& 0x3F3F#64) }

/-- A write during a test waits for its end. -/
def Phy.write (p : Phy) (w : PhyWrite) : Phy :=
  match p.running with
  | none => p.apply w
  | some _ => { p with deferred := p.deferred ++ [w] }

/-- PHY_REPAIR_WRITE -/
def execPhyRepairWrite (ch : Nat) (v : BitVec 64) (s : State) : Host.Outcome State Fault Refusal :=
  .next (s.setPhy ch ((s.phy ch).write (.repair v)))

/-- PHY_LANE_WRITE -/
def execPhyLaneWrite (ch lane : Nat) (v : BitVec 64) (s : State) : Host.Outcome State Fault Refusal :=
  .next (s.setPhy ch ((s.phy ch).write (.lane lane v)))

/-- The end of a test: its pass bits and the count, the deferred writes, then the held test. -/
def Phy.finish (p : Phy) (kind : Nat) (pass : BitVec 66) : Phy :=
  let p1 := { p with pass0 := fld pass 0 64, pass1 := if kind = 3 then 0 else fld pass 64 2, done := p.done + 1,
                     running := none, deferred := [] }
  { p.deferred.foldl Phy.apply p1 with running := p.held, held := none }

/-- The bursts of a confirm test, n of them: blocks of the channel and contents that the spec leaves open. -/
def State.confirmBursts (ch draw : Nat) : Nat → State → State
  | 0, s => s
  | n + 1, s =>
    let b := Config.confirmBlock ch draw n % 2 ^ 33
    State.confirmBursts ch draw n
      (if Config.channelOf b = ch then
        s.writeBytes (s.difIndex.toNat * 2 ^ 42 + 64 * b) ((List.range 64).map (fun i => Config.freeByte draw (64 * n + i)))
       else s)

/-- PHY_TEST_COMPLETE: the lanes that pass are the channel's answer. -/
def execPhyTestComplete (ch : Nat) (pass : BitVec 66) (s : State) : Host.Outcome State Fault Refusal :=
  let p := s.phy ch
  match p.running with
  | none => .next s
  | some kind =>
    let s1 := s.setPhy ch (p.finish kind pass)
    if kind = 3 then
      let d := s1.freshFree
      .next (State.confirmBursts ch d.1 65536 d.2)
    else .next s1

/-! ## Reset and the boot stages (24 R395 to R397) -/

/-- What is not HBM: the host's and other devices' memory, and the boot store, which stage 3 copies from the flash
again. -/
def outsideHbm (m : List Host.Cell) : List Host.Cell := List.filter (fun c => decide (2 ^ 39 ≤ c.1)) m

/-- SHAKE256 of a stage's image: stage 2's is held here, and stage 1's lies in the boot flash. -/
def State.imageDigest (s : State) (k : Nat) : List Byte :=
  if k = 2 then shake256 s.sec.image else (List.range 64).map (Config.imageDigest k)
/-- The measurement chain's next member (19 R347). -/
def State.measure (s : State) (m : List Byte) (k : Nat) : List Byte := shake256 (m ++ s.imageDigest k)

/-- 19 R350: attestation requests that are pending at an alarm complete with result 3. -/
def State.endAttestations (s : State) : State :=
  (s.later.filterMap attestingJob).foldl (fun x j => x.attDone j 3)
    { s with later := s.later.filter (fun i => (attestingJob i).isNone) }

/-- An alarm (19 R349, R350; 24 R396): recorded; policies 1 and 2 zeroise every key, disable every partition and hold the
compute dies in reset, and policy 2 erases the identity. -/
def State.alarm (s : State) (sensor : Nat) : State :=
  let sec := { s.sec with sensors := s.sec.sensors ||| BitVec.ofNat 5 (2 ^ sensor), active := true, result := 5 }
  if s.sec.policy = 0 then { s with sec := sec }
  else
    let s1 := (s.parts.map (fun e => e.1)).foldl (fun x n => if (x.part n).en then x.disablePart n else x) s.endAttestations
    { s1 with
      cores := []
      clusters := []
      mem := outsideHbm s1.mem
      sec := { sec with keysLive := false, erased := s.sec.erased || decide (s.sec.policy = 2), diesStopped := true } }

/-- 24 R396: every register, queue and table as after reset; what the cause keeps, the fuses and a fresh device key. HBM's
contents go, and its poison bits with them (DESIGN CHOICE, log 2). The agenda is the environment's. -/
def State.restart (s : State) (cause : Nat) : State :=
  { State.reset with
    agenda := s.agenda
    freeCount := s.freeCount
    mem := outsideHbm s.mem
    seals := s.seals
    sec := { ({} : Secure) with
      policy := s.sec.policy
      erased := s.sec.erased
      flash := s.sec.flash
      modeBit := s.sec.modeBit
      image := s.sec.image
      hmode := s.sec.modeBit
      failedChecks := if cause = 0 then 0 else s.sec.failedChecks
      sensors := if cause = 0 then 0 else s.sec.sensors
      active := if cause = 0 then false else s.sec.active
      deviceKey := s.sec.deviceKey + 1
      keysLive := true
      cause := BitVec.ofNat 8 cause } }

/-- A stage checks an image n copies of which fail: each failure is counted, and the third since power-up raises the
alarm of sensor 4 (19 R347, Table 19.6). -/
def State.checkImage (s : State) (stage : BitVec 4) (n : Nat) : State :=
  let s1 := { s with sec := { s.sec with stage := stage, failedChecks := s.sec.failedChecks + n } }
  if n ≠ 0 ∧ 3 ≤ s1.sec.failedChecks then s1.alarm 4 else s1
/-- No copy of the image is good (Table 24.3): result 2, unless an alarm has set its own. -/
def State.rejectImage (s : State) : State :=
  if s.sec.result = 0 then { s with sec := { s.sec with result := 2 } } else s
/-- An image that passed is measured (19 R347). -/
def State.measured (s : State) (k : Nat) : State :=
  { s with sec := { s.sec with stages := k, chain := s.sec.chain ++ [s.measure (s.sec.chain.getLastD (List.replicate 64 0)) k] } }

/-- Failed checks of the stage-1 image: the copy is tried when the first fails. -/
def Secure.stage1Failures (c : Secure) : Nat := bit (c.flash.getLsbD 0) + bit (c.flash.getLsbD 0 && c.flash.getLsbD 1)

/-- Table 24.3, stage 4: one training task starts for each channel. -/
def State.startTraining (s : State) : State :=
  (List.range 256).foldl State.launchBoot { s with sec := { s.sec with stage := 4 } }
/-- Table 24.3, stage 3: the stage-2 image is copied into the boot store, 1 MiB (24 R397). -/
def State.loadBootStore (s : State) : State :=
  { s with mem := Memory.putRun s.mem (s.key (s.difIndex.toNat * 2 ^ 42 + 0x20007000000)) (s.sec.image.take (2 ^ 20)) }
/-- Table 24.3, stage 3: it is checked there. -/
def State.bootStage3 (s0 : State) : State :=
  let s := s0.loadBootStore
  let r := s.checkImage 3 (bit (s.sec.flash.getLsbD 2))
  if r.sec.diesStopped then r
  else if s.sec.flash.getLsbD 2 then r.rejectImage
  else (r.measured 2).startTraining
/-- Table 24.3, stages 1 to 4. -/
def State.boot (s : State) (cause : Nat) : State :=
  let s1 := s.restart cause
  let r := s1.checkImage 2 s1.sec.stage1Failures
  if r.sec.diesStopped then r
  else if s1.sec.stage1Failures = 2 then r.rejectImage
  else (r.measured 1).bootStage3

/-- POWER_UP -/
def execPowerUp (s : State) : Host.Outcome State Fault Refusal := .next (s.boot 0)
/-- PERST -/
def execPerst (s : State) : Host.Outcome State Fault Refusal := .next (s.boot 1)
/-- WARM_RESET -/
def execWarmReset (s : State) : Host.Outcome State Fault Refusal := .next (s.boot 2)

/-- BOOT_TRAINING_DONE (Table 24.3, stages 4 and 5); an alarm that policy 0 only records does not stop the boot (19 R350) -/
def execBootTrainingDone (s : State) : Host.Outcome State Fault Refusal :=
  if s.sec.stage = 4 ∧ (s.sec.result = 0 ∨ (s.sec.result = 5 ∧ s.sec.diesStopped = false)) ∧ (List.range 256).all (fun c => decide ((s.phy c).result ≠ 0)) = true then
    if s.trained = 256 then .next { s with sec := { s.sec with stage := 5, result := 1 } }
    else .next { s with sec := { s.sec with result := 3 } }
  else .next s

/-- HOST_PORT_TRAINED (19 R336; 24 Table 24.3): stage 3 starts the training, in the mode that the stage-1 image's header
names and in no other. -/
def execHostPortTrained (cxl : Bool) (s : State) : Host.Outcome State Fault Refusal :=
  .next (if cxl == s.sec.hmode && decide (3 ≤ s.sec.stage.toNat) then { s with hostUp := true } else s)

/-- HOST_PORT_LINK_DOWN (19 R339) -/
def execHostPortLinkDown (s : State) : Host.Outcome State Fault Refusal := .next { s with hostUp := false }

/-! ## Alarm and trip -/

/-- ALARM (19 R349, R350); the signature sensor raises it at the third failed check (Table 19.6) -/
def execAlarm (sensor : Nat) (s : State) : Host.Outcome State Fault Refusal :=
  .next (if sensor = 4 ∧ s.sec.failedChecks < 3 then s else s.alarm sensor)

/-- 19 Table 19.6: a die sensor's reading outside -25 to 125 degrees raises the alarm of sensor 2. -/
def State.senseDie (s : State) (milliC : Int) : State :=
  if milliC < -25000 ∨ 125000 < milliC then s.alarm 2 else s

/-- TEMPERATURE_SAMPLE -/
def execTemperatureSample (cluster : Nat) (milliC : Int) (s : State) : Host.Outcome State Fault Refusal :=
  let s1 := (s.setCluster cluster ((s.cluster cluster).sample milliC)).senseDie milliC
  .next (if bandOf milliC = 15 then s1.soon .packageTrip else s1)

/-- THERMAL_INTERVAL (15 R305) -/
def execThermalInterval (cluster : Nat) (milliC : Int) (s0 : State) : Host.Outcome State Fault Refusal :=
  let s := s0.senseDie milliC
  let c := s.cluster cluster
  let hot : Int := 1000 * c.hot.toNat
  if hot < milliC then
    if 0 < s.maxPoint cluster then .next (s.setTcap cluster (s.maxPoint cluster - 1))
    else if c.hotwait then .next s
    else
      let s1 := s.setCluster cluster { c with events := c.events + 1, hotwait := true }
      match s.runningOn cluster with
      | some p => .next (s1.ownerEvent p 4 66 0 (cluster + 256 * c.tcap.toNat))
      | none => .next s1
  else if milliC < hot - 5000 ∧ c.tcap.toNat < 7 then .next (s.setTcap cluster (c.tcap.toNat + 1))
  else .next s

/-- PACKAGE_TRIP (15 R306): the compute dies stop until the next reset, and the bulk store is lost. -/
def execPackageTrip (s : State) : Host.Outcome State Fault Refusal :=
  .next { s with
    cores := s.cores.map (fun e => (e.1, { e.2 with bulk := [], groups := [], gctlWait := [] }))
    sec := { s.sec with diesStopped := true, result := 4 } }

end Sys2Proof.Machine
end

