-- ==== Sys2Proof/Machine/Outside.lean ====
section
/-! DEFINITION. What crosses the package boundary: host accesses (19 R337, R338, R341), Difosal requests and window
contributions (19 R344; 12 R245), ports, link-state updates and timeout rounds (19 R342; 22 R386 to R389). -/
namespace Sys2Proof.Machine

/-! ## Host access rights (19 R337; 24 R396) -/

/-- Local HBM addresses a to a + n − 1 lie in the range of a partition. -/
def Part.holds (p : Part) (a n : Nat) : Bool :=
  decide (p.hbmBase.toNat * 2 ^ 30 ≤ a) && decide (a + n ≤ (p.hbmBase.toNat + p.hbmCount.toNat) * 2 ^ 30)
def Part.touches (p : Part) (a n : Nat) : Bool :=
  rangesMeet a n (p.hbmBase.toNat * 2 ^ 30) (p.hbmCount.toNat * 2 ^ 30)

/-- A committed HDM decoder maps the bytes, and its range lies in one enabled partition's HBM. -/
def State.decoded (s : State) (a n : Nat) : Bool :=
  s.sec.hmode && s.hdm.any (fun d =>
    match d.2 with
    | none => false
    | some (b, m) => decide (b ≤ a) && decide (a + n ≤ b + m) && s.parts.any (fun p => p.2.en && p.2.holds b m))

/-- A function of the host port (19 Table 19.1): no SR-IOV in CXL mode. -/
def State.hasFunc (s : State) (f : Nat) : Bool := if s.sec.hmode then decide (f < 2) else decide (f < 256)

/-- A host function reaches local HBM through BAR2; a request that comes through an HDM decoder carries no function, and
its source stands as 256 (log 90). -/
def State.hostHbm (s : State) (f a n : Nat) : Bool :=
  decide (a + n ≤ 2 ^ 39) &&
    (if f = 256 then s.decoded a n
     else s.hasFunc f &&
      (if f = 0 then s.parts.all (fun p => !(p.2.en && p.2.touches a n))
       else s.parts.any (fun p => p.2.en && s.admits p.1 f && p.2.holds a n)))

/-- The blocks a function other than function 0 reaches. -/
def computeBlock : RegId → Bool
  | .bootRec _ _ => true
  | .bootDb _ => true
  | .bootSt _ => true
  | .jobCtl _ => true
  | .jobRoot _ => true
  | .jobInval _ => true
  | .jobInvSt _ => true
  | .jobRegCmd _ => true
  | .jobRegSt _ => true
  | .attReq _ => true
  | .attSt _ => true
  | _ => false

def State.hostReg (s : State) (f : Nat) (r : RegId) (write : Bool) : Bool :=
  s.hasFunc f && (s.booted || earlyAccess r write) && (decide (f = 0) || computeBlock r) &&
    decide (s.regRefusal (.host f) r write = none)

/-- The register of an 8-byte access to a local address. -/
def regOf (a n : Nat) : Option RegId :=
  if 2 ^ 41 ≤ a ∧ a < 2 ^ 41 + 2 ^ 32 ∧ n = 8 ∧ a % 8 = 0 then regAt (a - 2 ^ 41) else none

/-! ## Host accesses -/

/-- A host write of HBM: clean data clears the poison of whole blocks, and poisoned data sets it (08 R403). -/
def State.hostStore (s : State) (a : Nat) (data : List Byte) (poison : Bool) : State :=
  if poison then (blocksOf a data.length).foldl (fun x b => x.setPoison (x.physical (64 * b))) (s.writeBytes (s.physical a) data)
  else s.storeBytes (s.physical a) data

/-- A refused write in a partition's range sets its rej bit: an enabled partition's, where the range is one's. -/
def State.hostRefuse (s : State) (a n : Nat) : State :=
  let within (p : Nat × Part) : Bool := p.2.touches a n && decide (a + n ≤ 2 ^ 39)
  match (s.parts.find? (fun p => p.2.en && within p)).or (s.parts.find? within) with
  | some p => s.updPart p.1 (fun x => { x with rej := true })
  | none => s

/-- HOST_POSTED_WRITE (19 R337, R338); a JOB.INVAL write is taken once a request has completed (18 R333) -/
def execHostPostedWrite (func addr : Nat) (data : List (BitVec 8)) (poison : Bool) (s : State) :
    Host.Outcome State Fault Refusal :=
  if !s.hostUp || data.isEmpty then .next s
  else
    match regOf addr data.length with
    | some r =>
      .next (if s.hostReg func r true && !(s.invalBusy r) then s.regWrite (.host func) r (BitVec.ofNat 64 (leNat data)) else s)
    | none =>
      if s.booted && s.hostHbm func addr data.length && !(s.retiredRun addr data.length) then
        .next (s.hostStore addr data poison)
      else .next (s.hostRefuse addr data.length)

def State.reply (s : State) (f : Nat) (data : Option (List Byte)) (poison : Bool) : State :=
  { s with replies := s.replies ++ [⟨f, data, poison⟩] }

/-- A completion marked poisoned: its bytes are unspecified. -/
def State.poisonedReply (s : State) (f n : Nat) : State :=
  let d := s.freshFree
  d.2.reply f (some ((List.range n).map (Config.freeByte d.1))) true

/-- In CXL mode the host caches the lines it reads through a decoder (19 R341). -/
def State.hostCaches (s : State) (f a n : Nat) : State :=
  if f = 256 then
    { s with hostLines := s.hostLines ++ (blocksOf a n).filter (fun b => !(s.hostLines.contains b)) }
  else s

/-- HOST_READ (19 R337, R338): none is the Unsupported Request status. -/
def execHostRead (func addr n : Nat) (s : State) : Host.Outcome State Fault Refusal :=
  if !s.hostUp || decide (n = 0) then .next s
  else
    match regOf addr n with
    | some r =>
      .next (if s.hostReg func r false then s.reply func (some (toBytes 8 (s.regValue r).toNat)) false
             else s.reply func none false)
    | none =>
      if s.booted && s.hostHbm func addr n then
        let s1 := s.hostCaches func addr n
        if s.retiredRun addr n || s.poisonedRange (s.physical addr) n then .next (s1.poisonedReply func n)
        else .next (s1.reply func (some (s.readBytes (s.physical addr) n)) false)
      else .next (s.reply func none false)

/-- The atomic of Table 12.1 that an AtomicOp is. -/
def hostAtomicCode : HostAtomic → Nat
  | .fetchAdd => 0x08
  | .swap => 0x13
  | .cas => 0x14

/-- HOST_ATOMIC_OP (19 R336): on local HBM that the function may write, naturally aligned, 4 or 8 bytes -/
def execHostAtomicOp (func : Nat) (op : HostAtomic) (addr n : Nat) (x y : BitVec 64) (s : State) :
    Host.Outcome State Fault Refusal :=
  if !s.hostUp then .next s
  else if s.booted && (decide (n = 4) || decide (n = 8)) && decide (addr % n = 0) && s.hostHbm func addr n then
    if s.retiredRun addr n || s.poisonedRange (s.physical addr) n then .next (s.poisonedReply func n)
    else
      let r := s.atomicHome (hostAtomicCode op) (s.physical addr) n (x.toNat % 2 ^ (8 * n)) (y.toNat % 2 ^ (8 * n))
      .next (r.2.reply func (some (toBytes n r.1)) false)
  else .next (s.reply func none false)

/-- 20 R353: a read of a line that came back from the host gives no value from before its writeback. -/
def State.forgetLine (s : State) (block : Nat) : State :=
  let k := s.key (s.physical (64 * block))
  let drop (h : Hold) : Hold := { h with ctxs := h.ctxs.map (fun c => (c.1, { c.2 with older := c.2.older.filter (fun e => !(rangesMeet e.start e.bytes.length k 64)) })) }
  { s with cores := s.cores.map (fun e => (e.1, { e.2 with cur := drop e.2.cur, out := drop e.2.out })) }

/-- BACK_INVALIDATION_RESPONSE (19 R341): the line leaves the host's cache, after its writeback. -/
def execBackInvalidationResponse (block : Nat) (writeback : List (BitVec 8)) (s : State) :
    Host.Outcome State Fault Refusal :=
  if s.hostLines.contains block then
    let s1 := { s with hostLines := s.hostLines.filter (fun b => !decide (b = block)) }
    .next ((if writeback.length = 64 then s1.storeBytes (s.physical (64 * block)) writeback else s1).forgetLine block).retryAll
  else .next s

/-- HDM_DECODER_COMMIT (19 R337): in CXL mode; refused for a range outside one enabled partition's HBM -/
def execHdmDecoderCommit (dec base size : Nat) (s : State) : Host.Outcome State Fault Refusal :=
  if s.sec.hmode && decide (0 < size) && s.parts.any (fun p => p.2.en && p.2.holds base size) then
    .next { s with hdm := s.hdm.put dec (some (base, size)) }
  else .next s

/-! ## Difosal requests (19 R344) -/

/-- DIFOSAL_REQUEST (19 R344) -/
def execDifosalRequest (src : Nat) (tag : BitVec 16) (req : DifReq) (s : State) : Host.Outcome State Fault Refusal :=
  .next (s.receiveDif src tag req)

/-- WINDOW_CONTRIBUTION (12 R245): one that a switch may have combined, so that it carries no tag of its own; it is taken
over an export entry with w = 1 that covers the element (19 R344, log 91) -/
def execWindowContribution (part wid dev elem round : Nat) (x : BitVec 64) (s : State) :
    Host.Outcome State Fault Refusal :=
  match s.homeWindow part wid dev elem with
  | none => .next s
  | some w =>
    if !s.difEn || decide (s.difUp = 0) then .next s
    else if s.exports.any (fun e => s.exported e.2.tag (localOf w.base + elem * w.width) w.width true) then
      .next (s.arriveContribution part w elem dev round x)
    else .next (s.answerDif dev Cause.permission [])

/-! ## Ports (19 R342, 22 R386) -/

/-- An update leaves on every port that is up. -/
def State.sendUpdate (s : State) (dev port : Nat) (epoch : BitVec 16) (up : Bool) : State :=
  if s.difUp = 0 then s else { s with sentUpdates := s.sentUpdates ++ [⟨dev, port, epoch, up, s.difUp⟩] }
/-- A link-state update that this device declares: the port's epochs count from 0. -/
def State.declare (s : State) (port : Nat) (up : Bool) : State :=
  let n := s.portEpochs.get 0 port
  ({ s with portEpochs := s.portEpochs.put port (n + 1) } : State).sendUpdate s.difIndex.toNat port (BitVec.ofNat 16 n) up

/-- PORT_UP: announced by an update when the port comes up again -/
def execPortUp (port : Nat) (s : State) : Host.Outcome State Fault Refusal :=
  let s1 := { s with difUp := s.difUp ||| BitVec.ofNat 18 (2 ^ port) }
  if s.difUp.getLsbD port then .next s
  else .next (if s.portEpochs.get 0 port = 0 then s1 else s1.declare port true)

/-- FLIT_RETRY: a retry changes the time a flit takes and not its content or its order -/
def execFlitRetry (_port : Nat) (s : State) : Host.Outcome State Fault Refusal := .next s

/-- PORT_DEAD -/
def execPortDead (port : Nat) (s : State) : Host.Outcome State Fault Refusal :=
  if s.difUp.getLsbD port then
    .next (({ s with difUp := s.difUp &&& ~~~(BitVec.ofNat 18 (2 ^ port)) } : State).declare port false)
  else .next s

/-! ## Timeout rounds (22 R387 to R389) -/

/-- Every context of a running holder. -/
def State.everyWho (s : State) : List Who :=
  s.cores.flatMap (fun e => e.2.cur.ctxs.map (fun c => (⟨e.1, c.1⟩ : Who)))

/-- The head of a context's load queue that goes to another device, and of its store queue. -/
def State.remoteLoad (s : State) (w : Who) : Option Nat :=
  ((s.ctx w).loadQ.head?.filter (fun l => (s.ctx w).loadReady l && decide (s.place l.pa = .remote))).map (fun l => l.ord)
def State.remoteStore (s : State) (w : Who) : Option Nat :=
  ((s.ctx w).storeQ.head?.filter (fun t => (s.ctx w).storeReady t && decide (s.place t.pa = .remote))).map (fun t => t.ord)

/-- The requests that have been sent and have no response; one that waits for an earlier request of its block has not been
sent. -/
def State.sentRequests (s : State) : List Sent :=
  (s.everyWho.flatMap (fun w =>
    (s.remoteLoad w).toList.map (fun o => (⟨w, (s.ctx w).task, o, true⟩ : Sent)) ++
      (s.remoteStore w).toList.map (fun o => (⟨w, (s.ctx w).task, o, false⟩ : Sent)))).filter
    (fun r => s.wasSent r || !((s.sentPa r).any s.blockBusy))

/-- LINK_STATE_UPDATE: once per party, port and epoch, and sent on (22 Table 22.6); cut names the devices that have no path
from then on (R388, R389). A port that died starts three rounds, one that came up restores its participants to the rounds
that open after it. -/
def execLinkStateUpdate (party port : Nat) (epoch : BitVec 16) (up : Bool) (affected cut : List Nat) (s : State) :
    Host.Outcome State Fault Refusal :=
  if s.seenUpdates.contains (party, port, epoch) then .next s
  else
    let s1 := ({ s with seenUpdates := s.seenUpdates ++ [(party, port, epoch)] } : State).sendUpdate party port epoch up
    if up then .next { s1 with cutOff := s1.cutOff.filter cut.contains }
    else .next { s1 with
      cutOff := s1.cutOff ++ cut.filter (fun d => !(s1.cutOff.contains d))
      updates := s1.updates ++ [{ affected := affected, round := 0, sent := s.sentRequests, rounds := s.openRounds }] }

/-- A contribution that was sent has been counted (12 R245). -/
def State.countSent (s : State) (w : Who) (l : LoadEntry) : State :=
  match l.kind with
  | .contribution _ x =>
    ((s.part (s.ctx w).owner.part).windowAt l.pa).elim s (fun e =>
      (s.contribute (s.ctx w).owner.part e.1 e.2 s.difIndex.toNat x).2.2)
  | _ => s
/-- A request that has still no response completes with "link lost". -/
def State.failSent (s : State) (r : Sent) : State :=
  match s.sentPa r with
  | none => s
  | some pa =>
    if r.load then
      (s.ctx r.who).loadQ.head?.elim s (fun l =>
        ((s.countSent r.who l).updCtx r.who (fun x => x.failLoad l Cause.linkLost none)).wake r.who.core)
    else s.refuseStore r.who Cause.linkLost pa

/-- A round that lacks a contribution over the dead port loses every contribution it lacks. -/
def Window.loseRound (w : Window) (e k : Nat) (affected : List Nat) : Window :=
  { w with rounds := w.rounds.map (fun r =>
      let missing := w.members.filter (fun d => !(r.got.any (fun g => decide (g.1 = d))))
      if r.elem = e ∧ r.k = k ∧ missing.any (fun d => affected.contains d) = true then { r with lost := missing } else r) }

def State.loseRound (s : State) (affected : List Nat) (r : Nat × Nat × Nat × Nat) : State :=
  s.updPart r.1 (fun p => { p with windows := p.windows.map (fun w =>
    if w.wid = r.2.1 then w.loseRound r.2.2.1 r.2.2.2 affected else w) })

/-- What the end of an update's third round does: a request that a later update covers waits on (22 R387). -/
def State.endUpdate (s : State) (u : LinkUpdate) : State :=
  let s1 := (u.sent.filter (fun r => !(s.updates.any (fun v => v.sent.contains r)))).foldl State.failSent s
  let s2 := u.rounds.foldl (fun x r => x.loseRound u.affected r) s1
  s2.closeAll

/-- TIMEOUT_ROUND: a round of the n-th update ends; after the third its requests fail and its windows close. -/
def execTimeoutRound (n : Nat) (s : State) : Host.Outcome State Fault Refusal :=
  match s.updates[n]? with
  | none => .next s
  | some u =>
    if u.round < 2 then .next { s with updates := s.updates.set n { u with round := u.round + 1 } }
    else .next (({ s with updates := s.updates.eraseIdx n } : State).endUpdate u)

end Sys2Proof.Machine
end

