-- ==== Sys2Proof/Machine/Errors.lean ====
section
/-! DEFINITION. Check codes (21 R370) and the migration engine (15 R307 to R311). -/
namespace Sys2Proof.Machine

/-! ## Soft errors (21 R370) -/

/-- The enabled jobs of a partition. -/
def State.jobsOf (s : State) (p : Nat) : List Nat :=
  (s.jobs.filter (fun e => e.2.en && decide (e.2.part.toNat = p))).map (fun e => e.1)

/-- Every job of a holder's partition is lost, one record each. -/
def State.loseAllOf (s : State) (h : Hold) : State :=
  match h.part with
  | none => s
  | some p => (s.jobsOf p).foldl (fun x j => x.loseJob p j Cause.hardware 0 {}) s
/-- Every job of the partition that runs on a core. -/
def State.loseAll (s : State) (g : Nat) : State := s.loseAllOf (s.hold g)
/-- The job that a context's state belongs to is lost; what belongs to none loses every job of the holder's partition. -/
def State.loseOwner (s : State) (w : Who) (h : Hold) (c : Ctx) : State :=
  if !c.resident then s.loseAllOf h
  else if c.owner.boot then s.loseBootTask w
  else s.loseJob c.owner.part c.owner.job Cause.hardware 0
    { who := some w, gang := c.gang.isSome, tpc := c.tpcHere, step := c.step, log := c.logPtr }

def State.countState (s : State) (g : Nat) : State := s.updCore g (fun c => { c with eccState := c.eccState + 1 })

/-- Whose state the matrix unit's is: the running command's, the first queued entry's, or that of the context that holds the
unit (06 R131). -/
def State.matrixOwner (s : State) (g : Nat) : Option Nat :=
  ((((s.matrix g).run.map (fun r => r.cmd.slot)).or ((s.matrix g).queue.head?.map MEntry.slot)).or
    (((s.hold g).ctxs.find? (fun e => e.2.holdsMatrix)).map (fun e => e.1)))

/-- UNCORRECTABLE_ERROR (Table 21.7c) -/
def execUncorrectableError (site : ErrSite) (s : State) : Host.Outcome State Fault Refusal :=
  match site with
  | .row g r =>
    if s.rowOk g r then
      let c := s.row g r
      let poisoned : RowCell := { c with poison := true }
      let s1 : State :=
        if r < 2048 then s.updHold g (fun h => { h with fast := h.fast.set {} r poisoned })
        else s.updCore g (fun x => { x with bulk := x.bulk.set invalidRow (s.physRow g r) poisoned })
      .next (s1.updCore g (fun x => { x with eccRows := x.eccRows + 1 }))
    else .next s
  | .bulk g r =>
    if 2048 ≤ r ∧ r < 34816 then
      let poisoned : RowCell := { (s.core g).bulk.get invalidRow r with poison := true }
      .next (s.updCore g (fun x => { x with bulk := x.bulk.set invalidRow r poisoned, eccRows := x.eccRows + 1 }))
    else .next s
  | .hbm a => if a < 2 ^ 39 then .next (s.setPoison (s.physical a)) else .next s
  | .context g k => .next ((s.countState g).loseOwner ⟨g, k⟩ (s.hold g) (s.ctx ⟨g, k⟩))
  | .coreState g => .next ((s.countState g).loseAll g)
  | .shadow g k =>
    let h := (s.core g).out
    (match k with
     | some slot => .next ((s.countState g).loseOwner ⟨g, slot⟩ h (h.ctxs.get {} slot))
     | none => .next ((s.countState g).loseAllOf h))
  | .engine g =>
    (match s.matrixOwner g with
     | some k => .next ((s.countState g).loseOwner ⟨g, k⟩ (s.hold g) (s.ctx ⟨g, k⟩))
     | none => .next ((s.countState g).loseAll g))
  | .jobState j =>
    if (s.job j).en then .next (s.loseJob (s.job j).part.toNat j Cause.hardware 0 {}) else .next s

/-- CORRECTED_ERROR: counted, and nothing else changes -/
def execCorrectedError (core : Nat) (s : State) : Host.Outcome State Fault Refusal :=
  .next (s.updCore core (fun c => { c with eccCorrected := c.eccCorrected + 1 }))

/-! ## Migration (15 R308 to R311) -/

/-- A request for a job's pallet joins its partition's queue; an evict goes first, as it may free the frame that a
promote waits for. -/
def State.queueMove (s : State) (m : MoveReq) : State :=
  s.updPart (s.job m.job).part.toNat (fun p =>
    { p with moves := if m.up then p.moves ++ [{ m with id := p.moveCount }] else { m with id := p.moveCount } :: p.moves
             moveCount := p.moveCount + 1 })
/-- A promote that has no frame yet goes back to the head of the queue: the engine serves promotes in order (R311). -/
def State.requeueMove (s : State) (m : MoveReq) : State :=
  s.updPart (s.job m.job).part.toNat (fun p => { p with moves := m :: p.moves })

/-- PALLET_EVICT (Table 15.11) -/
def execPalletEvict (job va : Nat) (s : State) : Host.Outcome State Fault Refusal :=
  .next (s.updPallet job va (fun t n s =>
    match (t.pallet n).st with
    | .low => s
    | .movingDown => s
    | .high => s.queueMove { job := job, va := va, up := false, deadline := false }
    | .movingUp => s.setPallet job t n { t.pallet n with deferred := true }))

/-- A frame of the pool that no pallet has. -/
def Tiered.freeFrame (t : Tiered) : Option Nat :=
  (List.range (t.pallets.length + 1)).find? (fun f => decide (f < t.frames) &&
    t.pallets.all (fun p => decide (p.2.st = .low) || decide (p.2.frame ≠ f)))

/-- Policy 1's choice on a shortage: the pallet promoted earliest. -/
def Tiered.earliest (t : Tiered) : Option Nat :=
  ((t.pallets.filter (fun p => decide (p.2.st = .high))).foldl (fun (a : Option (Nat × Nat)) p =>
    match a with
    | none => some (p.1, p.2.promoted)
    | some (n, c) => if p.2.promoted < c then some (p.1, p.2.promoted) else some (n, c)) none).map (fun x => x.1)

/-- A promote of a low pallet begins; without a frame, policy 1 evicts first, and policy 0 drops the request (log 34). -/
def State.startUp (s : State) (m : MoveReq) (t : Tiered) (n : Nat) : State :=
  match t.freeFrame with
  | some f => s.setPallet m.job t n { t.pallet n with st := .movingUp, frame := f, restarts := 0, deferred := false, waiting := [] }
  | none =>
    if t.pallets.any (fun p => decide (p.2.st = .movingDown)) then s.requeueMove m
    else
    match (if t.policy = 1 then t.earliest else none) with
    | some k => (s.requeueMove m).queueMove { job := m.job, va := t.base + 65536 * k, up := false, deadline := false }
    | none => s

/-- PALLET_MOVE_START (15 R308, R311): the partition's oldest request is served -/
def execPalletMoveStart (part : Nat) (s : State) : Host.Outcome State Fault Refusal :=
  match (s.part part).moves with
  | [] => .next s
  | m :: rest =>
    .next ((s.updPart part (fun p => { p with moves := rest })).updPallet m.job m.va (fun t n s =>
      match (t.pallet n).st, m.up with
      | .low, true => s.startUp m t n
      | .movingDown, true => s.setPallet m.job t n { t.pallet n with deferred := true }
      | .high, false => s.setPallet m.job t n { t.pallet n with st := .movingDown, restarts := 0, deferred := false, waiting := [] }
      | .movingUp, false => s.setPallet m.job t n { t.pallet n with deferred := true }
      | .low, false => s
      | .movingUp, true => s
      | .high, true => s
      | .movingDown, false => s))

/-- PALLET_MOVE_COMPLETE (15 R308 to R310) -/
def execPalletMoveComplete (job : Nat) (m : MoveEnd) (s : State) : Host.Outcome State Fault Refusal :=
  .next (s.settleMove job m.va m.bad (fun g u x => if x.coreOff g then x else x.stepCopy g u))

/-- PREF_DEADLINE_EXPIRY (15 R311): a request with a deadline whose move has not begun is withdrawn -/
def execPrefDeadlineExpiry (job id : Nat) (s : State) : Host.Outcome State Fault Refusal :=
  .next (s.updPart (s.job job).part.toNat (fun p =>
    { p with moves := p.moves.filter (fun m => !(decide (m.job = job) && decide (m.id = id) && m.up && m.deadline)) }))

end Sys2Proof.Machine
end

