-- ==== Sys2Proof/Machine/Dispatch.lean ====
section
/-! DEFINITION. The meaning of every instruction: one arm per constructor, each one direct call. -/
namespace Sys2Proof.Machine

/-- The meaning of an instruction. -/
def exec (i : Instr) (s : State) : Host.Outcome State Fault Refusal :=
  match i with
  | .nop => Sys2Proof.Machine.execNop s
  | .br n f o => Sys2Proof.Machine.execBr n f o s
  | .bem o => Sys2Proof.Machine.execBem o s
  | .bnem o => Sys2Proof.Machine.execBnem o s
  | .call d o => Sys2Proof.Machine.execCall d o s
  | .ret a => Sys2Proof.Machine.execRet a s
  | .sjmp n f a => Sys2Proof.Machine.execSjmp n f a s
  | .loop c a l m => Sys2Proof.Machine.execLoop c a l m s
  | .loopi c t l m => Sys2Proof.Machine.execLoopi c t l m s
  | .igate c w st => Sys2Proof.Machine.execIgate c w st s
  | .rwait q w n => Sys2Proof.Machine.execRwait q w n s
  | .bindf f e ix => Sys2Proof.Machine.execBindf f e ix s
  | .yield => Sys2Proof.Machine.execYield s
  | .exit => Sys2Proof.Machine.execExit s
  | .spawn a r => Sys2Proof.Machine.execSpawn a r s
  | .spawns d a b r => Sys2Proof.Machine.execSpawns d a b r s
  | .decide a b => Sys2Proof.Machine.execDecide a b s
  | .oppt t => Sys2Proof.Machine.execOppt t s
  | .hint h => Sys2Proof.Machine.execHint h s
  | .sbar m => Sys2Proof.Machine.execSbar m s
  | .grow n => Sys2Proof.Machine.execGrow n s
  | .shrink n => Sys2Proof.Machine.execShrink n s
  | .trap c => Sys2Proof.Machine.execTrap c s
  | .eret => Sys2Proof.Machine.execEret s
  | .srr d st => Sys2Proof.Machine.execSrr d st s
  | .srw a st => Sys2Proof.Machine.execSrw a st s
  | .halt => Sys2Proof.Machine.execHalt s
  | .pwait g f e d c b a => Sys2Proof.Machine.execPwait g f e d c b a s
  | .add p d a b => Sys2Proof.Machine.execAdd p d a b s
  | .sub p d a b => Sys2Proof.Machine.execSub p d a b s
  | .and p d a b => Sys2Proof.Machine.execAnd p d a b s
  | .or p d a b => Sys2Proof.Machine.execOr p d a b s
  | .xor p d a b => Sys2Proof.Machine.execXor p d a b s
  | .andn p d a b => Sys2Proof.Machine.execAndn p d a b s
  | .shl p d a b => Sys2Proof.Machine.execShl p d a b s
  | .shr p d a b => Sys2Proof.Machine.execShr p d a b s
  | .sar p d a b => Sys2Proof.Machine.execSar p d a b s
  | .ror p d a b => Sys2Proof.Machine.execRor p d a b s
  | .fshl p d a b x => Sys2Proof.Machine.execFshl p d a b x s
  | .fshr p d a b x => Sys2Proof.Machine.execFshr p d a b x s
  | .mul p d a b => Sys2Proof.Machine.execMul p d a b s
  | .mulh p d a b => Sys2Proof.Machine.execMulh p d a b s
  | .mulhu p d a b => Sys2Proof.Machine.execMulhu p d a b s
  | .div p d a b => Sys2Proof.Machine.execDiv p d a b s
  | .divu p d a b => Sys2Proof.Machine.execDivu p d a b s
  | .rem p d a b => Sys2Proof.Machine.execRem p d a b s
  | .remu p d a b => Sys2Proof.Machine.execRemu p d a b s
  | .min p d a b => Sys2Proof.Machine.execMin p d a b s
  | .max p d a b => Sys2Proof.Machine.execMax p d a b s
  | .minu p d a b => Sys2Proof.Machine.execMinu p d a b s
  | .maxu p d a b => Sys2Proof.Machine.execMaxu p d a b s
  | .sel p d a b f => Sys2Proof.Machine.execSel p d a b f s
  | .clz p d a => Sys2Proof.Machine.execClz p d a s
  | .popc p d a => Sys2Proof.Machine.execPopc p d a s
  | .brev p d a => Sys2Proof.Machine.execBrev p d a s
  | .addi p d a ix => Sys2Proof.Machine.execAddi p d a ix s
  | .andi p d a ix => Sys2Proof.Machine.execAndi p d a ix s
  | .ori p d a ix => Sys2Proof.Machine.execOri p d a ix s
  | .xori p d a ix => Sys2Proof.Machine.execXori p d a ix s
  | .shli p d a h => Sys2Proof.Machine.execShli p d a h s
  | .shri p d a h => Sys2Proof.Machine.execShri p d a h s
  | .sari p d a h => Sys2Proof.Machine.execSari p d a h s
  | .rori p d a h => Sys2Proof.Machine.execRori p d a h s
  | .movi p d ix => Sys2Proof.Machine.execMovi p d ix s
  | .movs p d ix => Sys2Proof.Machine.execMovs p d ix s
  | .cmp p f c a b => Sys2Proof.Machine.execCmp p f c a b s
  | .cmpi p f c a ix => Sys2Proof.Machine.execCmpi p f c a ix s
  | .cb p c a b o => Sys2Proof.Machine.execCb p c a b o s
  | .fadd p d a b => Sys2Proof.Machine.execFadd p d a b s
  | .fsub p d a b => Sys2Proof.Machine.execFsub p d a b s
  | .fmul p d a b => Sys2Proof.Machine.execFmul p d a b s
  | .fma p d a b => Sys2Proof.Machine.execFma p d a b s
  | .fcmp p f c a b => Sys2Proof.Machine.execFcmp p f c a b s
  | .fcvt p d a st t => Sys2Proof.Machine.execFcvt p d a st t s
  | .ld d a z ix => Sys2Proof.Machine.execLd d a z ix s
  | .ldx d a z ix => Sys2Proof.Machine.execLdx d a z ix s
  | .st st a z ix => Sys2Proof.Machine.execSt st a z ix s
  | .ldaq d a z c ix => Sys2Proof.Machine.execLdaq d a z c ix s
  | .strl st a z c ix => Sys2Proof.Machine.execStrl st a z c ix s
  | .mark => Sys2Proof.Machine.execMark s
  | .fence c => Sys2Proof.Machine.execFence c s
  | .aadd d a b z c => Sys2Proof.Machine.execAadd d a b z c s
  | .aand d a b z c => Sys2Proof.Machine.execAand d a b z c s
  | .aor d a b z c => Sys2Proof.Machine.execAor d a b z c s
  | .axor d a b z c => Sys2Proof.Machine.execAxor d a b z c s
  | .amin d a b z c => Sys2Proof.Machine.execAmin d a b z c s
  | .amax d a b z c => Sys2Proof.Machine.execAmax d a b z c s
  | .aminu d a b z c => Sys2Proof.Machine.execAminu d a b z c s
  | .amaxu d a b z c => Sys2Proof.Machine.execAmaxu d a b z c s
  | .afadd d a b c => Sys2Proof.Machine.execAfadd d a b c s
  | .afmin d a b c => Sys2Proof.Machine.execAfmin d a b c s
  | .afmax d a b c => Sys2Proof.Machine.execAfmax d a b c s
  | .aswp d a b z c => Sys2Proof.Machine.execAswp d a b z c s
  | .acas d a b x z c => Sys2Proof.Machine.execAcas d a b x z c s
  | .vld d a b z => Sys2Proof.Machine.execVld d a b z s
  | .vldle d a b z => Sys2Proof.Machine.execVldle d a b z s
  | .vst st a b z => Sys2Proof.Machine.execVst st a b z s
  | .vpub a b => Sys2Proof.Machine.execVpub a b s
  | .vfloor a b => Sys2Proof.Machine.execVfloor a b s
  | .vdrop a b => Sys2Proof.Machine.execVdrop a b s
  | .vquery d a => Sys2Proof.Machine.execVquery d a s
  | .waita b a z n => Sys2Proof.Machine.execWaita b a z n s
  | .tlook d a => Sys2Proof.Machine.execTlook d a s
  | .tset a b => Sys2Proof.Machine.execTset a b s
  | .tclr a => Sys2Proof.Machine.execTclr a s
  | .spill st n => Sys2Proof.Machine.execSpill st n s
  | .fill d n => Sys2Proof.Machine.execFill d n s
  | .vFadd p d a b t => Sys2Proof.Machine.execVFadd p d a b t s
  | .vFsub p d a b t => Sys2Proof.Machine.execVFsub p d a b t s
  | .vFmul p d a b t => Sys2Proof.Machine.execVFmul p d a b t s
  | .vFma p d a b t => Sys2Proof.Machine.execVFma p d a b t s
  | .vFmin p d a b t => Sys2Proof.Machine.execVFmin p d a b t s
  | .vFmax p d a b t => Sys2Proof.Machine.execVFmax p d a b t s
  | .fabs p d a t => Sys2Proof.Machine.execFabs p d a t s
  | .fneg p d a t => Sys2Proof.Machine.execFneg p d a t s
  | .rcp p d a => Sys2Proof.Machine.execRcp p d a s
  | .rsqrt p d a => Sys2Proof.Machine.execRsqrt p d a s
  | .exp2 p d a => Sys2Proof.Machine.execExp2 p d a s
  | .log2 p d a => Sys2Proof.Machine.execLog2 p d a s
  | .cvt p d a h st t => Sys2Proof.Machine.execCvt p d a h st t s
  | .vAdd p d a b t => Sys2Proof.Machine.execVAdd p d a b t s
  | .vSub p d a b t => Sys2Proof.Machine.execVSub p d a b t s
  | .vMul p d a b t => Sys2Proof.Machine.execVMul p d a b t s
  | .vMin p d a b t => Sys2Proof.Machine.execVMin p d a b t s
  | .vMax p d a b t => Sys2Proof.Machine.execVMax p d a b t s
  | .vAnd p d a b t => Sys2Proof.Machine.execVAnd p d a b t s
  | .vOr p d a b t => Sys2Proof.Machine.execVOr p d a b t s
  | .vXor p d a b t => Sys2Proof.Machine.execVXor p d a b t s
  | .vShl p d a b t => Sys2Proof.Machine.execVShl p d a b t s
  | .vShr p d a b t => Sys2Proof.Machine.execVShr p d a b t s
  | .vSar p d a b t => Sys2Proof.Machine.execVSar p d a b t s
  | .vShli p d a ix t => Sys2Proof.Machine.execVShli p d a ix t s
  | .vShri p d a ix t => Sys2Proof.Machine.execVShri p d a ix t s
  | .vSari p d a ix t => Sys2Proof.Machine.execVSari p d a ix t s
  | .vFshl p d a b t => Sys2Proof.Machine.execVFshl p d a b t s
  | .vFshr p d a b t => Sys2Proof.Machine.execVFshr p d a b t s
  | .cmpm p c a b t => Sys2Proof.Machine.execCmpm p c a b t s
  | .vSel p d a b t => Sys2Proof.Machine.execVSel p d a b t s
  | .mpush p c a b t => Sys2Proof.Machine.execMpush p c a b t s
  | .minv p => Sys2Proof.Machine.execMinv p s
  | .mpop p => Sys2Proof.Machine.execMpop p s
  | .chkb p d a g t => Sys2Proof.Machine.execChkb p d a g t s
  | .red p d a l k t => Sys2Proof.Machine.execRed p d a l k t s
  | .scan p d a l k t => Sys2Proof.Machine.execScan p d a l k t s
  | .bcast p d a ix t => Sys2Proof.Machine.execBcast p d a ix t s
  | .perm p d a b t => Sys2Proof.Machine.execPerm p d a b t s
  | .rotm p d a n => Sys2Proof.Machine.execRotm p d a n s
  | .rndb p d => Sys2Proof.Machine.execRndb p d s
  | .rndf p d t => Sys2Proof.Machine.execRndf p d t s
  | .rndi p d a t => Sys2Proof.Machine.execRndi p d a t s
  | .sampc p d a => Sys2Proof.Machine.execSampc p d a s
  | .vldrRow v a ix => Sys2Proof.Machine.execVldrRow v a ix s
  | .vstrRow v a m ix => Sys2Proof.Machine.execVstrRow v a m ix s
  | .vldrRing v q ix => Sys2Proof.Machine.execVldrRing v q ix s
  | .vstrRing v q m ix => Sys2Proof.Machine.execVstrRing v q m ix s
  | .vldrGenerator v g => Sys2Proof.Machine.execVldrGenerator v g s
  | .vstrGenerator v g m => Sys2Proof.Machine.execVstrGenerator v g m s
  | .vldrBond v a k => Sys2Proof.Machine.execVldrBond v a k s
  | .vstrBond v a m k => Sys2Proof.Machine.execVstrBond v a m k s
  | .rcfg q a => Sys2Proof.Machine.execRcfg q a s
  | .radvr q n => Sys2Proof.Machine.execRadvr q n s
  | .radvw q n => Sys2Proof.Machine.execRadvw q n s
  | .aset g a => Sys2Proof.Machine.execAset g a s
  | .bond k a b => Sys2Proof.Machine.execBond k a b s
  | .give k a => Sys2Proof.Machine.execGive k a s
  | .lend k a => Sys2Proof.Machine.execLend k a s
  | .recall k => Sys2Proof.Machine.execRecall k s
  | .unbond k => Sys2Proof.Machine.execUnbond k s
  | .mcall r => Sys2Proof.Machine.execMcall r s
  | .mpset p a => Sys2Proof.Machine.execMpset p a s
  | .mpgo => Sys2Proof.Machine.execMpgo s
  | .cpy a b q c => Sys2Proof.Machine.execCpy a b q c s
  | .cpyNoRing a b => Sys2Proof.Machine.execCpyNoRing a b s
  | .pref a b x => Sys2Proof.Machine.execPref a b x s
  | .fmtset e a => Sys2Proof.Machine.execFmtset e a s
  | .bndset g a b p => Sys2Proof.Machine.execBndset g a b p s
  | .bndget d g => Sys2Proof.Machine.execBndget d g s
  | .mend => Sys2Proof.Machine.execMend s
  | .mlda am wa h off wb => Sys2Proof.Machine.execMlda am wa h off wb s
  | .mldb y am wa h off => Sys2Proof.Machine.execMldb y am wa h off s
  | .mstep x y => Sys2Proof.Machine.execMstep x y s
  | .mpcor x y wa => Sys2Proof.Machine.execMpcor x y wa s
  | .mswap => Sys2Proof.Machine.execMswap s
  | .mclr x wa => Sys2Proof.Machine.execMclr x wa s
  | .mdrain x y am wa h off => Sys2Proof.Machine.execMdrain x y am wa h off s
  | .mloop wa imm => Sys2Proof.Machine.execMloop wa imm s
  | .mbr x wa wb imm => Sys2Proof.Machine.execMbr x wa wb imm s
  | .mwaitr y h imm => Sys2Proof.Machine.execMwaitr y h imm s
  | .mradv y h imm => Sys2Proof.Machine.execMradv y h imm s
  | .mpost h imm => Sys2Proof.Machine.execMpost h imm s
  | .mfmt x => Sys2Proof.Machine.execMfmt x s
  | .mset x y wa imm => Sys2Proof.Machine.execMset x y wa imm s
  | .madd y wa wb imm => Sys2Proof.Machine.execMadd y wa wb imm s
  | .lossReport part => Sys2Proof.Machine.execLossReport part s
  | .globalLoadResponse core slot env => Sys2Proof.Machine.execGlobalLoadResponse core slot env s
  | .matrixCompletion core => Sys2Proof.Machine.execMatrixCompletion core s
  | .copyTuple core uid => Sys2Proof.Machine.execCopyTuple core uid s
  | .copyCompletion core uid => Sys2Proof.Machine.execCopyCompletion core uid s
  | .launchBind core => Sys2Proof.Machine.execLaunchBind core s
  | .overlayLoad core slot => Sys2Proof.Machine.execOverlayLoad core slot s
  | .segmentPrefetch core slot => Sys2Proof.Machine.execSegmentPrefetch core slot s
  | .bootDoorbellDirect func core => Sys2Proof.Machine.execBootDoorbellDirect func core s
  | .bootDoorbellEnqueue func core pr => Sys2Proof.Machine.execBootDoorbellEnqueue func core pr s
  | .jobInval job v => Sys2Proof.Machine.execJobInval job v s
  | .registerRegion job desc => Sys2Proof.Machine.execRegisterRegion job desc s
  | .dropRegion job desc => Sys2Proof.Machine.execDropRegion job desc s
  | .registerWindow job desc => Sys2Proof.Machine.execRegisterWindow job desc s
  | .dropWindow job desc => Sys2Proof.Machine.execDropWindow job desc s
  | .registerTieredRange job desc => Sys2Proof.Machine.execRegisterTieredRange job desc s
  | .dropTieredRange job desc => Sys2Proof.Machine.execDropTieredRange job desc s
  | .attestationRequest job v => Sys2Proof.Machine.execAttestationRequest job v s
  | .swapOut part => Sys2Proof.Machine.execSwapOut part s
  | .killJob part job => Sys2Proof.Machine.execKillJob part job s
  | .partitionEnable part => Sys2Proof.Machine.execPartitionEnable part s
  | .partitionDisable part => Sys2Proof.Machine.execPartitionDisable part s
  | .jobCtlWrite job root v => Sys2Proof.Machine.execJobCtlWrite job root v s
  | .difExportWrite e v => Sys2Proof.Machine.execDifExportWrite e v s
  | .gctlInvalidate core group => Sys2Proof.Machine.execGctlInvalidate core group s
  | .gctlSetClass core group cls => Sys2Proof.Machine.execGctlSetClass core group cls s
  | .registerWrite who off v => Sys2Proof.Machine.execRegisterWrite who off v s
  | .phyReadTest ch => Sys2Proof.Machine.execPhyReadTest ch s
  | .phyWriteTest ch => Sys2Proof.Machine.execPhyWriteTest ch s
  | .phyConfirmTest ch => Sys2Proof.Machine.execPhyConfirmTest ch s
  | .phyRepairWrite ch v => Sys2Proof.Machine.execPhyRepairWrite ch v s
  | .phyLaneWrite ch lane v => Sys2Proof.Machine.execPhyLaneWrite ch lane v s
  | .storePerformed core slot => Sys2Proof.Machine.execStorePerformed core slot s
  | .issueCycle core => Sys2Proof.Machine.execIssueCycle core s
  | .budgetPeriodBoundary core => Sys2Proof.Machine.execBudgetPeriodBoundary core s
  | .remoteRowResponse core slot => Sys2Proof.Machine.execRemoteRowResponse core slot s
  | .storeRefusal core slot cause => Sys2Proof.Machine.execStoreRefusal core slot cause s
  | .waitaReread core slot => Sys2Proof.Machine.execWaitaReread core slot s
  | .viewUpdate core slot flag => Sys2Proof.Machine.execViewUpdate core slot flag s
  | .retstatRead core slot d => Sys2Proof.Machine.execRetstatRead core slot d s
  | .replayConsume core slot => Sys2Proof.Machine.execReplayConsume core slot s
  | .matrixCommandStart core => Sys2Proof.Machine.execMatrixCommandStart core s
  | .formatEntryWrite core => Sys2Proof.Machine.execFormatEntryWrite core s
  | .copyDeadlineExpiry core uid => Sys2Proof.Machine.execCopyDeadlineExpiry core uid s
  | .retentionTick cluster => Sys2Proof.Machine.execRetentionTick cluster s
  | .temperatureSample cluster milliC => Sys2Proof.Machine.execTemperatureSample cluster milliC s
  | .refreshRowRewrite core => Sys2Proof.Machine.execRefreshRowRewrite core s
  | .thermalInterval cluster milliC => Sys2Proof.Machine.execThermalInterval cluster milliC s
  | .progressMonitorExpiry part => Sys2Proof.Machine.execProgressMonitorExpiry part s
  | .opTransitionSettle core => Sys2Proof.Machine.execOpTransitionSettle core s
  | .bondTransferArrival core slot k => Sys2Proof.Machine.execBondTransferArrival core slot k s
  | .lendArrival core slot k => Sys2Proof.Machine.execLendArrival core slot k s
  | .hostPostedWrite func addr data poison => Sys2Proof.Machine.execHostPostedWrite func addr data poison s
  | .hostRead func addr n => Sys2Proof.Machine.execHostRead func addr n s
  | .hostAtomicOp func op addr n x y => Sys2Proof.Machine.execHostAtomicOp func op addr n x y s
  | .backInvalidationResponse block writeback => Sys2Proof.Machine.execBackInvalidationResponse block writeback s
  | .hdmDecoderCommit dec base size => Sys2Proof.Machine.execHdmDecoderCommit dec base size s
  | .difosalRequest src tag req => Sys2Proof.Machine.execDifosalRequest src tag req s
  | .windowContribution part wid dev elem round x => Sys2Proof.Machine.execWindowContribution part wid dev elem round x s
  | .portUp port => Sys2Proof.Machine.execPortUp port s
  | .flitRetry port => Sys2Proof.Machine.execFlitRetry port s
  | .portDead port => Sys2Proof.Machine.execPortDead port s
  | .linkStateUpdate party port epoch up affected cut => Sys2Proof.Machine.execLinkStateUpdate party port epoch up affected cut s
  | .coreHalted core => Sys2Proof.Machine.execCoreHalted core s
  | .engineRestoreComplete core => Sys2Proof.Machine.execEngineRestoreComplete core s
  | .lbctlArm core slot half count => Sys2Proof.Machine.execLbctlArm core slot half count s
  | .phyTestComplete ch pass => Sys2Proof.Machine.execPhyTestComplete ch pass s
  | .alarm sensor => Sys2Proof.Machine.execAlarm sensor s
  | .uncorrectableError site => Sys2Proof.Machine.execUncorrectableError site s
  | .correctedError core => Sys2Proof.Machine.execCorrectedError core s
  | .palletEvict job va => Sys2Proof.Machine.execPalletEvict job va s
  | .palletMoveComplete job m => Sys2Proof.Machine.execPalletMoveComplete job m s
  | .prefDeadlineExpiry job id => Sys2Proof.Machine.execPrefDeadlineExpiry job id s
  | .translationWalk cluster job va => Sys2Proof.Machine.execTranslationWalk cluster job va s
  | .versionUnitAnswer core slot => Sys2Proof.Machine.execVersionUnitAnswer core slot s
  | .hostPortTrained cxl => Sys2Proof.Machine.execHostPortTrained cxl s
  | .noCompletion core slot => Sys2Proof.Machine.execNoCompletion core slot s
  | .snoopNoResponse core slot => Sys2Proof.Machine.execSnoopNoResponse core slot s
  | .palletMoveStart part => Sys2Proof.Machine.execPalletMoveStart part s
  | .packageTrip => Sys2Proof.Machine.execPackageTrip s
  | .timeoutRound n => Sys2Proof.Machine.execTimeoutRound n s
  | .invalidationComplete => Sys2Proof.Machine.execInvalidationComplete s
  | .powerUp => Sys2Proof.Machine.execPowerUp s
  | .perst => Sys2Proof.Machine.execPerst s
  | .warmReset => Sys2Proof.Machine.execWarmReset s
  | .bootTrainingDone => Sys2Proof.Machine.execBootTrainingDone s
  | .hostPortLinkDown => Sys2Proof.Machine.execHostPortLinkDown s

end Sys2Proof.Machine
end

