-- ==== Sys2Proof/Machine/Agents.lean ====
section
/-! DEFINITION. The agents of the device: the work that engines, queues and loaders have, the move each makes, and the
turns they take with the cores' issue ports (log 5); and placing an instruction where the next step takes it (log 4). -/
namespace Sys2Proof.Machine

/-! ## Work that the engines, queues and loaders have -/

def Ctx.work (w : Who) (c : Ctx) : List Act :=
  let add (b : Bool) (i : Instr) : List Act := if b then [.event i] else []
  add (!c.storeQ.isEmpty) (.storePerformed w.core w.slot) ++
    add (!c.loadQ.isEmpty) (.globalLoadResponse w.core w.slot (.data 0 [])) ++
    add (!c.remoteQ.isEmpty || c.squashed) (.remoteRowResponse w.core w.slot) ++
    add (c.resident && (c.loading || c.loadFault.isSome)) (.overlayLoad w.core w.slot) ++
    (c.binds.filter (fun b => b.2.isSome)).map (fun b => .event (.viewUpdate w.core w.slot b.1))

def CCmd.work (g : Nat) (c : CCmd) : Act :=
  .event (if c.ended.isSome then .copyCompletion g c.uid else .copyTuple g c.uid)

def MUnit.work (g : Nat) (m : MUnit) : List Act :=
  match m.run, m.queue with
  | some r, _ => if r.ended.isSome then [.event (.matrixCompletion g)] else [.micro g]
  | none, .cmd _ :: _ => [.event (.matrixCommandStart g)]
  | none, .fmt _ _ _ :: _ => [.event (.formatEntryWrite g)]
  | none, [] => []

def Core.work (g : Nat) (c : Core) : List Act :=
  let add (b : Bool) (i : Instr) : List Act := if b then [.event i] else []
  c.cur.ctxs.flatMap (fun e => e.2.work ⟨g, e.1⟩) ++ c.cur.copies.map (CCmd.work g) ++ c.cur.matrix.work g ++
    add (!c.cur.queue.isEmpty) (.launchBind g) ++ add (c.cur.halting && !c.cur.halted) (.coreHalted g) ++
    add c.cur.restoring (.engineRestoreComplete g) ++ add c.opBusy (.opTransitionSettle g) ++
    add (c.cur.ctxs.any (fun e => e.2.resident && !(c.quotaLeft e.1)) &&
      c.cur.ctxs.all (fun e => !e.2.resident || e.2.waiting || e.2.stopped || e.2.loading || !(c.quotaLeft e.1))) (.budgetPeriodBoundary g)

/-- A waiting context looks again (09 R200, 15 R295; log 13). -/
def Core.again (g : Nat) (c : Core) : List Act :=
  (c.cur.ctxs.filter (fun e => e.2.resident && e.2.waiting)).map (fun e => .event (.waitaReread g e.1))

def Transfer.work (t : Transfer) : Act :=
  .event (if t.lend then .lendArrival t.target.core t.target.slot t.k
          else .bondTransferArrival t.target.core t.target.slot t.k)

def Tiered.work (j : Nat) (t : Tiered) : List Act :=
  (t.pallets.filter (fun p => p.2.moving)).map (fun p => .event (.palletMoveComplete j { va := t.base + 65536 * p.1, bad := false }))

/-- Every move that an agent other than a core's issue port may have to make. -/
def State.work (s : State) : List Act :=
  s.cores.flatMap (fun e => e.2.work e.1) ++ s.transfers.map Transfer.work ++
    (if s.invalidations.isEmpty then [] else [.event .invalidationComplete]) ++
    (s.parts.filter (fun p => !p.2.losses.isEmpty)).map (fun p => .event (.lossReport p.1)) ++
    (s.parts.filter (fun p => !p.2.moves.isEmpty)).map (fun p => .event (.palletMoveStart p.1)) ++
    s.jobs.flatMap (fun j => j.2.tiered.flatMap (Tiered.work j.1)) ++ s.cores.flatMap (fun e => e.2.again e.1)

/-! ## Moves -/

/-- A unit number that does not exist takes no step (01 R11). -/
def noUnit : Host.Outcome State Fault Refusal := .fault .noSuchUnit

/-- The next microword of a core's running command. -/
def State.microStep (s : State) (g : Nat) (more : List Act) : Host.Outcome State Fault Refusal :=
  match s.nextMicro g with
  | some i => exec i s
  | none => .next ({ s with agenda := more }.badMicro g)

/-- The move an agent makes with the rest of the agenda behind it. -/
def State.act (s : State) (more : List Act) : Act → Host.Outcome State Fault Refusal
  | .event i => if i.wf then exec i { s with agenda := more } else noUnit
  | .micro g => State.microStep { s with agenda := .micro g :: more } g more

/-- The first piece of work that changes something. -/
def State.firstMove (s : State) : List Act → Option State
  | [] => none
  | a :: t =>
    match s.act [] a with
    | .next x => if x = s then s.firstMove t else some x
    | .fault _ => s.firstMove t
    | .refused _ => s.firstMove t
/-- The pieces of work take turns (log 5). -/
def State.background (s : State) : Option State :=
  let l := s.work
  let k := s.rotor % l.length
  (s.firstMove (l.drop k ++ l.take k)).map (fun x => { x with rotor := s.rotor + 1 })

/-- The cores that have a resident context. -/
def State.busyCores (s : State) : List Nat :=
  (s.cores.filter (fun e => e.2.cur.ctxs.any (fun c => c.2.resident))).map (fun e => e.1)
/-- The core whose turn comes after the one in focus. -/
def State.nextCore (s : State) : Nat :=
  match s.busyCores.find? (fun g => decide (s.focus.core < g)) with
  | some g => g
  | none => s.busyCores.headD s.focus.core
def State.handOn (s : State) (turn : Bool) : State := { s with turn := turn, focus := ⟨s.nextCore, s.focus.slot⟩ }

/-- The issue cycle of the core in focus; when nothing issues, a piece of other work. -/
def State.ownCycle (s : State) : State :=
  let r := s.cycle s.focus.core
  if r.2 then r.1.handOn true
  else
    match r.1.background with
    | some x => x.handOn false
    | none => r.1.handOn false

/-- With an empty agenda. -/
def State.idleStep (s : State) : State :=
  if s.turn then
    match s.background with
    | some x => { x with turn := false }
    | none => s.ownCycle
  else s.ownCycle

/-! ## Placing an instruction where the next step takes it -/

/-- A boot task in context 0 of core 0, which is what runs first after reset (24 R395), or the task that is there. -/
def State.firstContext (s : State) : Ctx :=
  let c := s.ctx ⟨0, 0⟩
  if c.resident then c else Ctx.launched (bootLaunch 0 s.nextTask)

/-- The context with a bundle in its executing half: the word in its slot, and an empty bundle behind it. -/
def Ctx.holding (c : Ctx) (b : BundleWord) : Ctx :=
  { c with
    loading := false, loadFault := none, stopped := false, exiting := false, waiting := false, incoming := none
    gang := none, half := 0, index := 0, logMode := 0
    halves := c.halves.put 0 { valid := true, count := 2, bundles := [b, 0] } }

/-- A slot word in the first slot that takes it. -/
def State.withSlotWord (s : State) (v : SlotWord) : State :=
  let k := match decodeAnySlot v with
    | some x => x.1
    | none => 0
  let b : BundleWord := BitVec.ofNat 256 (v.toNat * 2 ^ (32 * k))
  { s.setCtx ⟨0, 0⟩ (s.firstContext.holding b) with agenda := [], turn := false, focus := ⟨0, 0⟩ }

/-- A microword at the start of a running command. -/
def State.withMicroword (s : State) (v : Word) : State :=
  let c : MCmd := { slot := 0, task := 0, routine := 0, p := [], c := [], rings := [], bonds := [], key := 0, stream := 0,
                    seq := 0, rd := {}, wr := {}, ord := 0, bar := {} }
  { s.updHold 0 (fun h => { h with matrix := { h.matrix with run := some { cmd := c }, words := h.matrix.words.put 0 v } }) with
    agenda := [.micro 0], focus := ⟨0, 0⟩ }

end Sys2Proof.Machine
end

