-- ==== Sys2Proof/Machine/Step.lean ====
section
/-! DEFINITION. One step of the device: the agenda says whose move is next; with an empty agenda the core in focus has an
issue cycle, in turn with the engines, queues and loaders that have work to do (log 5). -/
namespace Sys2Proof.Machine

/-- One step. -/
def step (s : State) : Host.Outcome State Fault Refusal :=
  match s.agenda with
  | a :: more => s.act more a
  | [] => .next s.idleStep

/-- The state whose next step fetches and runs the word (log 4). -/
def State.withFetchWord (s : State) (nbits w : Nat) : State :=
  if nbits = 64 then s.withMicroword (BitVec.ofNat 64 w) else s.withSlotWord (BitVec.ofNat 32 w)

end Sys2Proof.Machine
end

