-- ==== Sys2Proof/Laws/Fields.lean ====
section
/-! SUPPORT. Bit fields of appended words. -/
namespace Sys2Proof

theorem fld_append_low {n m : Nat} (x : BitVec n) (y : BitVec m) (lo len : Nat) (h : lo + len ≤ m) :
    fld (x ++ y) lo len = fld y lo len := by
  simp only [fld]
  apply BitVec.eq_of_getLsbD_eq
  intro i hi
  simp only [BitVec.getLsbD_extractLsb', BitVec.getLsbD_append, hi, decide_true, Bool.true_and]
  rw [if_pos (by omega)]

theorem fld_append_high {n m : Nat} (x : BitVec n) (y : BitVec m) (lo len : Nat) (h : m ≤ lo) :
    fld (x ++ y) lo len = fld x (lo - m) len := by
  simp only [fld]
  apply BitVec.eq_of_getLsbD_eq
  intro i hi
  simp only [BitVec.getLsbD_extractLsb', BitVec.getLsbD_append, hi, decide_true, Bool.true_and]
  rw [if_neg (by omega)]
  congr 1; omega

theorem fld_all {n : Nat} (x : BitVec n) : fld x 0 n = x := by simp [fld]

theorem fld_zero {n : Nat} (lo len : Nat) : fld (0#n) lo len = 0#len := by simp [fld]

/-- Adjacent fields make one. -/
theorem fld_append_fld {n : Nat} (w : BitVec n) (lo a b : Nat) : fld w (lo + b) a ++ fld w lo b = fld w lo (a + b) := by
  simp only [fld]
  apply BitVec.eq_of_getLsbD_eq
  intro i hi
  simp only [BitVec.getLsbD_append, BitVec.getLsbD_extractLsb']
  split
  · rename_i h; rw [decide_eq_true h, decide_eq_true hi]
  · rename_i h
    rw [show lo + b + (i - b) = lo + i by omega, decide_eq_true hi, decide_eq_true (by omega : i - b < a)]

/-- A field of a field. -/
theorem fld_fld {n : Nat} (w : BitVec n) (lo len a b : Nat) (h : a + b ≤ len) :
    fld (fld w lo len) a b = fld w (lo + a) b := by
  simp only [fld]
  apply BitVec.eq_of_getLsbD_eq
  intro i hi
  simp only [BitVec.getLsbD_extractLsb', hi, decide_true, Bool.true_and]
  rw [decide_eq_true (by omega), Bool.true_and, Nat.add_assoc]

end Sys2Proof
end

