-- ==== Sys2Proof/Laws/PerInstr.lean ====
section
/-! SUPPORT. Decode and encode agree, one lemma per constructor of Instr. -/
set_option linter.unusedSimpArgs false

namespace Sys2Proof.Laws.Encoding

/-- Decoding the word of a well-formed instruction in a slot of its class gives it back, and so does decoding a
microword; a step of another agent has no word. -/
def Statement (i : Instr) : Prop :=
  i.wf = true →
    (∀ k, homeSlot i = some k → ∃ w, encode i = some w ∧ decodeClass (classOf k) w = some i) ∧
    (∀ w, encodeMicro i = some w → decodeMicro w = some i)

theorem of_slot {i : Instr} {k : Nat} {w : SlotWord} (hk : homeSlot i = some k) (he : encode i = some w)
    (hm : encodeMicro i = none) (hd : i.wf = true → decodeClass (classOf k) w = some i) : Statement i := by
  refine fun hw => ⟨fun k' hk' => ⟨w, he, ?_⟩, fun w' h' => ?_⟩
  · rw [hk] at hk'; cases hk'; exact hd hw
  · rw [hm] at h'; cases h'

theorem of_micro {i : Instr} {w : Word} (hk : homeSlot i = none) (hm : encodeMicro i = some w)
    (hd : i.wf = true → decodeMicro w = some i) : Statement i := by
  refine fun hw => ⟨fun k' hk' => ?_, fun w' h' => ?_⟩
  · rw [hk] at hk'; cases hk'
  · rw [hm] at h'; cases h'; exact hd hw

theorem of_event {i : Instr} (hk : homeSlot i = none) (hm : encodeMicro i = none) : Statement i := by
  refine fun _ => ⟨fun k' hk' => ?_, fun w' h' => ?_⟩
  · rw [hk] at hk'; cases hk'
  · rw [hm] at h'; cases h'

theorem filter_wf {r : Option Instr} {i : Instr} (h : r = some i) (hw : i.wf = true) : r.filter Instr.wf = some i := by
  rw [h]; simp [hw]

/-- PWAIT's opcode is four bits long: opcodes 60 to 63. -/
theorem pwait_decodes (g f e d c b a : BitVec 4) (hw : (Instr.pwait g f e d c b a).wf = true) :
    decodeClass .control (15#4 ++ g ++ f ++ e ++ d ++ c ++ b ++ a : SlotWord) = some (.pwait g f e d c b a) := by
  have h : opcode (15#4 ++ g ++ f ++ e ++ d ++ c ++ b ++ a : SlotWord) = (fld (15#4 ++ g) 2 6).toNat := by
    simp (disch := decide) only [opcode, fld_append_low, fld_append_high, Nat.reduceSub]
  have r : rawControl (15#4 ++ g ++ f ++ e ++ d ++ c ++ b ++ a : SlotWord) = some (.pwait g f e d c b a) := by
    have hg : ∀ g : BitVec 4, (fld (15#4 ++ g) 2 6).toNat = 60 ∨ (fld (15#4 ++ g) 2 6).toNat = 61 ∨
        (fld (15#4 ++ g) 2 6).toNat = 62 ∨ (fld (15#4 ++ g) 2 6).toNat = 63 := by decide
    unfold rawControl
    rcases hg g with hg | hg | hg | hg <;>
      · rw [hg] at h
        simp (disch := decide) only [h, fld_append_low, fld_append_high, fld_all, Nat.reduceSub]
  exact filter_wf r hw

end Sys2Proof.Laws.Encoding

open Sys2Proof Sys2Proof.Laws.Encoding

theorem Sys2Proof.Laws.Encoding.nop : Statement (.nop) := by
  refine of_slot (k := 0) (w := 0#32) rfl rfl rfl (fun _ => by decide)

theorem Sys2Proof.Laws.Encoding.br (n : BitVec 1) (f : BitVec 4) (o : BitVec 16) : Statement (.br n f o) := by
  refine of_slot (k := 0) (w := 1#6 ++ n ++ f ++ 0#5 ++ o) rfl rfl rfl (fun hw => ?_)
  have op : opcode (1#6 ++ n ++ f ++ 0#5 ++ o : SlotWord) = 1 := by simp (disch := decide) only [opcode, fld_append_low, fld_append_high, fld_all, Nat.reduceSub, BitVec.toNat_ofNat, Nat.reducePow, Nat.reduceMod]
  have r : rawControl (1#6 ++ n ++ f ++ 0#5 ++ o : SlotWord) = some (.br n f o) := by
    unfold rawControl; simp (disch := decide) only [op, fld_append_low, fld_append_high, fld_all, fld_zero, Nat.reduceSub, if_true, if_false, BitVec.reduceEq, and_self, false_and]
  exact filter_wf r hw

theorem Sys2Proof.Laws.Encoding.bem (o : BitVec 16) : Statement (.bem o) := by
  refine of_slot (k := 0) (w := 2#6 ++ 0#10 ++ o) rfl rfl rfl (fun hw => ?_)
  have op : opcode (2#6 ++ 0#10 ++ o : SlotWord) = 2 := by simp (disch := decide) only [opcode, fld_append_low, fld_append_high, fld_all, Nat.reduceSub, BitVec.toNat_ofNat, Nat.reducePow, Nat.reduceMod]
  have r : rawControl (2#6 ++ 0#10 ++ o : SlotWord) = some (.bem o) := by
    unfold rawControl; simp (disch := decide) only [op, fld_append_low, fld_append_high, fld_all, fld_zero, Nat.reduceSub, if_true, if_false, BitVec.reduceEq, and_self, false_and]
  exact filter_wf r hw

theorem Sys2Proof.Laws.Encoding.bnem (o : BitVec 16) : Statement (.bnem o) := by
  refine of_slot (k := 0) (w := 2#6 ++ 512#10 ++ o) rfl rfl rfl (fun hw => ?_)
  have op : opcode (2#6 ++ 512#10 ++ o : SlotWord) = 2 := by simp (disch := decide) only [opcode, fld_append_low, fld_append_high, fld_all, Nat.reduceSub, BitVec.toNat_ofNat, Nat.reducePow, Nat.reduceMod]
  have r : rawControl (2#6 ++ 512#10 ++ o : SlotWord) = some (.bnem o) := by
    unfold rawControl; simp (disch := decide) only [op, fld_append_low, fld_append_high, fld_all, fld_zero, Nat.reduceSub, if_true, if_false, BitVec.reduceEq, and_self, false_and]
  exact filter_wf r hw

theorem Sys2Proof.Laws.Encoding.call (d : BitVec 5) (o : BitVec 16) : Statement (.call d o) := by
  refine of_slot (k := 0) (w := 3#6 ++ d ++ 0#5 ++ o) rfl rfl rfl (fun hw => ?_)
  have op : opcode (3#6 ++ d ++ 0#5 ++ o : SlotWord) = 3 := by simp (disch := decide) only [opcode, fld_append_low, fld_append_high, fld_all, Nat.reduceSub, BitVec.toNat_ofNat, Nat.reducePow, Nat.reduceMod]
  have r : rawControl (3#6 ++ d ++ 0#5 ++ o : SlotWord) = some (.call d o) := by
    unfold rawControl; simp (disch := decide) only [op, fld_append_low, fld_append_high, fld_all, fld_zero, Nat.reduceSub, if_true, if_false, BitVec.reduceEq, and_self, false_and]
  exact filter_wf r hw

theorem Sys2Proof.Laws.Encoding.ret (a : BitVec 5) : Statement (.ret a) := by
  refine of_slot (k := 0) (w := 4#6 ++ a ++ 0#21) rfl rfl rfl (fun hw => ?_)
  have op : opcode (4#6 ++ a ++ 0#21 : SlotWord) = 4 := by simp (disch := decide) only [opcode, fld_append_low, fld_append_high, fld_all, Nat.reduceSub, BitVec.toNat_ofNat, Nat.reducePow, Nat.reduceMod]
  have r : rawControl (4#6 ++ a ++ 0#21 : SlotWord) = some (.ret a) := by
    unfold rawControl; simp (disch := decide) only [op, fld_append_low, fld_append_high, fld_all, fld_zero, Nat.reduceSub, if_true, if_false, BitVec.reduceEq, and_self, false_and]
  exact filter_wf r hw

theorem Sys2Proof.Laws.Encoding.sjmp (n : BitVec 1) (f : BitVec 4) (a : BitVec 5) : Statement (.sjmp n f a) := by
  refine of_slot (k := 0) (w := 5#6 ++ n ++ f ++ a ++ 0#16) rfl rfl rfl (fun hw => ?_)
  have op : opcode (5#6 ++ n ++ f ++ a ++ 0#16 : SlotWord) = 5 := by simp (disch := decide) only [opcode, fld_append_low, fld_append_high, fld_all, Nat.reduceSub, BitVec.toNat_ofNat, Nat.reducePow, Nat.reduceMod]
  have r : rawControl (5#6 ++ n ++ f ++ a ++ 0#16 : SlotWord) = some (.sjmp n f a) := by
    unfold rawControl; simp (disch := decide) only [op, fld_append_low, fld_append_high, fld_all, fld_zero, Nat.reduceSub, if_true, if_false, BitVec.reduceEq, and_self, false_and]
  exact filter_wf r hw

theorem Sys2Proof.Laws.Encoding.loop (c : BitVec 3) (a : BitVec 5) (l : BitVec 9) (m : BitVec 4) : Statement (.loop c a l m) := by
  refine of_slot (k := 0) (w := 8#6 ++ c ++ a ++ 0#5 ++ l ++ m) rfl rfl rfl (fun hw => ?_)
  have op : opcode (8#6 ++ c ++ a ++ 0#5 ++ l ++ m : SlotWord) = 8 := by simp (disch := decide) only [opcode, fld_append_low, fld_append_high, fld_all, Nat.reduceSub, BitVec.toNat_ofNat, Nat.reducePow, Nat.reduceMod]
  have r : rawControl (8#6 ++ c ++ a ++ 0#5 ++ l ++ m : SlotWord) = some (.loop c a l m) := by
    unfold rawControl; simp (disch := decide) only [op, fld_append_low, fld_append_high, fld_all, fld_zero, Nat.reduceSub, if_true, if_false, BitVec.reduceEq, and_self, false_and]
  exact filter_wf r hw

theorem Sys2Proof.Laws.Encoding.loopi (c : BitVec 3) (t : BitVec 10) (l : BitVec 9) (m : BitVec 4) : Statement (.loopi c t l m) := by
  refine of_slot (k := 0) (w := 9#6 ++ c ++ t ++ l ++ m) rfl rfl rfl (fun hw => ?_)
  have op : opcode (9#6 ++ c ++ t ++ l ++ m : SlotWord) = 9 := by simp (disch := decide) only [opcode, fld_append_low, fld_append_high, fld_all, Nat.reduceSub, BitVec.toNat_ofNat, Nat.reducePow, Nat.reduceMod]
  have r : rawControl (9#6 ++ c ++ t ++ l ++ m : SlotWord) = some (.loopi c t l m) := by
    unfold rawControl; simp (disch := decide) only [op, fld_append_low, fld_append_high, fld_all, fld_zero, Nat.reduceSub, if_true, if_false, BitVec.reduceEq, and_self, false_and]
  exact filter_wf r hw

theorem Sys2Proof.Laws.Encoding.igate (c : BitVec 3) (w : BitVec 2) (s : BitVec 7) : Statement (.igate c w s) := by
  refine of_slot (k := 0) (w := 10#6 ++ c ++ w ++ s ++ 0#14) rfl rfl rfl (fun hw => ?_)
  have op : opcode (10#6 ++ c ++ w ++ s ++ 0#14 : SlotWord) = 10 := by simp (disch := decide) only [opcode, fld_append_low, fld_append_high, fld_all, Nat.reduceSub, BitVec.toNat_ofNat, Nat.reducePow, Nat.reduceMod]
  have r : rawControl (10#6 ++ c ++ w ++ s ++ 0#14 : SlotWord) = some (.igate c w s) := by
    unfold rawControl; simp (disch := decide) only [op, fld_append_low, fld_append_high, fld_all, fld_zero, Nat.reduceSub, if_true, if_false, BitVec.reduceEq, and_self, false_and]
  exact filter_wf r hw

theorem Sys2Proof.Laws.Encoding.rwait (q : BitVec 4) (w : BitVec 1) (n : BitVec 8) : Statement (.rwait q w n) := by
  refine of_slot (k := 0) (w := 16#6 ++ q ++ w ++ 0#1 ++ n ++ 0#12) rfl rfl rfl (fun hw => ?_)
  have op : opcode (16#6 ++ q ++ w ++ 0#1 ++ n ++ 0#12 : SlotWord) = 16 := by simp (disch := decide) only [opcode, fld_append_low, fld_append_high, fld_all, Nat.reduceSub, BitVec.toNat_ofNat, Nat.reducePow, Nat.reduceMod]
  have r : rawControl (16#6 ++ q ++ w ++ 0#1 ++ n ++ 0#12 : SlotWord) = some (.rwait q w n) := by
    unfold rawControl; simp (disch := decide) only [op, fld_append_low, fld_append_high, fld_all, fld_zero, Nat.reduceSub, if_true, if_false, BitVec.reduceEq, and_self, false_and]
  exact filter_wf r hw

theorem Sys2Proof.Laws.Encoding.bindf (f : BitVec 4) (e : BitVec 6) (i : BitVec 8) : Statement (.bindf f e i) := by
  refine of_slot (k := 0) (w := 17#6 ++ f ++ e ++ i ++ 0#8) rfl rfl rfl (fun hw => ?_)
  have op : opcode (17#6 ++ f ++ e ++ i ++ 0#8 : SlotWord) = 17 := by simp (disch := decide) only [opcode, fld_append_low, fld_append_high, fld_all, Nat.reduceSub, BitVec.toNat_ofNat, Nat.reducePow, Nat.reduceMod]
  have r : rawControl (17#6 ++ f ++ e ++ i ++ 0#8 : SlotWord) = some (.bindf f e i) := by
    unfold rawControl; simp (disch := decide) only [op, fld_append_low, fld_append_high, fld_all, fld_zero, Nat.reduceSub, if_true, if_false, BitVec.reduceEq, and_self, false_and]
  exact filter_wf r hw

theorem Sys2Proof.Laws.Encoding.yield : Statement (.yield) := by
  refine of_slot (k := 0) (w := 18#6 ++ 0#26) rfl rfl rfl (fun hw => ?_)
  have op : opcode (18#6 ++ 0#26 : SlotWord) = 18 := by simp (disch := decide) only [opcode, fld_append_low, fld_append_high, fld_all, Nat.reduceSub, BitVec.toNat_ofNat, Nat.reducePow, Nat.reduceMod]
  have r : rawControl (18#6 ++ 0#26 : SlotWord) = some (.yield) := by
    unfold rawControl; simp (disch := decide) only [op, fld_append_low, fld_append_high, fld_all, fld_zero, Nat.reduceSub, if_true, if_false, BitVec.reduceEq, and_self, false_and]
  exact filter_wf r hw

theorem Sys2Proof.Laws.Encoding.exit : Statement (.exit) := by
  refine of_slot (k := 0) (w := 19#6 ++ 0#26) rfl rfl rfl (fun hw => ?_)
  have op : opcode (19#6 ++ 0#26 : SlotWord) = 19 := by simp (disch := decide) only [opcode, fld_append_low, fld_append_high, fld_all, Nat.reduceSub, BitVec.toNat_ofNat, Nat.reducePow, Nat.reduceMod]
  have r : rawControl (19#6 ++ 0#26 : SlotWord) = some (.exit) := by
    unfold rawControl; simp (disch := decide) only [op, fld_append_low, fld_append_high, fld_all, fld_zero, Nat.reduceSub, if_true, if_false, BitVec.reduceEq, and_self, false_and]
  exact filter_wf r hw

theorem Sys2Proof.Laws.Encoding.spawn (a : BitVec 5) (r : BitVec 2) : Statement (.spawn a r) := by
  refine of_slot (k := 0) (w := 24#6 ++ a ++ r ++ 0#19) rfl rfl rfl (fun hw => ?_)
  have op : opcode (24#6 ++ a ++ r ++ 0#19 : SlotWord) = 24 := by simp (disch := decide) only [opcode, fld_append_low, fld_append_high, fld_all, Nat.reduceSub, BitVec.toNat_ofNat, Nat.reducePow, Nat.reduceMod]
  have r : rawControl (24#6 ++ a ++ r ++ 0#19 : SlotWord) = some (.spawn a r) := by
    unfold rawControl; simp (disch := decide) only [op, fld_append_low, fld_append_high, fld_all, fld_zero, Nat.reduceSub, if_true, if_false, BitVec.reduceEq, and_self, false_and]
  exact filter_wf r hw

theorem Sys2Proof.Laws.Encoding.spawns (d : BitVec 5) (a : BitVec 5) (b : BitVec 5) (r : BitVec 2) : Statement (.spawns d a b r) := by
  refine of_slot (k := 0) (w := 25#6 ++ d ++ a ++ b ++ r ++ 0#9) rfl rfl rfl (fun hw => ?_)
  have op : opcode (25#6 ++ d ++ a ++ b ++ r ++ 0#9 : SlotWord) = 25 := by simp (disch := decide) only [opcode, fld_append_low, fld_append_high, fld_all, Nat.reduceSub, BitVec.toNat_ofNat, Nat.reducePow, Nat.reduceMod]
  have r : rawControl (25#6 ++ d ++ a ++ b ++ r ++ 0#9 : SlotWord) = some (.spawns d a b r) := by
    unfold rawControl; simp (disch := decide) only [op, fld_append_low, fld_append_high, fld_all, fld_zero, Nat.reduceSub, if_true, if_false, BitVec.reduceEq, and_self, false_and]
  exact filter_wf r hw

theorem Sys2Proof.Laws.Encoding.decide (a : BitVec 5) (b : BitVec 5) : Statement (.decide a b) := by
  refine of_slot (k := 0) (w := 26#6 ++ a ++ b ++ 0#16) rfl rfl rfl (fun hw => ?_)
  have op : opcode (26#6 ++ a ++ b ++ 0#16 : SlotWord) = 26 := by simp (disch := decide) only [opcode, fld_append_low, fld_append_high, fld_all, Nat.reduceSub, BitVec.toNat_ofNat, Nat.reducePow, Nat.reduceMod]
  have r : rawControl (26#6 ++ a ++ b ++ 0#16 : SlotWord) = some (.decide a b) := by
    unfold rawControl; simp (disch := decide) only [op, fld_append_low, fld_append_high, fld_all, fld_zero, Nat.reduceSub, if_true, if_false, BitVec.reduceEq, and_self, false_and]
  exact filter_wf r hw

theorem Sys2Proof.Laws.Encoding.oppt (t : BitVec 3) : Statement (.oppt t) := by
  refine of_slot (k := 0) (w := 32#6 ++ t ++ 0#23) rfl rfl rfl (fun hw => ?_)
  have op : opcode (32#6 ++ t ++ 0#23 : SlotWord) = 32 := by simp (disch := decide) only [opcode, fld_append_low, fld_append_high, fld_all, Nat.reduceSub, BitVec.toNat_ofNat, Nat.reducePow, Nat.reduceMod]
  have r : rawControl (32#6 ++ t ++ 0#23 : SlotWord) = some (.oppt t) := by
    unfold rawControl; simp (disch := decide) only [op, fld_append_low, fld_append_high, fld_all, fld_zero, Nat.reduceSub, if_true, if_false, BitVec.reduceEq, and_self, false_and]
  exact filter_wf r hw

theorem Sys2Proof.Laws.Encoding.hint (h : BitVec 2) : Statement (.hint h) := by
  refine of_slot (k := 0) (w := 33#6 ++ h ++ 0#24) rfl rfl rfl (fun hw => ?_)
  have op : opcode (33#6 ++ h ++ 0#24 : SlotWord) = 33 := by simp (disch := decide) only [opcode, fld_append_low, fld_append_high, fld_all, Nat.reduceSub, BitVec.toNat_ofNat, Nat.reducePow, Nat.reduceMod]
  have r : rawControl (33#6 ++ h ++ 0#24 : SlotWord) = some (.hint h) := by
    unfold rawControl; simp (disch := decide) only [op, fld_append_low, fld_append_high, fld_all, fld_zero, Nat.reduceSub, if_true, if_false, BitVec.reduceEq, and_self, false_and]
  exact filter_wf r hw

theorem Sys2Proof.Laws.Encoding.sbar (m : BitVec 3) : Statement (.sbar m) := by
  refine of_slot (k := 0) (w := 34#6 ++ m ++ 0#23) rfl rfl rfl (fun hw => ?_)
  have op : opcode (34#6 ++ m ++ 0#23 : SlotWord) = 34 := by simp (disch := decide) only [opcode, fld_append_low, fld_append_high, fld_all, Nat.reduceSub, BitVec.toNat_ofNat, Nat.reducePow, Nat.reduceMod]
  have r : rawControl (34#6 ++ m ++ 0#23 : SlotWord) = some (.sbar m) := by
    unfold rawControl; simp (disch := decide) only [op, fld_append_low, fld_append_high, fld_all, fld_zero, Nat.reduceSub, if_true, if_false, BitVec.reduceEq, and_self, false_and]
  exact filter_wf r hw

theorem Sys2Proof.Laws.Encoding.grow (n : BitVec 3) : Statement (.grow n) := by
  refine of_slot (k := 0) (w := 35#6 ++ n ++ 0#23) rfl rfl rfl (fun hw => ?_)
  have op : opcode (35#6 ++ n ++ 0#23 : SlotWord) = 35 := by simp (disch := decide) only [opcode, fld_append_low, fld_append_high, fld_all, Nat.reduceSub, BitVec.toNat_ofNat, Nat.reducePow, Nat.reduceMod]
  have r : rawControl (35#6 ++ n ++ 0#23 : SlotWord) = some (.grow n) := by
    unfold rawControl; simp (disch := decide) only [op, fld_append_low, fld_append_high, fld_all, fld_zero, Nat.reduceSub, if_true, if_false, BitVec.reduceEq, and_self, false_and]
  exact filter_wf r hw

theorem Sys2Proof.Laws.Encoding.shrink (n : BitVec 3) : Statement (.shrink n) := by
  refine of_slot (k := 0) (w := 36#6 ++ n ++ 0#23) rfl rfl rfl (fun hw => ?_)
  have op : opcode (36#6 ++ n ++ 0#23 : SlotWord) = 36 := by simp (disch := decide) only [opcode, fld_append_low, fld_append_high, fld_all, Nat.reduceSub, BitVec.toNat_ofNat, Nat.reducePow, Nat.reduceMod]
  have r : rawControl (36#6 ++ n ++ 0#23 : SlotWord) = some (.shrink n) := by
    unfold rawControl; simp (disch := decide) only [op, fld_append_low, fld_append_high, fld_all, fld_zero, Nat.reduceSub, if_true, if_false, BitVec.reduceEq, and_self, false_and]
  exact filter_wf r hw

theorem Sys2Proof.Laws.Encoding.trap (c : BitVec 8) : Statement (.trap c) := by
  refine of_slot (k := 0) (w := 40#6 ++ c ++ 0#18) rfl rfl rfl (fun hw => ?_)
  have op : opcode (40#6 ++ c ++ 0#18 : SlotWord) = 40 := by simp (disch := decide) only [opcode, fld_append_low, fld_append_high, fld_all, Nat.reduceSub, BitVec.toNat_ofNat, Nat.reducePow, Nat.reduceMod]
  have r : rawControl (40#6 ++ c ++ 0#18 : SlotWord) = some (.trap c) := by
    unfold rawControl; simp (disch := decide) only [op, fld_append_low, fld_append_high, fld_all, fld_zero, Nat.reduceSub, if_true, if_false, BitVec.reduceEq, and_self, false_and]
  exact filter_wf r hw

theorem Sys2Proof.Laws.Encoding.eret : Statement (.eret) := by
  refine of_slot (k := 0) (w := 41#6 ++ 0#26) rfl rfl rfl (fun hw => ?_)
  have op : opcode (41#6 ++ 0#26 : SlotWord) = 41 := by simp (disch := decide) only [opcode, fld_append_low, fld_append_high, fld_all, Nat.reduceSub, BitVec.toNat_ofNat, Nat.reducePow, Nat.reduceMod]
  have r : rawControl (41#6 ++ 0#26 : SlotWord) = some (.eret) := by
    unfold rawControl; simp (disch := decide) only [op, fld_append_low, fld_append_high, fld_all, fld_zero, Nat.reduceSub, if_true, if_false, BitVec.reduceEq, and_self, false_and]
  exact filter_wf r hw

theorem Sys2Proof.Laws.Encoding.srr (d : BitVec 5) (s : BitVec 12) : Statement (.srr d s) := by
  refine of_slot (k := 0) (w := 42#6 ++ d ++ s ++ 0#9) rfl rfl rfl (fun hw => ?_)
  have op : opcode (42#6 ++ d ++ s ++ 0#9 : SlotWord) = 42 := by simp (disch := decide) only [opcode, fld_append_low, fld_append_high, fld_all, Nat.reduceSub, BitVec.toNat_ofNat, Nat.reducePow, Nat.reduceMod]
  have r : rawControl (42#6 ++ d ++ s ++ 0#9 : SlotWord) = some (.srr d s) := by
    unfold rawControl; simp (disch := decide) only [op, fld_append_low, fld_append_high, fld_all, fld_zero, Nat.reduceSub, if_true, if_false, BitVec.reduceEq, and_self, false_and]
  exact filter_wf r hw

theorem Sys2Proof.Laws.Encoding.srw (a : BitVec 5) (s : BitVec 12) : Statement (.srw a s) := by
  refine of_slot (k := 0) (w := 43#6 ++ a ++ s ++ 0#9) rfl rfl rfl (fun hw => ?_)
  have op : opcode (43#6 ++ a ++ s ++ 0#9 : SlotWord) = 43 := by simp (disch := decide) only [opcode, fld_append_low, fld_append_high, fld_all, Nat.reduceSub, BitVec.toNat_ofNat, Nat.reducePow, Nat.reduceMod]
  have r : rawControl (43#6 ++ a ++ s ++ 0#9 : SlotWord) = some (.srw a s) := by
    unfold rawControl; simp (disch := decide) only [op, fld_append_low, fld_append_high, fld_all, fld_zero, Nat.reduceSub, if_true, if_false, BitVec.reduceEq, and_self, false_and]
  exact filter_wf r hw

theorem Sys2Proof.Laws.Encoding.halt : Statement (.halt) := by
  refine of_slot (k := 0) (w := 44#6 ++ 0#26) rfl rfl rfl (fun hw => ?_)
  have op : opcode (44#6 ++ 0#26 : SlotWord) = 44 := by simp (disch := decide) only [opcode, fld_append_low, fld_append_high, fld_all, Nat.reduceSub, BitVec.toNat_ofNat, Nat.reducePow, Nat.reduceMod]
  have r : rawControl (44#6 ++ 0#26 : SlotWord) = some (.halt) := by
    unfold rawControl; simp (disch := decide) only [op, fld_append_low, fld_append_high, fld_all, fld_zero, Nat.reduceSub, if_true, if_false, BitVec.reduceEq, and_self, false_and]
  exact filter_wf r hw

theorem Sys2Proof.Laws.Encoding.pwait (g : BitVec 4) (f : BitVec 4) (e : BitVec 4) (d : BitVec 4) (c : BitVec 4) (b : BitVec 4) (a : BitVec 4) : Statement (.pwait g f e d c b a) := by
  refine of_slot (k := 0) (w := 15#4 ++ g ++ f ++ e ++ d ++ c ++ b ++ a) rfl rfl rfl (fun hw => ?_)
  exact pwait_decodes g f e d c b a hw

theorem Sys2Proof.Laws.Encoding.add (p : BitVec 4) (d : BitVec 5) (a : BitVec 5) (b : BitVec 5) : Statement (.add p d a b) := by
  refine of_slot (k := 1) (w := 1#6 ++ p ++ d ++ a ++ b ++ 0#7) rfl rfl rfl (fun hw => ?_)
  have op : opcode (1#6 ++ p ++ d ++ a ++ b ++ 0#7 : SlotWord) = 1 := by simp (disch := decide) only [opcode, fld_append_low, fld_append_high, fld_all, Nat.reduceSub, BitVec.toNat_ofNat, Nat.reducePow, Nat.reduceMod]
  have r : rawScalar (1#6 ++ p ++ d ++ a ++ b ++ 0#7 : SlotWord) = some (.add p d a b) := by
    unfold rawScalar; simp (disch := decide) only [op, fld_append_low, fld_append_high, fld_all, fld_zero, Nat.reduceSub, if_true, if_false, BitVec.reduceEq, and_self, false_and]
  exact filter_wf r hw

theorem Sys2Proof.Laws.Encoding.sub (p : BitVec 4) (d : BitVec 5) (a : BitVec 5) (b : BitVec 5) : Statement (.sub p d a b) := by
  refine of_slot (k := 1) (w := 2#6 ++ p ++ d ++ a ++ b ++ 0#7) rfl rfl rfl (fun hw => ?_)
  have op : opcode (2#6 ++ p ++ d ++ a ++ b ++ 0#7 : SlotWord) = 2 := by simp (disch := decide) only [opcode, fld_append_low, fld_append_high, fld_all, Nat.reduceSub, BitVec.toNat_ofNat, Nat.reducePow, Nat.reduceMod]
  have r : rawScalar (2#6 ++ p ++ d ++ a ++ b ++ 0#7 : SlotWord) = some (.sub p d a b) := by
    unfold rawScalar; simp (disch := decide) only [op, fld_append_low, fld_append_high, fld_all, fld_zero, Nat.reduceSub, if_true, if_false, BitVec.reduceEq, and_self, false_and]
  exact filter_wf r hw

theorem Sys2Proof.Laws.Encoding.and (p : BitVec 4) (d : BitVec 5) (a : BitVec 5) (b : BitVec 5) : Statement (.and p d a b) := by
  refine of_slot (k := 1) (w := 3#6 ++ p ++ d ++ a ++ b ++ 0#7) rfl rfl rfl (fun hw => ?_)
  have op : opcode (3#6 ++ p ++ d ++ a ++ b ++ 0#7 : SlotWord) = 3 := by simp (disch := decide) only [opcode, fld_append_low, fld_append_high, fld_all, Nat.reduceSub, BitVec.toNat_ofNat, Nat.reducePow, Nat.reduceMod]
  have r : rawScalar (3#6 ++ p ++ d ++ a ++ b ++ 0#7 : SlotWord) = some (.and p d a b) := by
    unfold rawScalar; simp (disch := decide) only [op, fld_append_low, fld_append_high, fld_all, fld_zero, Nat.reduceSub, if_true, if_false, BitVec.reduceEq, and_self, false_and]
  exact filter_wf r hw

theorem Sys2Proof.Laws.Encoding.or (p : BitVec 4) (d : BitVec 5) (a : BitVec 5) (b : BitVec 5) : Statement (.or p d a b) := by
  refine of_slot (k := 1) (w := 4#6 ++ p ++ d ++ a ++ b ++ 0#7) rfl rfl rfl (fun hw => ?_)
  have op : opcode (4#6 ++ p ++ d ++ a ++ b ++ 0#7 : SlotWord) = 4 := by simp (disch := decide) only [opcode, fld_append_low, fld_append_high, fld_all, Nat.reduceSub, BitVec.toNat_ofNat, Nat.reducePow, Nat.reduceMod]
  have r : rawScalar (4#6 ++ p ++ d ++ a ++ b ++ 0#7 : SlotWord) = some (.or p d a b) := by
    unfold rawScalar; simp (disch := decide) only [op, fld_append_low, fld_append_high, fld_all, fld_zero, Nat.reduceSub, if_true, if_false, BitVec.reduceEq, and_self, false_and]
  exact filter_wf r hw

theorem Sys2Proof.Laws.Encoding.xor (p : BitVec 4) (d : BitVec 5) (a : BitVec 5) (b : BitVec 5) : Statement (.xor p d a b) := by
  refine of_slot (k := 1) (w := 5#6 ++ p ++ d ++ a ++ b ++ 0#7) rfl rfl rfl (fun hw => ?_)
  have op : opcode (5#6 ++ p ++ d ++ a ++ b ++ 0#7 : SlotWord) = 5 := by simp (disch := decide) only [opcode, fld_append_low, fld_append_high, fld_all, Nat.reduceSub, BitVec.toNat_ofNat, Nat.reducePow, Nat.reduceMod]
  have r : rawScalar (5#6 ++ p ++ d ++ a ++ b ++ 0#7 : SlotWord) = some (.xor p d a b) := by
    unfold rawScalar; simp (disch := decide) only [op, fld_append_low, fld_append_high, fld_all, fld_zero, Nat.reduceSub, if_true, if_false, BitVec.reduceEq, and_self, false_and]
  exact filter_wf r hw

theorem Sys2Proof.Laws.Encoding.andn (p : BitVec 4) (d : BitVec 5) (a : BitVec 5) (b : BitVec 5) : Statement (.andn p d a b) := by
  refine of_slot (k := 1) (w := 6#6 ++ p ++ d ++ a ++ b ++ 0#7) rfl rfl rfl (fun hw => ?_)
  have op : opcode (6#6 ++ p ++ d ++ a ++ b ++ 0#7 : SlotWord) = 6 := by simp (disch := decide) only [opcode, fld_append_low, fld_append_high, fld_all, Nat.reduceSub, BitVec.toNat_ofNat, Nat.reducePow, Nat.reduceMod]
  have r : rawScalar (6#6 ++ p ++ d ++ a ++ b ++ 0#7 : SlotWord) = some (.andn p d a b) := by
    unfold rawScalar; simp (disch := decide) only [op, fld_append_low, fld_append_high, fld_all, fld_zero, Nat.reduceSub, if_true, if_false, BitVec.reduceEq, and_self, false_and]
  exact filter_wf r hw

theorem Sys2Proof.Laws.Encoding.shl (p : BitVec 4) (d : BitVec 5) (a : BitVec 5) (b : BitVec 5) : Statement (.shl p d a b) := by
  refine of_slot (k := 1) (w := 8#6 ++ p ++ d ++ a ++ b ++ 0#7) rfl rfl rfl (fun hw => ?_)
  have op : opcode (8#6 ++ p ++ d ++ a ++ b ++ 0#7 : SlotWord) = 8 := by simp (disch := decide) only [opcode, fld_append_low, fld_append_high, fld_all, Nat.reduceSub, BitVec.toNat_ofNat, Nat.reducePow, Nat.reduceMod]
  have r : rawScalar (8#6 ++ p ++ d ++ a ++ b ++ 0#7 : SlotWord) = some (.shl p d a b) := by
    unfold rawScalar; simp (disch := decide) only [op, fld_append_low, fld_append_high, fld_all, fld_zero, Nat.reduceSub, if_true, if_false, BitVec.reduceEq, and_self, false_and]
  exact filter_wf r hw

theorem Sys2Proof.Laws.Encoding.shr (p : BitVec 4) (d : BitVec 5) (a : BitVec 5) (b : BitVec 5) : Statement (.shr p d a b) := by
  refine of_slot (k := 1) (w := 9#6 ++ p ++ d ++ a ++ b ++ 0#7) rfl rfl rfl (fun hw => ?_)
  have op : opcode (9#6 ++ p ++ d ++ a ++ b ++ 0#7 : SlotWord) = 9 := by simp (disch := decide) only [opcode, fld_append_low, fld_append_high, fld_all, Nat.reduceSub, BitVec.toNat_ofNat, Nat.reducePow, Nat.reduceMod]
  have r : rawScalar (9#6 ++ p ++ d ++ a ++ b ++ 0#7 : SlotWord) = some (.shr p d a b) := by
    unfold rawScalar; simp (disch := decide) only [op, fld_append_low, fld_append_high, fld_all, fld_zero, Nat.reduceSub, if_true, if_false, BitVec.reduceEq, and_self, false_and]
  exact filter_wf r hw

theorem Sys2Proof.Laws.Encoding.sar (p : BitVec 4) (d : BitVec 5) (a : BitVec 5) (b : BitVec 5) : Statement (.sar p d a b) := by
  refine of_slot (k := 1) (w := 10#6 ++ p ++ d ++ a ++ b ++ 0#7) rfl rfl rfl (fun hw => ?_)
  have op : opcode (10#6 ++ p ++ d ++ a ++ b ++ 0#7 : SlotWord) = 10 := by simp (disch := decide) only [opcode, fld_append_low, fld_append_high, fld_all, Nat.reduceSub, BitVec.toNat_ofNat, Nat.reducePow, Nat.reduceMod]
  have r : rawScalar (10#6 ++ p ++ d ++ a ++ b ++ 0#7 : SlotWord) = some (.sar p d a b) := by
    unfold rawScalar; simp (disch := decide) only [op, fld_append_low, fld_append_high, fld_all, fld_zero, Nat.reduceSub, if_true, if_false, BitVec.reduceEq, and_self, false_and]
  exact filter_wf r hw

theorem Sys2Proof.Laws.Encoding.ror (p : BitVec 4) (d : BitVec 5) (a : BitVec 5) (b : BitVec 5) : Statement (.ror p d a b) := by
  refine of_slot (k := 1) (w := 11#6 ++ p ++ d ++ a ++ b ++ 0#7) rfl rfl rfl (fun hw => ?_)
  have op : opcode (11#6 ++ p ++ d ++ a ++ b ++ 0#7 : SlotWord) = 11 := by simp (disch := decide) only [opcode, fld_append_low, fld_append_high, fld_all, Nat.reduceSub, BitVec.toNat_ofNat, Nat.reducePow, Nat.reduceMod]
  have r : rawScalar (11#6 ++ p ++ d ++ a ++ b ++ 0#7 : SlotWord) = some (.ror p d a b) := by
    unfold rawScalar; simp (disch := decide) only [op, fld_append_low, fld_append_high, fld_all, fld_zero, Nat.reduceSub, if_true, if_false, BitVec.reduceEq, and_self, false_and]
  exact filter_wf r hw

theorem Sys2Proof.Laws.Encoding.fshl (p : BitVec 4) (d : BitVec 5) (a : BitVec 5) (b : BitVec 5) (x : BitVec 5) : Statement (.fshl p d a b x) := by
  refine of_slot (k := 1) (w := 12#6 ++ p ++ d ++ a ++ b ++ x ++ 0#2) rfl rfl rfl (fun hw => ?_)
  have op : opcode (12#6 ++ p ++ d ++ a ++ b ++ x ++ 0#2 : SlotWord) = 12 := by simp (disch := decide) only [opcode, fld_append_low, fld_append_high, fld_all, Nat.reduceSub, BitVec.toNat_ofNat, Nat.reducePow, Nat.reduceMod]
  have r : rawScalar (12#6 ++ p ++ d ++ a ++ b ++ x ++ 0#2 : SlotWord) = some (.fshl p d a b x) := by
    unfold rawScalar; simp (disch := decide) only [op, fld_append_low, fld_append_high, fld_all, fld_zero, Nat.reduceSub, if_true, if_false, BitVec.reduceEq, and_self, false_and]
  exact filter_wf r hw

theorem Sys2Proof.Laws.Encoding.fshr (p : BitVec 4) (d : BitVec 5) (a : BitVec 5) (b : BitVec 5) (x : BitVec 5) : Statement (.fshr p d a b x) := by
  refine of_slot (k := 1) (w := 13#6 ++ p ++ d ++ a ++ b ++ x ++ 0#2) rfl rfl rfl (fun hw => ?_)
  have op : opcode (13#6 ++ p ++ d ++ a ++ b ++ x ++ 0#2 : SlotWord) = 13 := by simp (disch := decide) only [opcode, fld_append_low, fld_append_high, fld_all, Nat.reduceSub, BitVec.toNat_ofNat, Nat.reducePow, Nat.reduceMod]
  have r : rawScalar (13#6 ++ p ++ d ++ a ++ b ++ x ++ 0#2 : SlotWord) = some (.fshr p d a b x) := by
    unfold rawScalar; simp (disch := decide) only [op, fld_append_low, fld_append_high, fld_all, fld_zero, Nat.reduceSub, if_true, if_false, BitVec.reduceEq, and_self, false_and]
  exact filter_wf r hw

theorem Sys2Proof.Laws.Encoding.mul (p : BitVec 4) (d : BitVec 5) (a : BitVec 5) (b : BitVec 5) : Statement (.mul p d a b) := by
  refine of_slot (k := 1) (w := 16#6 ++ p ++ d ++ a ++ b ++ 0#7) rfl rfl rfl (fun hw => ?_)
  have op : opcode (16#6 ++ p ++ d ++ a ++ b ++ 0#7 : SlotWord) = 16 := by simp (disch := decide) only [opcode, fld_append_low, fld_append_high, fld_all, Nat.reduceSub, BitVec.toNat_ofNat, Nat.reducePow, Nat.reduceMod]
  have r : rawScalar (16#6 ++ p ++ d ++ a ++ b ++ 0#7 : SlotWord) = some (.mul p d a b) := by
    unfold rawScalar; simp (disch := decide) only [op, fld_append_low, fld_append_high, fld_all, fld_zero, Nat.reduceSub, if_true, if_false, BitVec.reduceEq, and_self, false_and]
  exact filter_wf r hw

theorem Sys2Proof.Laws.Encoding.mulh (p : BitVec 4) (d : BitVec 5) (a : BitVec 5) (b : BitVec 5) : Statement (.mulh p d a b) := by
  refine of_slot (k := 1) (w := 17#6 ++ p ++ d ++ a ++ b ++ 0#7) rfl rfl rfl (fun hw => ?_)
  have op : opcode (17#6 ++ p ++ d ++ a ++ b ++ 0#7 : SlotWord) = 17 := by simp (disch := decide) only [opcode, fld_append_low, fld_append_high, fld_all, Nat.reduceSub, BitVec.toNat_ofNat, Nat.reducePow, Nat.reduceMod]
  have r : rawScalar (17#6 ++ p ++ d ++ a ++ b ++ 0#7 : SlotWord) = some (.mulh p d a b) := by
    unfold rawScalar; simp (disch := decide) only [op, fld_append_low, fld_append_high, fld_all, fld_zero, Nat.reduceSub, if_true, if_false, BitVec.reduceEq, and_self, false_and]
  exact filter_wf r hw

theorem Sys2Proof.Laws.Encoding.mulhu (p : BitVec 4) (d : BitVec 5) (a : BitVec 5) (b : BitVec 5) : Statement (.mulhu p d a b) := by
  refine of_slot (k := 1) (w := 18#6 ++ p ++ d ++ a ++ b ++ 0#7) rfl rfl rfl (fun hw => ?_)
  have op : opcode (18#6 ++ p ++ d ++ a ++ b ++ 0#7 : SlotWord) = 18 := by simp (disch := decide) only [opcode, fld_append_low, fld_append_high, fld_all, Nat.reduceSub, BitVec.toNat_ofNat, Nat.reducePow, Nat.reduceMod]
  have r : rawScalar (18#6 ++ p ++ d ++ a ++ b ++ 0#7 : SlotWord) = some (.mulhu p d a b) := by
    unfold rawScalar; simp (disch := decide) only [op, fld_append_low, fld_append_high, fld_all, fld_zero, Nat.reduceSub, if_true, if_false, BitVec.reduceEq, and_self, false_and]
  exact filter_wf r hw

theorem Sys2Proof.Laws.Encoding.div (p : BitVec 4) (d : BitVec 5) (a : BitVec 5) (b : BitVec 5) : Statement (.div p d a b) := by
  refine of_slot (k := 1) (w := 19#6 ++ p ++ d ++ a ++ b ++ 0#7) rfl rfl rfl (fun hw => ?_)
  have op : opcode (19#6 ++ p ++ d ++ a ++ b ++ 0#7 : SlotWord) = 19 := by simp (disch := decide) only [opcode, fld_append_low, fld_append_high, fld_all, Nat.reduceSub, BitVec.toNat_ofNat, Nat.reducePow, Nat.reduceMod]
  have r : rawScalar (19#6 ++ p ++ d ++ a ++ b ++ 0#7 : SlotWord) = some (.div p d a b) := by
    unfold rawScalar; simp (disch := decide) only [op, fld_append_low, fld_append_high, fld_all, fld_zero, Nat.reduceSub, if_true, if_false, BitVec.reduceEq, and_self, false_and]
  exact filter_wf r hw

theorem Sys2Proof.Laws.Encoding.divu (p : BitVec 4) (d : BitVec 5) (a : BitVec 5) (b : BitVec 5) : Statement (.divu p d a b) := by
  refine of_slot (k := 1) (w := 20#6 ++ p ++ d ++ a ++ b ++ 0#7) rfl rfl rfl (fun hw => ?_)
  have op : opcode (20#6 ++ p ++ d ++ a ++ b ++ 0#7 : SlotWord) = 20 := by simp (disch := decide) only [opcode, fld_append_low, fld_append_high, fld_all, Nat.reduceSub, BitVec.toNat_ofNat, Nat.reducePow, Nat.reduceMod]
  have r : rawScalar (20#6 ++ p ++ d ++ a ++ b ++ 0#7 : SlotWord) = some (.divu p d a b) := by
    unfold rawScalar; simp (disch := decide) only [op, fld_append_low, fld_append_high, fld_all, fld_zero, Nat.reduceSub, if_true, if_false, BitVec.reduceEq, and_self, false_and]
  exact filter_wf r hw

theorem Sys2Proof.Laws.Encoding.rem (p : BitVec 4) (d : BitVec 5) (a : BitVec 5) (b : BitVec 5) : Statement (.rem p d a b) := by
  refine of_slot (k := 1) (w := 21#6 ++ p ++ d ++ a ++ b ++ 0#7) rfl rfl rfl (fun hw => ?_)
  have op : opcode (21#6 ++ p ++ d ++ a ++ b ++ 0#7 : SlotWord) = 21 := by simp (disch := decide) only [opcode, fld_append_low, fld_append_high, fld_all, Nat.reduceSub, BitVec.toNat_ofNat, Nat.reducePow, Nat.reduceMod]
  have r : rawScalar (21#6 ++ p ++ d ++ a ++ b ++ 0#7 : SlotWord) = some (.rem p d a b) := by
    unfold rawScalar; simp (disch := decide) only [op, fld_append_low, fld_append_high, fld_all, fld_zero, Nat.reduceSub, if_true, if_false, BitVec.reduceEq, and_self, false_and]
  exact filter_wf r hw

theorem Sys2Proof.Laws.Encoding.remu (p : BitVec 4) (d : BitVec 5) (a : BitVec 5) (b : BitVec 5) : Statement (.remu p d a b) := by
  refine of_slot (k := 1) (w := 22#6 ++ p ++ d ++ a ++ b ++ 0#7) rfl rfl rfl (fun hw => ?_)
  have op : opcode (22#6 ++ p ++ d ++ a ++ b ++ 0#7 : SlotWord) = 22 := by simp (disch := decide) only [opcode, fld_append_low, fld_append_high, fld_all, Nat.reduceSub, BitVec.toNat_ofNat, Nat.reducePow, Nat.reduceMod]
  have r : rawScalar (22#6 ++ p ++ d ++ a ++ b ++ 0#7 : SlotWord) = some (.remu p d a b) := by
    unfold rawScalar; simp (disch := decide) only [op, fld_append_low, fld_append_high, fld_all, fld_zero, Nat.reduceSub, if_true, if_false, BitVec.reduceEq, and_self, false_and]
  exact filter_wf r hw

theorem Sys2Proof.Laws.Encoding.min (p : BitVec 4) (d : BitVec 5) (a : BitVec 5) (b : BitVec 5) : Statement (.min p d a b) := by
  refine of_slot (k := 1) (w := 24#6 ++ p ++ d ++ a ++ b ++ 0#7) rfl rfl rfl (fun hw => ?_)
  have op : opcode (24#6 ++ p ++ d ++ a ++ b ++ 0#7 : SlotWord) = 24 := by simp (disch := decide) only [opcode, fld_append_low, fld_append_high, fld_all, Nat.reduceSub, BitVec.toNat_ofNat, Nat.reducePow, Nat.reduceMod]
  have r : rawScalar (24#6 ++ p ++ d ++ a ++ b ++ 0#7 : SlotWord) = some (.min p d a b) := by
    unfold rawScalar; simp (disch := decide) only [op, fld_append_low, fld_append_high, fld_all, fld_zero, Nat.reduceSub, if_true, if_false, BitVec.reduceEq, and_self, false_and]
  exact filter_wf r hw

theorem Sys2Proof.Laws.Encoding.max (p : BitVec 4) (d : BitVec 5) (a : BitVec 5) (b : BitVec 5) : Statement (.max p d a b) := by
  refine of_slot (k := 1) (w := 25#6 ++ p ++ d ++ a ++ b ++ 0#7) rfl rfl rfl (fun hw => ?_)
  have op : opcode (25#6 ++ p ++ d ++ a ++ b ++ 0#7 : SlotWord) = 25 := by simp (disch := decide) only [opcode, fld_append_low, fld_append_high, fld_all, Nat.reduceSub, BitVec.toNat_ofNat, Nat.reducePow, Nat.reduceMod]
  have r : rawScalar (25#6 ++ p ++ d ++ a ++ b ++ 0#7 : SlotWord) = some (.max p d a b) := by
    unfold rawScalar; simp (disch := decide) only [op, fld_append_low, fld_append_high, fld_all, fld_zero, Nat.reduceSub, if_true, if_false, BitVec.reduceEq, and_self, false_and]
  exact filter_wf r hw

theorem Sys2Proof.Laws.Encoding.minu (p : BitVec 4) (d : BitVec 5) (a : BitVec 5) (b : BitVec 5) : Statement (.minu p d a b) := by
  refine of_slot (k := 1) (w := 26#6 ++ p ++ d ++ a ++ b ++ 0#7) rfl rfl rfl (fun hw => ?_)
  have op : opcode (26#6 ++ p ++ d ++ a ++ b ++ 0#7 : SlotWord) = 26 := by simp (disch := decide) only [opcode, fld_append_low, fld_append_high, fld_all, Nat.reduceSub, BitVec.toNat_ofNat, Nat.reducePow, Nat.reduceMod]
  have r : rawScalar (26#6 ++ p ++ d ++ a ++ b ++ 0#7 : SlotWord) = some (.minu p d a b) := by
    unfold rawScalar; simp (disch := decide) only [op, fld_append_low, fld_append_high, fld_all, fld_zero, Nat.reduceSub, if_true, if_false, BitVec.reduceEq, and_self, false_and]
  exact filter_wf r hw

theorem Sys2Proof.Laws.Encoding.maxu (p : BitVec 4) (d : BitVec 5) (a : BitVec 5) (b : BitVec 5) : Statement (.maxu p d a b) := by
  refine of_slot (k := 1) (w := 27#6 ++ p ++ d ++ a ++ b ++ 0#7) rfl rfl rfl (fun hw => ?_)
  have op : opcode (27#6 ++ p ++ d ++ a ++ b ++ 0#7 : SlotWord) = 27 := by simp (disch := decide) only [opcode, fld_append_low, fld_append_high, fld_all, Nat.reduceSub, BitVec.toNat_ofNat, Nat.reducePow, Nat.reduceMod]
  have r : rawScalar (27#6 ++ p ++ d ++ a ++ b ++ 0#7 : SlotWord) = some (.maxu p d a b) := by
    unfold rawScalar; simp (disch := decide) only [op, fld_append_low, fld_append_high, fld_all, fld_zero, Nat.reduceSub, if_true, if_false, BitVec.reduceEq, and_self, false_and]
  exact filter_wf r hw

theorem Sys2Proof.Laws.Encoding.sel (p : BitVec 4) (d : BitVec 5) (a : BitVec 5) (b : BitVec 5) (f : BitVec 4) : Statement (.sel p d a b f) := by
  refine of_slot (k := 1) (w := 28#6 ++ p ++ d ++ a ++ b ++ f ++ 0#3) rfl rfl rfl (fun hw => ?_)
  have op : opcode (28#6 ++ p ++ d ++ a ++ b ++ f ++ 0#3 : SlotWord) = 28 := by simp (disch := decide) only [opcode, fld_append_low, fld_append_high, fld_all, Nat.reduceSub, BitVec.toNat_ofNat, Nat.reducePow, Nat.reduceMod]
  have r : rawScalar (28#6 ++ p ++ d ++ a ++ b ++ f ++ 0#3 : SlotWord) = some (.sel p d a b f) := by
    unfold rawScalar; simp (disch := decide) only [op, fld_append_low, fld_append_high, fld_all, fld_zero, Nat.reduceSub, if_true, if_false, BitVec.reduceEq, and_self, false_and]
  exact filter_wf r hw

theorem Sys2Proof.Laws.Encoding.clz (p : BitVec 4) (d : BitVec 5) (a : BitVec 5) : Statement (.clz p d a) := by
  refine of_slot (k := 1) (w := 29#6 ++ p ++ d ++ a ++ 0#12) rfl rfl rfl (fun hw => ?_)
  have op : opcode (29#6 ++ p ++ d ++ a ++ 0#12 : SlotWord) = 29 := by simp (disch := decide) only [opcode, fld_append_low, fld_append_high, fld_all, Nat.reduceSub, BitVec.toNat_ofNat, Nat.reducePow, Nat.reduceMod]
  have r : rawScalar (29#6 ++ p ++ d ++ a ++ 0#12 : SlotWord) = some (.clz p d a) := by
    unfold rawScalar; simp (disch := decide) only [op, fld_append_low, fld_append_high, fld_all, fld_zero, Nat.reduceSub, if_true, if_false, BitVec.reduceEq, and_self, false_and]
  exact filter_wf r hw

theorem Sys2Proof.Laws.Encoding.popc (p : BitVec 4) (d : BitVec 5) (a : BitVec 5) : Statement (.popc p d a) := by
  refine of_slot (k := 1) (w := 30#6 ++ p ++ d ++ a ++ 0#12) rfl rfl rfl (fun hw => ?_)
  have op : opcode (30#6 ++ p ++ d ++ a ++ 0#12 : SlotWord) = 30 := by simp (disch := decide) only [opcode, fld_append_low, fld_append_high, fld_all, Nat.reduceSub, BitVec.toNat_ofNat, Nat.reducePow, Nat.reduceMod]
  have r : rawScalar (30#6 ++ p ++ d ++ a ++ 0#12 : SlotWord) = some (.popc p d a) := by
    unfold rawScalar; simp (disch := decide) only [op, fld_append_low, fld_append_high, fld_all, fld_zero, Nat.reduceSub, if_true, if_false, BitVec.reduceEq, and_self, false_and]
  exact filter_wf r hw

theorem Sys2Proof.Laws.Encoding.brev (p : BitVec 4) (d : BitVec 5) (a : BitVec 5) : Statement (.brev p d a) := by
  refine of_slot (k := 1) (w := 31#6 ++ p ++ d ++ a ++ 0#12) rfl rfl rfl (fun hw => ?_)
  have op : opcode (31#6 ++ p ++ d ++ a ++ 0#12 : SlotWord) = 31 := by simp (disch := decide) only [opcode, fld_append_low, fld_append_high, fld_all, Nat.reduceSub, BitVec.toNat_ofNat, Nat.reducePow, Nat.reduceMod]
  have r : rawScalar (31#6 ++ p ++ d ++ a ++ 0#12 : SlotWord) = some (.brev p d a) := by
    unfold rawScalar; simp (disch := decide) only [op, fld_append_low, fld_append_high, fld_all, fld_zero, Nat.reduceSub, if_true, if_false, BitVec.reduceEq, and_self, false_and]
  exact filter_wf r hw

theorem Sys2Proof.Laws.Encoding.addi (p : BitVec 4) (d : BitVec 5) (a : BitVec 5) (i : BitVec 12) : Statement (.addi p d a i) := by
  refine of_slot (k := 1) (w := 32#6 ++ p ++ d ++ a ++ i) rfl rfl rfl (fun hw => ?_)
  have op : opcode (32#6 ++ p ++ d ++ a ++ i : SlotWord) = 32 := by simp (disch := decide) only [opcode, fld_append_low, fld_append_high, fld_all, Nat.reduceSub, BitVec.toNat_ofNat, Nat.reducePow, Nat.reduceMod]
  have r : rawScalar (32#6 ++ p ++ d ++ a ++ i : SlotWord) = some (.addi p d a i) := by
    unfold rawScalar; simp (disch := decide) only [op, fld_append_low, fld_append_high, fld_all, fld_zero, Nat.reduceSub, if_true, if_false, BitVec.reduceEq, and_self, false_and]
  exact filter_wf r hw

theorem Sys2Proof.Laws.Encoding.andi (p : BitVec 4) (d : BitVec 5) (a : BitVec 5) (i : BitVec 12) : Statement (.andi p d a i) := by
  refine of_slot (k := 1) (w := 33#6 ++ p ++ d ++ a ++ i) rfl rfl rfl (fun hw => ?_)
  have op : opcode (33#6 ++ p ++ d ++ a ++ i : SlotWord) = 33 := by simp (disch := decide) only [opcode, fld_append_low, fld_append_high, fld_all, Nat.reduceSub, BitVec.toNat_ofNat, Nat.reducePow, Nat.reduceMod]
  have r : rawScalar (33#6 ++ p ++ d ++ a ++ i : SlotWord) = some (.andi p d a i) := by
    unfold rawScalar; simp (disch := decide) only [op, fld_append_low, fld_append_high, fld_all, fld_zero, Nat.reduceSub, if_true, if_false, BitVec.reduceEq, and_self, false_and]
  exact filter_wf r hw

theorem Sys2Proof.Laws.Encoding.ori (p : BitVec 4) (d : BitVec 5) (a : BitVec 5) (i : BitVec 12) : Statement (.ori p d a i) := by
  refine of_slot (k := 1) (w := 34#6 ++ p ++ d ++ a ++ i) rfl rfl rfl (fun hw => ?_)
  have op : opcode (34#6 ++ p ++ d ++ a ++ i : SlotWord) = 34 := by simp (disch := decide) only [opcode, fld_append_low, fld_append_high, fld_all, Nat.reduceSub, BitVec.toNat_ofNat, Nat.reducePow, Nat.reduceMod]
  have r : rawScalar (34#6 ++ p ++ d ++ a ++ i : SlotWord) = some (.ori p d a i) := by
    unfold rawScalar; simp (disch := decide) only [op, fld_append_low, fld_append_high, fld_all, fld_zero, Nat.reduceSub, if_true, if_false, BitVec.reduceEq, and_self, false_and]
  exact filter_wf r hw

theorem Sys2Proof.Laws.Encoding.xori (p : BitVec 4) (d : BitVec 5) (a : BitVec 5) (i : BitVec 12) : Statement (.xori p d a i) := by
  refine of_slot (k := 1) (w := 35#6 ++ p ++ d ++ a ++ i) rfl rfl rfl (fun hw => ?_)
  have op : opcode (35#6 ++ p ++ d ++ a ++ i : SlotWord) = 35 := by simp (disch := decide) only [opcode, fld_append_low, fld_append_high, fld_all, Nat.reduceSub, BitVec.toNat_ofNat, Nat.reducePow, Nat.reduceMod]
  have r : rawScalar (35#6 ++ p ++ d ++ a ++ i : SlotWord) = some (.xori p d a i) := by
    unfold rawScalar; simp (disch := decide) only [op, fld_append_low, fld_append_high, fld_all, fld_zero, Nat.reduceSub, if_true, if_false, BitVec.reduceEq, and_self, false_and]
  exact filter_wf r hw

theorem Sys2Proof.Laws.Encoding.shli (p : BitVec 4) (d : BitVec 5) (a : BitVec 5) (h : BitVec 6) : Statement (.shli p d a h) := by
  refine of_slot (k := 1) (w := 36#6 ++ p ++ d ++ a ++ 0#6 ++ h) rfl rfl rfl (fun hw => ?_)
  have op : opcode (36#6 ++ p ++ d ++ a ++ 0#6 ++ h : SlotWord) = 36 := by simp (disch := decide) only [opcode, fld_append_low, fld_append_high, fld_all, Nat.reduceSub, BitVec.toNat_ofNat, Nat.reducePow, Nat.reduceMod]
  have r : rawScalar (36#6 ++ p ++ d ++ a ++ 0#6 ++ h : SlotWord) = some (.shli p d a h) := by
    unfold rawScalar; simp (disch := decide) only [op, fld_append_low, fld_append_high, fld_all, fld_zero, Nat.reduceSub, if_true, if_false, BitVec.reduceEq, and_self, false_and]
  exact filter_wf r hw

theorem Sys2Proof.Laws.Encoding.shri (p : BitVec 4) (d : BitVec 5) (a : BitVec 5) (h : BitVec 6) : Statement (.shri p d a h) := by
  refine of_slot (k := 1) (w := 37#6 ++ p ++ d ++ a ++ 0#6 ++ h) rfl rfl rfl (fun hw => ?_)
  have op : opcode (37#6 ++ p ++ d ++ a ++ 0#6 ++ h : SlotWord) = 37 := by simp (disch := decide) only [opcode, fld_append_low, fld_append_high, fld_all, Nat.reduceSub, BitVec.toNat_ofNat, Nat.reducePow, Nat.reduceMod]
  have r : rawScalar (37#6 ++ p ++ d ++ a ++ 0#6 ++ h : SlotWord) = some (.shri p d a h) := by
    unfold rawScalar; simp (disch := decide) only [op, fld_append_low, fld_append_high, fld_all, fld_zero, Nat.reduceSub, if_true, if_false, BitVec.reduceEq, and_self, false_and]
  exact filter_wf r hw

theorem Sys2Proof.Laws.Encoding.sari (p : BitVec 4) (d : BitVec 5) (a : BitVec 5) (h : BitVec 6) : Statement (.sari p d a h) := by
  refine of_slot (k := 1) (w := 38#6 ++ p ++ d ++ a ++ 0#6 ++ h) rfl rfl rfl (fun hw => ?_)
  have op : opcode (38#6 ++ p ++ d ++ a ++ 0#6 ++ h : SlotWord) = 38 := by simp (disch := decide) only [opcode, fld_append_low, fld_append_high, fld_all, Nat.reduceSub, BitVec.toNat_ofNat, Nat.reducePow, Nat.reduceMod]
  have r : rawScalar (38#6 ++ p ++ d ++ a ++ 0#6 ++ h : SlotWord) = some (.sari p d a h) := by
    unfold rawScalar; simp (disch := decide) only [op, fld_append_low, fld_append_high, fld_all, fld_zero, Nat.reduceSub, if_true, if_false, BitVec.reduceEq, and_self, false_and]
  exact filter_wf r hw

theorem Sys2Proof.Laws.Encoding.rori (p : BitVec 4) (d : BitVec 5) (a : BitVec 5) (h : BitVec 6) : Statement (.rori p d a h) := by
  refine of_slot (k := 1) (w := 39#6 ++ p ++ d ++ a ++ 0#6 ++ h) rfl rfl rfl (fun hw => ?_)
  have op : opcode (39#6 ++ p ++ d ++ a ++ 0#6 ++ h : SlotWord) = 39 := by simp (disch := decide) only [opcode, fld_append_low, fld_append_high, fld_all, Nat.reduceSub, BitVec.toNat_ofNat, Nat.reducePow, Nat.reduceMod]
  have r : rawScalar (39#6 ++ p ++ d ++ a ++ 0#6 ++ h : SlotWord) = some (.rori p d a h) := by
    unfold rawScalar; simp (disch := decide) only [op, fld_append_low, fld_append_high, fld_all, fld_zero, Nat.reduceSub, if_true, if_false, BitVec.reduceEq, and_self, false_and]
  exact filter_wf r hw

theorem Sys2Proof.Laws.Encoding.movi (p : BitVec 4) (d : BitVec 5) (i : BitVec 17) : Statement (.movi p d i) := by
  refine of_slot (k := 1) (w := 40#6 ++ p ++ d ++ i) rfl rfl rfl (fun hw => ?_)
  have op : opcode (40#6 ++ p ++ d ++ i : SlotWord) = 40 := by simp (disch := decide) only [opcode, fld_append_low, fld_append_high, fld_all, Nat.reduceSub, BitVec.toNat_ofNat, Nat.reducePow, Nat.reduceMod]
  have r : rawScalar (40#6 ++ p ++ d ++ i : SlotWord) = some (.movi p d i) := by
    unfold rawScalar; simp (disch := decide) only [op, fld_append_low, fld_append_high, fld_all, fld_zero, Nat.reduceSub, if_true, if_false, BitVec.reduceEq, and_self, false_and]
  exact filter_wf r hw

theorem Sys2Proof.Laws.Encoding.movs (p : BitVec 4) (d : BitVec 5) (i : BitVec 16) : Statement (.movs p d i) := by
  refine of_slot (k := 1) (w := 41#6 ++ p ++ d ++ 0#1 ++ i) rfl rfl rfl (fun hw => ?_)
  have op : opcode (41#6 ++ p ++ d ++ 0#1 ++ i : SlotWord) = 41 := by simp (disch := decide) only [opcode, fld_append_low, fld_append_high, fld_all, Nat.reduceSub, BitVec.toNat_ofNat, Nat.reducePow, Nat.reduceMod]
  have r : rawScalar (41#6 ++ p ++ d ++ 0#1 ++ i : SlotWord) = some (.movs p d i) := by
    unfold rawScalar; simp (disch := decide) only [op, fld_append_low, fld_append_high, fld_all, fld_zero, Nat.reduceSub, if_true, if_false, BitVec.reduceEq, and_self, false_and]
  exact filter_wf r hw

theorem Sys2Proof.Laws.Encoding.cmp (p : BitVec 4) (f : BitVec 4) (c : BitVec 4) (a : BitVec 5) (b : BitVec 5) : Statement (.cmp p f c a b) := by
  refine of_slot (k := 1) (w := 42#6 ++ p ++ f ++ c ++ a ++ b ++ 0#4) rfl rfl rfl (fun hw => ?_)
  have op : opcode (42#6 ++ p ++ f ++ c ++ a ++ b ++ 0#4 : SlotWord) = 42 := by simp (disch := decide) only [opcode, fld_append_low, fld_append_high, fld_all, Nat.reduceSub, BitVec.toNat_ofNat, Nat.reducePow, Nat.reduceMod]
  have r : rawScalar (42#6 ++ p ++ f ++ c ++ a ++ b ++ 0#4 : SlotWord) = some (.cmp p f c a b) := by
    unfold rawScalar; simp (disch := decide) only [op, fld_append_low, fld_append_high, fld_all, fld_zero, Nat.reduceSub, if_true, if_false, BitVec.reduceEq, and_self, false_and]
  exact filter_wf r hw

theorem Sys2Proof.Laws.Encoding.cmpi (p : BitVec 4) (f : BitVec 4) (c : BitVec 4) (a : BitVec 5) (i : BitVec 9) : Statement (.cmpi p f c a i) := by
  refine of_slot (k := 1) (w := 43#6 ++ p ++ f ++ c ++ a ++ i) rfl rfl rfl (fun hw => ?_)
  have op : opcode (43#6 ++ p ++ f ++ c ++ a ++ i : SlotWord) = 43 := by simp (disch := decide) only [opcode, fld_append_low, fld_append_high, fld_all, Nat.reduceSub, BitVec.toNat_ofNat, Nat.reducePow, Nat.reduceMod]
  have r : rawScalar (43#6 ++ p ++ f ++ c ++ a ++ i : SlotWord) = some (.cmpi p f c a i) := by
    unfold rawScalar; simp (disch := decide) only [op, fld_append_low, fld_append_high, fld_all, fld_zero, Nat.reduceSub, if_true, if_false, BitVec.reduceEq, and_self, false_and]
  exact filter_wf r hw

theorem Sys2Proof.Laws.Encoding.cb (p : BitVec 4) (c : BitVec 4) (a : BitVec 5) (b : BitVec 5) (o : BitVec 8) : Statement (.cb p c a b o) := by
  refine of_slot (k := 1) (w := 44#6 ++ p ++ c ++ a ++ b ++ o) rfl rfl rfl (fun hw => ?_)
  have op : opcode (44#6 ++ p ++ c ++ a ++ b ++ o : SlotWord) = 44 := by simp (disch := decide) only [opcode, fld_append_low, fld_append_high, fld_all, Nat.reduceSub, BitVec.toNat_ofNat, Nat.reducePow, Nat.reduceMod]
  have r : rawScalar (44#6 ++ p ++ c ++ a ++ b ++ o : SlotWord) = some (.cb p c a b o) := by
    unfold rawScalar; simp (disch := decide) only [op, fld_append_low, fld_append_high, fld_all, fld_zero, Nat.reduceSub, if_true, if_false, BitVec.reduceEq, and_self, false_and]
  exact filter_wf r hw

theorem Sys2Proof.Laws.Encoding.fadd (p : BitVec 4) (d : BitVec 5) (a : BitVec 5) (b : BitVec 5) : Statement (.fadd p d a b) := by
  refine of_slot (k := 1) (w := 48#6 ++ p ++ d ++ a ++ b ++ 0#7) rfl rfl rfl (fun hw => ?_)
  have op : opcode (48#6 ++ p ++ d ++ a ++ b ++ 0#7 : SlotWord) = 48 := by simp (disch := decide) only [opcode, fld_append_low, fld_append_high, fld_all, Nat.reduceSub, BitVec.toNat_ofNat, Nat.reducePow, Nat.reduceMod]
  have r : rawScalar (48#6 ++ p ++ d ++ a ++ b ++ 0#7 : SlotWord) = some (.fadd p d a b) := by
    unfold rawScalar; simp (disch := decide) only [op, fld_append_low, fld_append_high, fld_all, fld_zero, Nat.reduceSub, if_true, if_false, BitVec.reduceEq, and_self, false_and]
  exact filter_wf r hw

theorem Sys2Proof.Laws.Encoding.fsub (p : BitVec 4) (d : BitVec 5) (a : BitVec 5) (b : BitVec 5) : Statement (.fsub p d a b) := by
  refine of_slot (k := 1) (w := 49#6 ++ p ++ d ++ a ++ b ++ 0#7) rfl rfl rfl (fun hw => ?_)
  have op : opcode (49#6 ++ p ++ d ++ a ++ b ++ 0#7 : SlotWord) = 49 := by simp (disch := decide) only [opcode, fld_append_low, fld_append_high, fld_all, Nat.reduceSub, BitVec.toNat_ofNat, Nat.reducePow, Nat.reduceMod]
  have r : rawScalar (49#6 ++ p ++ d ++ a ++ b ++ 0#7 : SlotWord) = some (.fsub p d a b) := by
    unfold rawScalar; simp (disch := decide) only [op, fld_append_low, fld_append_high, fld_all, fld_zero, Nat.reduceSub, if_true, if_false, BitVec.reduceEq, and_self, false_and]
  exact filter_wf r hw

theorem Sys2Proof.Laws.Encoding.fmul (p : BitVec 4) (d : BitVec 5) (a : BitVec 5) (b : BitVec 5) : Statement (.fmul p d a b) := by
  refine of_slot (k := 1) (w := 50#6 ++ p ++ d ++ a ++ b ++ 0#7) rfl rfl rfl (fun hw => ?_)
  have op : opcode (50#6 ++ p ++ d ++ a ++ b ++ 0#7 : SlotWord) = 50 := by simp (disch := decide) only [opcode, fld_append_low, fld_append_high, fld_all, Nat.reduceSub, BitVec.toNat_ofNat, Nat.reducePow, Nat.reduceMod]
  have r : rawScalar (50#6 ++ p ++ d ++ a ++ b ++ 0#7 : SlotWord) = some (.fmul p d a b) := by
    unfold rawScalar; simp (disch := decide) only [op, fld_append_low, fld_append_high, fld_all, fld_zero, Nat.reduceSub, if_true, if_false, BitVec.reduceEq, and_self, false_and]
  exact filter_wf r hw

theorem Sys2Proof.Laws.Encoding.fma (p : BitVec 4) (d : BitVec 5) (a : BitVec 5) (b : BitVec 5) : Statement (.fma p d a b) := by
  refine of_slot (k := 1) (w := 51#6 ++ p ++ d ++ a ++ b ++ 0#7) rfl rfl rfl (fun hw => ?_)
  have op : opcode (51#6 ++ p ++ d ++ a ++ b ++ 0#7 : SlotWord) = 51 := by simp (disch := decide) only [opcode, fld_append_low, fld_append_high, fld_all, Nat.reduceSub, BitVec.toNat_ofNat, Nat.reducePow, Nat.reduceMod]
  have r : rawScalar (51#6 ++ p ++ d ++ a ++ b ++ 0#7 : SlotWord) = some (.fma p d a b) := by
    unfold rawScalar; simp (disch := decide) only [op, fld_append_low, fld_append_high, fld_all, fld_zero, Nat.reduceSub, if_true, if_false, BitVec.reduceEq, and_self, false_and]
  exact filter_wf r hw

theorem Sys2Proof.Laws.Encoding.fcmp (p : BitVec 4) (f : BitVec 4) (c : BitVec 4) (a : BitVec 5) (b : BitVec 5) : Statement (.fcmp p f c a b) := by
  refine of_slot (k := 1) (w := 52#6 ++ p ++ f ++ c ++ a ++ b ++ 0#4) rfl rfl rfl (fun hw => ?_)
  have op : opcode (52#6 ++ p ++ f ++ c ++ a ++ b ++ 0#4 : SlotWord) = 52 := by simp (disch := decide) only [opcode, fld_append_low, fld_append_high, fld_all, Nat.reduceSub, BitVec.toNat_ofNat, Nat.reducePow, Nat.reduceMod]
  have r : rawScalar (52#6 ++ p ++ f ++ c ++ a ++ b ++ 0#4 : SlotWord) = some (.fcmp p f c a b) := by
    unfold rawScalar; simp (disch := decide) only [op, fld_append_low, fld_append_high, fld_all, fld_zero, Nat.reduceSub, if_true, if_false, BitVec.reduceEq, and_self, false_and]
  exact filter_wf r hw

theorem Sys2Proof.Laws.Encoding.fcvt (p : BitVec 4) (d : BitVec 5) (a : BitVec 5) (s : BitVec 4) (t : BitVec 4) : Statement (.fcvt p d a s t) := by
  refine of_slot (k := 1) (w := 53#6 ++ p ++ d ++ a ++ s ++ 0#1 ++ t ++ 0#3) rfl rfl rfl (fun hw => ?_)
  have op : opcode (53#6 ++ p ++ d ++ a ++ s ++ 0#1 ++ t ++ 0#3 : SlotWord) = 53 := by simp (disch := decide) only [opcode, fld_append_low, fld_append_high, fld_all, Nat.reduceSub, BitVec.toNat_ofNat, Nat.reducePow, Nat.reduceMod]
  have r : rawScalar (53#6 ++ p ++ d ++ a ++ s ++ 0#1 ++ t ++ 0#3 : SlotWord) = some (.fcvt p d a s t) := by
    unfold rawScalar; simp (disch := decide) only [op, fld_append_low, fld_append_high, fld_all, fld_zero, Nat.reduceSub, if_true, if_false, BitVec.reduceEq, and_self, false_and]
  exact filter_wf r hw

theorem Sys2Proof.Laws.Encoding.ld (d : BitVec 5) (a : BitVec 5) (z : BitVec 2) (i : BitVec 11) : Statement (.ld d a z i) := by
  refine of_slot (k := 3) (w := 1#6 ++ d ++ a ++ z ++ 0#3 ++ i) rfl rfl rfl (fun hw => ?_)
  have op : opcode (1#6 ++ d ++ a ++ z ++ 0#3 ++ i : SlotWord) = 1 := by simp (disch := decide) only [opcode, fld_append_low, fld_append_high, fld_all, Nat.reduceSub, BitVec.toNat_ofNat, Nat.reducePow, Nat.reduceMod]
  have r : rawMemory (1#6 ++ d ++ a ++ z ++ 0#3 ++ i : SlotWord) = some (.ld d a z i) := by
    unfold rawMemory; simp (disch := decide) only [op, fld_append_low, fld_append_high, fld_all, fld_zero, Nat.reduceSub, if_true, if_false, BitVec.reduceEq, and_self, false_and]
  exact filter_wf r hw

theorem Sys2Proof.Laws.Encoding.ldx (d : BitVec 5) (a : BitVec 5) (z : BitVec 2) (i : BitVec 11) : Statement (.ldx d a z i) := by
  refine of_slot (k := 3) (w := 2#6 ++ d ++ a ++ z ++ 0#3 ++ i) rfl rfl rfl (fun hw => ?_)
  have op : opcode (2#6 ++ d ++ a ++ z ++ 0#3 ++ i : SlotWord) = 2 := by simp (disch := decide) only [opcode, fld_append_low, fld_append_high, fld_all, Nat.reduceSub, BitVec.toNat_ofNat, Nat.reducePow, Nat.reduceMod]
  have r : rawMemory (2#6 ++ d ++ a ++ z ++ 0#3 ++ i : SlotWord) = some (.ldx d a z i) := by
    unfold rawMemory; simp (disch := decide) only [op, fld_append_low, fld_append_high, fld_all, fld_zero, Nat.reduceSub, if_true, if_false, BitVec.reduceEq, and_self, false_and]
  exact filter_wf r hw

theorem Sys2Proof.Laws.Encoding.st (s : BitVec 5) (a : BitVec 5) (z : BitVec 2) (i : BitVec 11) : Statement (.st s a z i) := by
  refine of_slot (k := 3) (w := 3#6 ++ s ++ a ++ z ++ 0#3 ++ i) rfl rfl rfl (fun hw => ?_)
  have op : opcode (3#6 ++ s ++ a ++ z ++ 0#3 ++ i : SlotWord) = 3 := by simp (disch := decide) only [opcode, fld_append_low, fld_append_high, fld_all, Nat.reduceSub, BitVec.toNat_ofNat, Nat.reducePow, Nat.reduceMod]
  have r : rawMemory (3#6 ++ s ++ a ++ z ++ 0#3 ++ i : SlotWord) = some (.st s a z i) := by
    unfold rawMemory; simp (disch := decide) only [op, fld_append_low, fld_append_high, fld_all, fld_zero, Nat.reduceSub, if_true, if_false, BitVec.reduceEq, and_self, false_and]
  exact filter_wf r hw

theorem Sys2Proof.Laws.Encoding.ldaq (d : BitVec 5) (a : BitVec 5) (z : BitVec 2) (c : BitVec 3) (i : BitVec 11) : Statement (.ldaq d a z c i) := by
  refine of_slot (k := 3) (w := 4#6 ++ d ++ a ++ z ++ c ++ i) rfl rfl rfl (fun hw => ?_)
  have op : opcode (4#6 ++ d ++ a ++ z ++ c ++ i : SlotWord) = 4 := by simp (disch := decide) only [opcode, fld_append_low, fld_append_high, fld_all, Nat.reduceSub, BitVec.toNat_ofNat, Nat.reducePow, Nat.reduceMod]
  have r : rawMemory (4#6 ++ d ++ a ++ z ++ c ++ i : SlotWord) = some (.ldaq d a z c i) := by
    unfold rawMemory; simp (disch := decide) only [op, fld_append_low, fld_append_high, fld_all, fld_zero, Nat.reduceSub, if_true, if_false, BitVec.reduceEq, and_self, false_and]
  exact filter_wf r hw

theorem Sys2Proof.Laws.Encoding.strl (s : BitVec 5) (a : BitVec 5) (z : BitVec 2) (c : BitVec 3) (i : BitVec 11) : Statement (.strl s a z c i) := by
  refine of_slot (k := 3) (w := 5#6 ++ s ++ a ++ z ++ c ++ i) rfl rfl rfl (fun hw => ?_)
  have op : opcode (5#6 ++ s ++ a ++ z ++ c ++ i : SlotWord) = 5 := by simp (disch := decide) only [opcode, fld_append_low, fld_append_high, fld_all, Nat.reduceSub, BitVec.toNat_ofNat, Nat.reducePow, Nat.reduceMod]
  have r : rawMemory (5#6 ++ s ++ a ++ z ++ c ++ i : SlotWord) = some (.strl s a z c i) := by
    unfold rawMemory; simp (disch := decide) only [op, fld_append_low, fld_append_high, fld_all, fld_zero, Nat.reduceSub, if_true, if_false, BitVec.reduceEq, and_self, false_and]
  exact filter_wf r hw

theorem Sys2Proof.Laws.Encoding.mark : Statement (.mark) := by
  refine of_slot (k := 3) (w := 6#6 ++ 0#26) rfl rfl rfl (fun hw => ?_)
  have op : opcode (6#6 ++ 0#26 : SlotWord) = 6 := by simp (disch := decide) only [opcode, fld_append_low, fld_append_high, fld_all, Nat.reduceSub, BitVec.toNat_ofNat, Nat.reducePow, Nat.reduceMod]
  have r : rawMemory (6#6 ++ 0#26 : SlotWord) = some (.mark) := by
    unfold rawMemory; simp (disch := decide) only [op, fld_append_low, fld_append_high, fld_all, fld_zero, Nat.reduceSub, if_true, if_false, BitVec.reduceEq, and_self, false_and]
  exact filter_wf r hw

theorem Sys2Proof.Laws.Encoding.fence (c : BitVec 3) : Statement (.fence c) := by
  refine of_slot (k := 3) (w := 7#6 ++ 0#12 ++ c ++ 0#11) rfl rfl rfl (fun hw => ?_)
  have op : opcode (7#6 ++ 0#12 ++ c ++ 0#11 : SlotWord) = 7 := by simp (disch := decide) only [opcode, fld_append_low, fld_append_high, fld_all, Nat.reduceSub, BitVec.toNat_ofNat, Nat.reducePow, Nat.reduceMod]
  have r : rawMemory (7#6 ++ 0#12 ++ c ++ 0#11 : SlotWord) = some (.fence c) := by
    unfold rawMemory; simp (disch := decide) only [op, fld_append_low, fld_append_high, fld_all, fld_zero, Nat.reduceSub, if_true, if_false, BitVec.reduceEq, and_self, false_and]
  exact filter_wf r hw

theorem Sys2Proof.Laws.Encoding.aadd (d : BitVec 5) (a : BitVec 5) (b : BitVec 5) (z : BitVec 2) (c : BitVec 3) : Statement (.aadd d a b z c) := by
  refine of_slot (k := 3) (w := 8#6 ++ d ++ a ++ b ++ 0#5 ++ z ++ c ++ 0#1) rfl rfl rfl (fun hw => ?_)
  have op : opcode (8#6 ++ d ++ a ++ b ++ 0#5 ++ z ++ c ++ 0#1 : SlotWord) = 8 := by simp (disch := decide) only [opcode, fld_append_low, fld_append_high, fld_all, Nat.reduceSub, BitVec.toNat_ofNat, Nat.reducePow, Nat.reduceMod]
  have r : rawMemory (8#6 ++ d ++ a ++ b ++ 0#5 ++ z ++ c ++ 0#1 : SlotWord) = some (.aadd d a b z c) := by
    unfold rawMemory; simp (disch := decide) only [op, fld_append_low, fld_append_high, fld_all, fld_zero, Nat.reduceSub, if_true, if_false, BitVec.reduceEq, and_self, false_and]
  exact filter_wf r hw

theorem Sys2Proof.Laws.Encoding.aand (d : BitVec 5) (a : BitVec 5) (b : BitVec 5) (z : BitVec 2) (c : BitVec 3) : Statement (.aand d a b z c) := by
  refine of_slot (k := 3) (w := 9#6 ++ d ++ a ++ b ++ 0#5 ++ z ++ c ++ 0#1) rfl rfl rfl (fun hw => ?_)
  have op : opcode (9#6 ++ d ++ a ++ b ++ 0#5 ++ z ++ c ++ 0#1 : SlotWord) = 9 := by simp (disch := decide) only [opcode, fld_append_low, fld_append_high, fld_all, Nat.reduceSub, BitVec.toNat_ofNat, Nat.reducePow, Nat.reduceMod]
  have r : rawMemory (9#6 ++ d ++ a ++ b ++ 0#5 ++ z ++ c ++ 0#1 : SlotWord) = some (.aand d a b z c) := by
    unfold rawMemory; simp (disch := decide) only [op, fld_append_low, fld_append_high, fld_all, fld_zero, Nat.reduceSub, if_true, if_false, BitVec.reduceEq, and_self, false_and]
  exact filter_wf r hw

theorem Sys2Proof.Laws.Encoding.aor (d : BitVec 5) (a : BitVec 5) (b : BitVec 5) (z : BitVec 2) (c : BitVec 3) : Statement (.aor d a b z c) := by
  refine of_slot (k := 3) (w := 10#6 ++ d ++ a ++ b ++ 0#5 ++ z ++ c ++ 0#1) rfl rfl rfl (fun hw => ?_)
  have op : opcode (10#6 ++ d ++ a ++ b ++ 0#5 ++ z ++ c ++ 0#1 : SlotWord) = 10 := by simp (disch := decide) only [opcode, fld_append_low, fld_append_high, fld_all, Nat.reduceSub, BitVec.toNat_ofNat, Nat.reducePow, Nat.reduceMod]
  have r : rawMemory (10#6 ++ d ++ a ++ b ++ 0#5 ++ z ++ c ++ 0#1 : SlotWord) = some (.aor d a b z c) := by
    unfold rawMemory; simp (disch := decide) only [op, fld_append_low, fld_append_high, fld_all, fld_zero, Nat.reduceSub, if_true, if_false, BitVec.reduceEq, and_self, false_and]
  exact filter_wf r hw

theorem Sys2Proof.Laws.Encoding.axor (d : BitVec 5) (a : BitVec 5) (b : BitVec 5) (z : BitVec 2) (c : BitVec 3) : Statement (.axor d a b z c) := by
  refine of_slot (k := 3) (w := 11#6 ++ d ++ a ++ b ++ 0#5 ++ z ++ c ++ 0#1) rfl rfl rfl (fun hw => ?_)
  have op : opcode (11#6 ++ d ++ a ++ b ++ 0#5 ++ z ++ c ++ 0#1 : SlotWord) = 11 := by simp (disch := decide) only [opcode, fld_append_low, fld_append_high, fld_all, Nat.reduceSub, BitVec.toNat_ofNat, Nat.reducePow, Nat.reduceMod]
  have r : rawMemory (11#6 ++ d ++ a ++ b ++ 0#5 ++ z ++ c ++ 0#1 : SlotWord) = some (.axor d a b z c) := by
    unfold rawMemory; simp (disch := decide) only [op, fld_append_low, fld_append_high, fld_all, fld_zero, Nat.reduceSub, if_true, if_false, BitVec.reduceEq, and_self, false_and]
  exact filter_wf r hw

theorem Sys2Proof.Laws.Encoding.amin (d : BitVec 5) (a : BitVec 5) (b : BitVec 5) (z : BitVec 2) (c : BitVec 3) : Statement (.amin d a b z c) := by
  refine of_slot (k := 3) (w := 12#6 ++ d ++ a ++ b ++ 0#5 ++ z ++ c ++ 0#1) rfl rfl rfl (fun hw => ?_)
  have op : opcode (12#6 ++ d ++ a ++ b ++ 0#5 ++ z ++ c ++ 0#1 : SlotWord) = 12 := by simp (disch := decide) only [opcode, fld_append_low, fld_append_high, fld_all, Nat.reduceSub, BitVec.toNat_ofNat, Nat.reducePow, Nat.reduceMod]
  have r : rawMemory (12#6 ++ d ++ a ++ b ++ 0#5 ++ z ++ c ++ 0#1 : SlotWord) = some (.amin d a b z c) := by
    unfold rawMemory; simp (disch := decide) only [op, fld_append_low, fld_append_high, fld_all, fld_zero, Nat.reduceSub, if_true, if_false, BitVec.reduceEq, and_self, false_and]
  exact filter_wf r hw

theorem Sys2Proof.Laws.Encoding.amax (d : BitVec 5) (a : BitVec 5) (b : BitVec 5) (z : BitVec 2) (c : BitVec 3) : Statement (.amax d a b z c) := by
  refine of_slot (k := 3) (w := 13#6 ++ d ++ a ++ b ++ 0#5 ++ z ++ c ++ 0#1) rfl rfl rfl (fun hw => ?_)
  have op : opcode (13#6 ++ d ++ a ++ b ++ 0#5 ++ z ++ c ++ 0#1 : SlotWord) = 13 := by simp (disch := decide) only [opcode, fld_append_low, fld_append_high, fld_all, Nat.reduceSub, BitVec.toNat_ofNat, Nat.reducePow, Nat.reduceMod]
  have r : rawMemory (13#6 ++ d ++ a ++ b ++ 0#5 ++ z ++ c ++ 0#1 : SlotWord) = some (.amax d a b z c) := by
    unfold rawMemory; simp (disch := decide) only [op, fld_append_low, fld_append_high, fld_all, fld_zero, Nat.reduceSub, if_true, if_false, BitVec.reduceEq, and_self, false_and]
  exact filter_wf r hw

theorem Sys2Proof.Laws.Encoding.aminu (d : BitVec 5) (a : BitVec 5) (b : BitVec 5) (z : BitVec 2) (c : BitVec 3) : Statement (.aminu d a b z c) := by
  refine of_slot (k := 3) (w := 14#6 ++ d ++ a ++ b ++ 0#5 ++ z ++ c ++ 0#1) rfl rfl rfl (fun hw => ?_)
  have op : opcode (14#6 ++ d ++ a ++ b ++ 0#5 ++ z ++ c ++ 0#1 : SlotWord) = 14 := by simp (disch := decide) only [opcode, fld_append_low, fld_append_high, fld_all, Nat.reduceSub, BitVec.toNat_ofNat, Nat.reducePow, Nat.reduceMod]
  have r : rawMemory (14#6 ++ d ++ a ++ b ++ 0#5 ++ z ++ c ++ 0#1 : SlotWord) = some (.aminu d a b z c) := by
    unfold rawMemory; simp (disch := decide) only [op, fld_append_low, fld_append_high, fld_all, fld_zero, Nat.reduceSub, if_true, if_false, BitVec.reduceEq, and_self, false_and]
  exact filter_wf r hw

theorem Sys2Proof.Laws.Encoding.amaxu (d : BitVec 5) (a : BitVec 5) (b : BitVec 5) (z : BitVec 2) (c : BitVec 3) : Statement (.amaxu d a b z c) := by
  refine of_slot (k := 3) (w := 15#6 ++ d ++ a ++ b ++ 0#5 ++ z ++ c ++ 0#1) rfl rfl rfl (fun hw => ?_)
  have op : opcode (15#6 ++ d ++ a ++ b ++ 0#5 ++ z ++ c ++ 0#1 : SlotWord) = 15 := by simp (disch := decide) only [opcode, fld_append_low, fld_append_high, fld_all, Nat.reduceSub, BitVec.toNat_ofNat, Nat.reducePow, Nat.reduceMod]
  have r : rawMemory (15#6 ++ d ++ a ++ b ++ 0#5 ++ z ++ c ++ 0#1 : SlotWord) = some (.amaxu d a b z c) := by
    unfold rawMemory; simp (disch := decide) only [op, fld_append_low, fld_append_high, fld_all, fld_zero, Nat.reduceSub, if_true, if_false, BitVec.reduceEq, and_self, false_and]
  exact filter_wf r hw

theorem Sys2Proof.Laws.Encoding.afadd (d : BitVec 5) (a : BitVec 5) (b : BitVec 5) (c : BitVec 3) : Statement (.afadd d a b c) := by
  refine of_slot (k := 3) (w := 16#6 ++ d ++ a ++ b ++ 2#7 ++ c ++ 0#1) rfl rfl rfl (fun hw => ?_)
  have op : opcode (16#6 ++ d ++ a ++ b ++ 2#7 ++ c ++ 0#1 : SlotWord) = 16 := by simp (disch := decide) only [opcode, fld_append_low, fld_append_high, fld_all, Nat.reduceSub, BitVec.toNat_ofNat, Nat.reducePow, Nat.reduceMod]
  have r : rawMemory (16#6 ++ d ++ a ++ b ++ 2#7 ++ c ++ 0#1 : SlotWord) = some (.afadd d a b c) := by
    unfold rawMemory; simp (disch := decide) only [op, fld_append_low, fld_append_high, fld_all, fld_zero, Nat.reduceSub, if_true, if_false, BitVec.reduceEq, and_self, false_and]
  exact filter_wf r hw

theorem Sys2Proof.Laws.Encoding.afmin (d : BitVec 5) (a : BitVec 5) (b : BitVec 5) (c : BitVec 3) : Statement (.afmin d a b c) := by
  refine of_slot (k := 3) (w := 17#6 ++ d ++ a ++ b ++ 2#7 ++ c ++ 0#1) rfl rfl rfl (fun hw => ?_)
  have op : opcode (17#6 ++ d ++ a ++ b ++ 2#7 ++ c ++ 0#1 : SlotWord) = 17 := by simp (disch := decide) only [opcode, fld_append_low, fld_append_high, fld_all, Nat.reduceSub, BitVec.toNat_ofNat, Nat.reducePow, Nat.reduceMod]
  have r : rawMemory (17#6 ++ d ++ a ++ b ++ 2#7 ++ c ++ 0#1 : SlotWord) = some (.afmin d a b c) := by
    unfold rawMemory; simp (disch := decide) only [op, fld_append_low, fld_append_high, fld_all, fld_zero, Nat.reduceSub, if_true, if_false, BitVec.reduceEq, and_self, false_and]
  exact filter_wf r hw

theorem Sys2Proof.Laws.Encoding.afmax (d : BitVec 5) (a : BitVec 5) (b : BitVec 5) (c : BitVec 3) : Statement (.afmax d a b c) := by
  refine of_slot (k := 3) (w := 18#6 ++ d ++ a ++ b ++ 2#7 ++ c ++ 0#1) rfl rfl rfl (fun hw => ?_)
  have op : opcode (18#6 ++ d ++ a ++ b ++ 2#7 ++ c ++ 0#1 : SlotWord) = 18 := by simp (disch := decide) only [opcode, fld_append_low, fld_append_high, fld_all, Nat.reduceSub, BitVec.toNat_ofNat, Nat.reducePow, Nat.reduceMod]
  have r : rawMemory (18#6 ++ d ++ a ++ b ++ 2#7 ++ c ++ 0#1 : SlotWord) = some (.afmax d a b c) := by
    unfold rawMemory; simp (disch := decide) only [op, fld_append_low, fld_append_high, fld_all, fld_zero, Nat.reduceSub, if_true, if_false, BitVec.reduceEq, and_self, false_and]
  exact filter_wf r hw

theorem Sys2Proof.Laws.Encoding.aswp (d : BitVec 5) (a : BitVec 5) (b : BitVec 5) (z : BitVec 2) (c : BitVec 3) : Statement (.aswp d a b z c) := by
  refine of_slot (k := 3) (w := 19#6 ++ d ++ a ++ b ++ 0#5 ++ z ++ c ++ 0#1) rfl rfl rfl (fun hw => ?_)
  have op : opcode (19#6 ++ d ++ a ++ b ++ 0#5 ++ z ++ c ++ 0#1 : SlotWord) = 19 := by simp (disch := decide) only [opcode, fld_append_low, fld_append_high, fld_all, Nat.reduceSub, BitVec.toNat_ofNat, Nat.reducePow, Nat.reduceMod]
  have r : rawMemory (19#6 ++ d ++ a ++ b ++ 0#5 ++ z ++ c ++ 0#1 : SlotWord) = some (.aswp d a b z c) := by
    unfold rawMemory; simp (disch := decide) only [op, fld_append_low, fld_append_high, fld_all, fld_zero, Nat.reduceSub, if_true, if_false, BitVec.reduceEq, and_self, false_and]
  exact filter_wf r hw

theorem Sys2Proof.Laws.Encoding.acas (d : BitVec 5) (a : BitVec 5) (b : BitVec 5) (x : BitVec 5) (z : BitVec 2) (c : BitVec 3) : Statement (.acas d a b x z c) := by
  refine of_slot (k := 3) (w := 20#6 ++ d ++ a ++ b ++ x ++ z ++ c ++ 0#1) rfl rfl rfl (fun hw => ?_)
  have op : opcode (20#6 ++ d ++ a ++ b ++ x ++ z ++ c ++ 0#1 : SlotWord) = 20 := by simp (disch := decide) only [opcode, fld_append_low, fld_append_high, fld_all, Nat.reduceSub, BitVec.toNat_ofNat, Nat.reducePow, Nat.reduceMod]
  have r : rawMemory (20#6 ++ d ++ a ++ b ++ x ++ z ++ c ++ 0#1 : SlotWord) = some (.acas d a b x z c) := by
    unfold rawMemory; simp (disch := decide) only [op, fld_append_low, fld_append_high, fld_all, fld_zero, Nat.reduceSub, if_true, if_false, BitVec.reduceEq, and_self, false_and]
  exact filter_wf r hw

theorem Sys2Proof.Laws.Encoding.vld (d : BitVec 5) (a : BitVec 5) (b : BitVec 5) (z : BitVec 2) : Statement (.vld d a b z) := by
  refine of_slot (k := 3) (w := 24#6 ++ d ++ a ++ b ++ z ++ 0#9) rfl rfl rfl (fun hw => ?_)
  have op : opcode (24#6 ++ d ++ a ++ b ++ z ++ 0#9 : SlotWord) = 24 := by simp (disch := decide) only [opcode, fld_append_low, fld_append_high, fld_all, Nat.reduceSub, BitVec.toNat_ofNat, Nat.reducePow, Nat.reduceMod]
  have r : rawMemory (24#6 ++ d ++ a ++ b ++ z ++ 0#9 : SlotWord) = some (.vld d a b z) := by
    unfold rawMemory; simp (disch := decide) only [op, fld_append_low, fld_append_high, fld_all, fld_zero, Nat.reduceSub, if_true, if_false, BitVec.reduceEq, and_self, false_and]
  exact filter_wf r hw

theorem Sys2Proof.Laws.Encoding.vldle (d : BitVec 5) (a : BitVec 5) (b : BitVec 5) (z : BitVec 2) : Statement (.vldle d a b z) := by
  refine of_slot (k := 3) (w := 25#6 ++ d ++ a ++ b ++ z ++ 0#9) rfl rfl rfl (fun hw => ?_)
  have op : opcode (25#6 ++ d ++ a ++ b ++ z ++ 0#9 : SlotWord) = 25 := by simp (disch := decide) only [opcode, fld_append_low, fld_append_high, fld_all, Nat.reduceSub, BitVec.toNat_ofNat, Nat.reducePow, Nat.reduceMod]
  have r : rawMemory (25#6 ++ d ++ a ++ b ++ z ++ 0#9 : SlotWord) = some (.vldle d a b z) := by
    unfold rawMemory; simp (disch := decide) only [op, fld_append_low, fld_append_high, fld_all, fld_zero, Nat.reduceSub, if_true, if_false, BitVec.reduceEq, and_self, false_and]
  exact filter_wf r hw

theorem Sys2Proof.Laws.Encoding.vst (s : BitVec 5) (a : BitVec 5) (b : BitVec 5) (z : BitVec 2) : Statement (.vst s a b z) := by
  refine of_slot (k := 3) (w := 26#6 ++ s ++ a ++ b ++ z ++ 0#9) rfl rfl rfl (fun hw => ?_)
  have op : opcode (26#6 ++ s ++ a ++ b ++ z ++ 0#9 : SlotWord) = 26 := by simp (disch := decide) only [opcode, fld_append_low, fld_append_high, fld_all, Nat.reduceSub, BitVec.toNat_ofNat, Nat.reducePow, Nat.reduceMod]
  have r : rawMemory (26#6 ++ s ++ a ++ b ++ z ++ 0#9 : SlotWord) = some (.vst s a b z) := by
    unfold rawMemory; simp (disch := decide) only [op, fld_append_low, fld_append_high, fld_all, fld_zero, Nat.reduceSub, if_true, if_false, BitVec.reduceEq, and_self, false_and]
  exact filter_wf r hw

theorem Sys2Proof.Laws.Encoding.vpub (a : BitVec 5) (b : BitVec 5) : Statement (.vpub a b) := by
  refine of_slot (k := 3) (w := 27#6 ++ 0#5 ++ a ++ b ++ 0#11) rfl rfl rfl (fun hw => ?_)
  have op : opcode (27#6 ++ 0#5 ++ a ++ b ++ 0#11 : SlotWord) = 27 := by simp (disch := decide) only [opcode, fld_append_low, fld_append_high, fld_all, Nat.reduceSub, BitVec.toNat_ofNat, Nat.reducePow, Nat.reduceMod]
  have r : rawMemory (27#6 ++ 0#5 ++ a ++ b ++ 0#11 : SlotWord) = some (.vpub a b) := by
    unfold rawMemory; simp (disch := decide) only [op, fld_append_low, fld_append_high, fld_all, fld_zero, Nat.reduceSub, if_true, if_false, BitVec.reduceEq, and_self, false_and]
  exact filter_wf r hw

theorem Sys2Proof.Laws.Encoding.vfloor (a : BitVec 5) (b : BitVec 5) : Statement (.vfloor a b) := by
  refine of_slot (k := 3) (w := 28#6 ++ 0#5 ++ a ++ b ++ 0#11) rfl rfl rfl (fun hw => ?_)
  have op : opcode (28#6 ++ 0#5 ++ a ++ b ++ 0#11 : SlotWord) = 28 := by simp (disch := decide) only [opcode, fld_append_low, fld_append_high, fld_all, Nat.reduceSub, BitVec.toNat_ofNat, Nat.reducePow, Nat.reduceMod]
  have r : rawMemory (28#6 ++ 0#5 ++ a ++ b ++ 0#11 : SlotWord) = some (.vfloor a b) := by
    unfold rawMemory; simp (disch := decide) only [op, fld_append_low, fld_append_high, fld_all, fld_zero, Nat.reduceSub, if_true, if_false, BitVec.reduceEq, and_self, false_and]
  exact filter_wf r hw

theorem Sys2Proof.Laws.Encoding.vdrop (a : BitVec 5) (b : BitVec 5) : Statement (.vdrop a b) := by
  refine of_slot (k := 3) (w := 29#6 ++ 0#5 ++ a ++ b ++ 0#11) rfl rfl rfl (fun hw => ?_)
  have op : opcode (29#6 ++ 0#5 ++ a ++ b ++ 0#11 : SlotWord) = 29 := by simp (disch := decide) only [opcode, fld_append_low, fld_append_high, fld_all, Nat.reduceSub, BitVec.toNat_ofNat, Nat.reducePow, Nat.reduceMod]
  have r : rawMemory (29#6 ++ 0#5 ++ a ++ b ++ 0#11 : SlotWord) = some (.vdrop a b) := by
    unfold rawMemory; simp (disch := decide) only [op, fld_append_low, fld_append_high, fld_all, fld_zero, Nat.reduceSub, if_true, if_false, BitVec.reduceEq, and_self, false_and]
  exact filter_wf r hw

theorem Sys2Proof.Laws.Encoding.vquery (d : BitVec 5) (a : BitVec 5) : Statement (.vquery d a) := by
  refine of_slot (k := 3) (w := 30#6 ++ d ++ a ++ 0#16) rfl rfl rfl (fun hw => ?_)
  have op : opcode (30#6 ++ d ++ a ++ 0#16 : SlotWord) = 30 := by simp (disch := decide) only [opcode, fld_append_low, fld_append_high, fld_all, Nat.reduceSub, BitVec.toNat_ofNat, Nat.reducePow, Nat.reduceMod]
  have r : rawMemory (30#6 ++ d ++ a ++ 0#16 : SlotWord) = some (.vquery d a) := by
    unfold rawMemory; simp (disch := decide) only [op, fld_append_low, fld_append_high, fld_all, fld_zero, Nat.reduceSub, if_true, if_false, BitVec.reduceEq, and_self, false_and]
  exact filter_wf r hw

theorem Sys2Proof.Laws.Encoding.waita (b : BitVec 5) (a : BitVec 5) (z : BitVec 2) (n : BitVec 1) : Statement (.waita b a z n) := by
  refine of_slot (k := 3) (w := 32#6 ++ b ++ a ++ z ++ n ++ 0#13) rfl rfl rfl (fun hw => ?_)
  have op : opcode (32#6 ++ b ++ a ++ z ++ n ++ 0#13 : SlotWord) = 32 := by simp (disch := decide) only [opcode, fld_append_low, fld_append_high, fld_all, Nat.reduceSub, BitVec.toNat_ofNat, Nat.reducePow, Nat.reduceMod]
  have r : rawMemory (32#6 ++ b ++ a ++ z ++ n ++ 0#13 : SlotWord) = some (.waita b a z n) := by
    unfold rawMemory; simp (disch := decide) only [op, fld_append_low, fld_append_high, fld_all, fld_zero, Nat.reduceSub, if_true, if_false, BitVec.reduceEq, and_self, false_and]
  exact filter_wf r hw

theorem Sys2Proof.Laws.Encoding.tlook (d : BitVec 5) (a : BitVec 5) : Statement (.tlook d a) := by
  refine of_slot (k := 3) (w := 33#6 ++ d ++ a ++ 0#16) rfl rfl rfl (fun hw => ?_)
  have op : opcode (33#6 ++ d ++ a ++ 0#16 : SlotWord) = 33 := by simp (disch := decide) only [opcode, fld_append_low, fld_append_high, fld_all, Nat.reduceSub, BitVec.toNat_ofNat, Nat.reducePow, Nat.reduceMod]
  have r : rawMemory (33#6 ++ d ++ a ++ 0#16 : SlotWord) = some (.tlook d a) := by
    unfold rawMemory; simp (disch := decide) only [op, fld_append_low, fld_append_high, fld_all, fld_zero, Nat.reduceSub, if_true, if_false, BitVec.reduceEq, and_self, false_and]
  exact filter_wf r hw

theorem Sys2Proof.Laws.Encoding.tset (a : BitVec 5) (b : BitVec 5) : Statement (.tset a b) := by
  refine of_slot (k := 3) (w := 34#6 ++ 0#5 ++ a ++ b ++ 0#11) rfl rfl rfl (fun hw => ?_)
  have op : opcode (34#6 ++ 0#5 ++ a ++ b ++ 0#11 : SlotWord) = 34 := by simp (disch := decide) only [opcode, fld_append_low, fld_append_high, fld_all, Nat.reduceSub, BitVec.toNat_ofNat, Nat.reducePow, Nat.reduceMod]
  have r : rawMemory (34#6 ++ 0#5 ++ a ++ b ++ 0#11 : SlotWord) = some (.tset a b) := by
    unfold rawMemory; simp (disch := decide) only [op, fld_append_low, fld_append_high, fld_all, fld_zero, Nat.reduceSub, if_true, if_false, BitVec.reduceEq, and_self, false_and]
  exact filter_wf r hw

theorem Sys2Proof.Laws.Encoding.tclr (a : BitVec 5) : Statement (.tclr a) := by
  refine of_slot (k := 3) (w := 35#6 ++ 0#5 ++ a ++ 0#16) rfl rfl rfl (fun hw => ?_)
  have op : opcode (35#6 ++ 0#5 ++ a ++ 0#16 : SlotWord) = 35 := by simp (disch := decide) only [opcode, fld_append_low, fld_append_high, fld_all, Nat.reduceSub, BitVec.toNat_ofNat, Nat.reducePow, Nat.reduceMod]
  have r : rawMemory (35#6 ++ 0#5 ++ a ++ 0#16 : SlotWord) = some (.tclr a) := by
    unfold rawMemory; simp (disch := decide) only [op, fld_append_low, fld_append_high, fld_all, fld_zero, Nat.reduceSub, if_true, if_false, BitVec.reduceEq, and_self, false_and]
  exact filter_wf r hw

theorem Sys2Proof.Laws.Encoding.spill (s : BitVec 5) (n : BitVec 16) : Statement (.spill s n) := by
  refine of_slot (k := 3) (w := 36#6 ++ s ++ 0#5 ++ n) rfl rfl rfl (fun hw => ?_)
  have op : opcode (36#6 ++ s ++ 0#5 ++ n : SlotWord) = 36 := by simp (disch := decide) only [opcode, fld_append_low, fld_append_high, fld_all, Nat.reduceSub, BitVec.toNat_ofNat, Nat.reducePow, Nat.reduceMod]
  have r : rawMemory (36#6 ++ s ++ 0#5 ++ n : SlotWord) = some (.spill s n) := by
    unfold rawMemory; simp (disch := decide) only [op, fld_append_low, fld_append_high, fld_all, fld_zero, Nat.reduceSub, if_true, if_false, BitVec.reduceEq, and_self, false_and]
  exact filter_wf r hw

theorem Sys2Proof.Laws.Encoding.fill (d : BitVec 5) (n : BitVec 16) : Statement (.fill d n) := by
  refine of_slot (k := 3) (w := 37#6 ++ d ++ 0#5 ++ n) rfl rfl rfl (fun hw => ?_)
  have op : opcode (37#6 ++ d ++ 0#5 ++ n : SlotWord) = 37 := by simp (disch := decide) only [opcode, fld_append_low, fld_append_high, fld_all, Nat.reduceSub, BitVec.toNat_ofNat, Nat.reducePow, Nat.reduceMod]
  have r : rawMemory (37#6 ++ d ++ 0#5 ++ n : SlotWord) = some (.fill d n) := by
    unfold rawMemory; simp (disch := decide) only [op, fld_append_low, fld_append_high, fld_all, fld_zero, Nat.reduceSub, if_true, if_false, BitVec.reduceEq, and_self, false_and]
  exact filter_wf r hw

theorem Sys2Proof.Laws.Encoding.vFadd (p : BitVec 4) (d : BitVec 6) (a : BitVec 6) (b : BitVec 6) (t : BitVec 4) : Statement (.vFadd p d a b t) := by
  refine of_slot (k := 4) (w := 1#6 ++ p ++ d ++ a ++ b ++ t) rfl rfl rfl (fun hw => ?_)
  have op : opcode (1#6 ++ p ++ d ++ a ++ b ++ t : SlotWord) = 1 := by simp (disch := decide) only [opcode, fld_append_low, fld_append_high, fld_all, Nat.reduceSub, BitVec.toNat_ofNat, Nat.reducePow, Nat.reduceMod]
  have r : rawVector (1#6 ++ p ++ d ++ a ++ b ++ t : SlotWord) = some (.vFadd p d a b t) := by
    unfold rawVector; simp (disch := decide) only [op, fld_append_low, fld_append_high, fld_all, fld_zero, Nat.reduceSub, if_true, if_false, BitVec.reduceEq, and_self, false_and]
  exact filter_wf r hw

theorem Sys2Proof.Laws.Encoding.vFsub (p : BitVec 4) (d : BitVec 6) (a : BitVec 6) (b : BitVec 6) (t : BitVec 4) : Statement (.vFsub p d a b t) := by
  refine of_slot (k := 4) (w := 2#6 ++ p ++ d ++ a ++ b ++ t) rfl rfl rfl (fun hw => ?_)
  have op : opcode (2#6 ++ p ++ d ++ a ++ b ++ t : SlotWord) = 2 := by simp (disch := decide) only [opcode, fld_append_low, fld_append_high, fld_all, Nat.reduceSub, BitVec.toNat_ofNat, Nat.reducePow, Nat.reduceMod]
  have r : rawVector (2#6 ++ p ++ d ++ a ++ b ++ t : SlotWord) = some (.vFsub p d a b t) := by
    unfold rawVector; simp (disch := decide) only [op, fld_append_low, fld_append_high, fld_all, fld_zero, Nat.reduceSub, if_true, if_false, BitVec.reduceEq, and_self, false_and]
  exact filter_wf r hw

theorem Sys2Proof.Laws.Encoding.vFmul (p : BitVec 4) (d : BitVec 6) (a : BitVec 6) (b : BitVec 6) (t : BitVec 4) : Statement (.vFmul p d a b t) := by
  refine of_slot (k := 4) (w := 3#6 ++ p ++ d ++ a ++ b ++ t) rfl rfl rfl (fun hw => ?_)
  have op : opcode (3#6 ++ p ++ d ++ a ++ b ++ t : SlotWord) = 3 := by simp (disch := decide) only [opcode, fld_append_low, fld_append_high, fld_all, Nat.reduceSub, BitVec.toNat_ofNat, Nat.reducePow, Nat.reduceMod]
  have r : rawVector (3#6 ++ p ++ d ++ a ++ b ++ t : SlotWord) = some (.vFmul p d a b t) := by
    unfold rawVector; simp (disch := decide) only [op, fld_append_low, fld_append_high, fld_all, fld_zero, Nat.reduceSub, if_true, if_false, BitVec.reduceEq, and_self, false_and]
  exact filter_wf r hw

theorem Sys2Proof.Laws.Encoding.vFma (p : BitVec 4) (d : BitVec 6) (a : BitVec 6) (b : BitVec 6) (t : BitVec 4) : Statement (.vFma p d a b t) := by
  refine of_slot (k := 4) (w := 4#6 ++ p ++ d ++ a ++ b ++ t) rfl rfl rfl (fun hw => ?_)
  have op : opcode (4#6 ++ p ++ d ++ a ++ b ++ t : SlotWord) = 4 := by simp (disch := decide) only [opcode, fld_append_low, fld_append_high, fld_all, Nat.reduceSub, BitVec.toNat_ofNat, Nat.reducePow, Nat.reduceMod]
  have r : rawVector (4#6 ++ p ++ d ++ a ++ b ++ t : SlotWord) = some (.vFma p d a b t) := by
    unfold rawVector; simp (disch := decide) only [op, fld_append_low, fld_append_high, fld_all, fld_zero, Nat.reduceSub, if_true, if_false, BitVec.reduceEq, and_self, false_and]
  exact filter_wf r hw

theorem Sys2Proof.Laws.Encoding.vFmin (p : BitVec 4) (d : BitVec 6) (a : BitVec 6) (b : BitVec 6) (t : BitVec 4) : Statement (.vFmin p d a b t) := by
  refine of_slot (k := 4) (w := 5#6 ++ p ++ d ++ a ++ b ++ t) rfl rfl rfl (fun hw => ?_)
  have op : opcode (5#6 ++ p ++ d ++ a ++ b ++ t : SlotWord) = 5 := by simp (disch := decide) only [opcode, fld_append_low, fld_append_high, fld_all, Nat.reduceSub, BitVec.toNat_ofNat, Nat.reducePow, Nat.reduceMod]
  have r : rawVector (5#6 ++ p ++ d ++ a ++ b ++ t : SlotWord) = some (.vFmin p d a b t) := by
    unfold rawVector; simp (disch := decide) only [op, fld_append_low, fld_append_high, fld_all, fld_zero, Nat.reduceSub, if_true, if_false, BitVec.reduceEq, and_self, false_and]
  exact filter_wf r hw

theorem Sys2Proof.Laws.Encoding.vFmax (p : BitVec 4) (d : BitVec 6) (a : BitVec 6) (b : BitVec 6) (t : BitVec 4) : Statement (.vFmax p d a b t) := by
  refine of_slot (k := 4) (w := 6#6 ++ p ++ d ++ a ++ b ++ t) rfl rfl rfl (fun hw => ?_)
  have op : opcode (6#6 ++ p ++ d ++ a ++ b ++ t : SlotWord) = 6 := by simp (disch := decide) only [opcode, fld_append_low, fld_append_high, fld_all, Nat.reduceSub, BitVec.toNat_ofNat, Nat.reducePow, Nat.reduceMod]
  have r : rawVector (6#6 ++ p ++ d ++ a ++ b ++ t : SlotWord) = some (.vFmax p d a b t) := by
    unfold rawVector; simp (disch := decide) only [op, fld_append_low, fld_append_high, fld_all, fld_zero, Nat.reduceSub, if_true, if_false, BitVec.reduceEq, and_self, false_and]
  exact filter_wf r hw

theorem Sys2Proof.Laws.Encoding.fabs (p : BitVec 4) (d : BitVec 6) (a : BitVec 6) (t : BitVec 4) : Statement (.fabs p d a t) := by
  refine of_slot (k := 4) (w := 8#6 ++ p ++ d ++ a ++ 0#6 ++ t) rfl rfl rfl (fun hw => ?_)
  have op : opcode (8#6 ++ p ++ d ++ a ++ 0#6 ++ t : SlotWord) = 8 := by simp (disch := decide) only [opcode, fld_append_low, fld_append_high, fld_all, Nat.reduceSub, BitVec.toNat_ofNat, Nat.reducePow, Nat.reduceMod]
  have r : rawVector (8#6 ++ p ++ d ++ a ++ 0#6 ++ t : SlotWord) = some (.fabs p d a t) := by
    unfold rawVector; simp (disch := decide) only [op, fld_append_low, fld_append_high, fld_all, fld_zero, Nat.reduceSub, if_true, if_false, BitVec.reduceEq, and_self, false_and]
  exact filter_wf r hw

theorem Sys2Proof.Laws.Encoding.fneg (p : BitVec 4) (d : BitVec 6) (a : BitVec 6) (t : BitVec 4) : Statement (.fneg p d a t) := by
  refine of_slot (k := 4) (w := 9#6 ++ p ++ d ++ a ++ 0#6 ++ t) rfl rfl rfl (fun hw => ?_)
  have op : opcode (9#6 ++ p ++ d ++ a ++ 0#6 ++ t : SlotWord) = 9 := by simp (disch := decide) only [opcode, fld_append_low, fld_append_high, fld_all, Nat.reduceSub, BitVec.toNat_ofNat, Nat.reducePow, Nat.reduceMod]
  have r : rawVector (9#6 ++ p ++ d ++ a ++ 0#6 ++ t : SlotWord) = some (.fneg p d a t) := by
    unfold rawVector; simp (disch := decide) only [op, fld_append_low, fld_append_high, fld_all, fld_zero, Nat.reduceSub, if_true, if_false, BitVec.reduceEq, and_self, false_and]
  exact filter_wf r hw

theorem Sys2Proof.Laws.Encoding.rcp (p : BitVec 4) (d : BitVec 6) (a : BitVec 6) : Statement (.rcp p d a) := by
  refine of_slot (k := 4) (w := 10#6 ++ p ++ d ++ a ++ 0#10) rfl rfl rfl (fun hw => ?_)
  have op : opcode (10#6 ++ p ++ d ++ a ++ 0#10 : SlotWord) = 10 := by simp (disch := decide) only [opcode, fld_append_low, fld_append_high, fld_all, Nat.reduceSub, BitVec.toNat_ofNat, Nat.reducePow, Nat.reduceMod]
  have r : rawVector (10#6 ++ p ++ d ++ a ++ 0#10 : SlotWord) = some (.rcp p d a) := by
    unfold rawVector; simp (disch := decide) only [op, fld_append_low, fld_append_high, fld_all, fld_zero, Nat.reduceSub, if_true, if_false, BitVec.reduceEq, and_self, false_and]
  exact filter_wf r hw

theorem Sys2Proof.Laws.Encoding.rsqrt (p : BitVec 4) (d : BitVec 6) (a : BitVec 6) : Statement (.rsqrt p d a) := by
  refine of_slot (k := 4) (w := 11#6 ++ p ++ d ++ a ++ 0#10) rfl rfl rfl (fun hw => ?_)
  have op : opcode (11#6 ++ p ++ d ++ a ++ 0#10 : SlotWord) = 11 := by simp (disch := decide) only [opcode, fld_append_low, fld_append_high, fld_all, Nat.reduceSub, BitVec.toNat_ofNat, Nat.reducePow, Nat.reduceMod]
  have r : rawVector (11#6 ++ p ++ d ++ a ++ 0#10 : SlotWord) = some (.rsqrt p d a) := by
    unfold rawVector; simp (disch := decide) only [op, fld_append_low, fld_append_high, fld_all, fld_zero, Nat.reduceSub, if_true, if_false, BitVec.reduceEq, and_self, false_and]
  exact filter_wf r hw

theorem Sys2Proof.Laws.Encoding.exp2 (p : BitVec 4) (d : BitVec 6) (a : BitVec 6) : Statement (.exp2 p d a) := by
  refine of_slot (k := 4) (w := 12#6 ++ p ++ d ++ a ++ 0#10) rfl rfl rfl (fun hw => ?_)
  have op : opcode (12#6 ++ p ++ d ++ a ++ 0#10 : SlotWord) = 12 := by simp (disch := decide) only [opcode, fld_append_low, fld_append_high, fld_all, Nat.reduceSub, BitVec.toNat_ofNat, Nat.reducePow, Nat.reduceMod]
  have r : rawVector (12#6 ++ p ++ d ++ a ++ 0#10 : SlotWord) = some (.exp2 p d a) := by
    unfold rawVector; simp (disch := decide) only [op, fld_append_low, fld_append_high, fld_all, fld_zero, Nat.reduceSub, if_true, if_false, BitVec.reduceEq, and_self, false_and]
  exact filter_wf r hw

theorem Sys2Proof.Laws.Encoding.log2 (p : BitVec 4) (d : BitVec 6) (a : BitVec 6) : Statement (.log2 p d a) := by
  refine of_slot (k := 4) (w := 13#6 ++ p ++ d ++ a ++ 0#10) rfl rfl rfl (fun hw => ?_)
  have op : opcode (13#6 ++ p ++ d ++ a ++ 0#10 : SlotWord) = 13 := by simp (disch := decide) only [opcode, fld_append_low, fld_append_high, fld_all, Nat.reduceSub, BitVec.toNat_ofNat, Nat.reducePow, Nat.reduceMod]
  have r : rawVector (13#6 ++ p ++ d ++ a ++ 0#10 : SlotWord) = some (.log2 p d a) := by
    unfold rawVector; simp (disch := decide) only [op, fld_append_low, fld_append_high, fld_all, fld_zero, Nat.reduceSub, if_true, if_false, BitVec.reduceEq, and_self, false_and]
  exact filter_wf r hw

theorem Sys2Proof.Laws.Encoding.cvt (p : BitVec 4) (d : BitVec 6) (a : BitVec 6) (h : BitVec 1) (s : BitVec 4) (t : BitVec 4) : Statement (.cvt p d a h s t) := by
  refine of_slot (k := 4) (w := 14#6 ++ p ++ d ++ a ++ h ++ 0#1 ++ s ++ t) rfl rfl rfl (fun hw => ?_)
  have op : opcode (14#6 ++ p ++ d ++ a ++ h ++ 0#1 ++ s ++ t : SlotWord) = 14 := by simp (disch := decide) only [opcode, fld_append_low, fld_append_high, fld_all, Nat.reduceSub, BitVec.toNat_ofNat, Nat.reducePow, Nat.reduceMod]
  have r : rawVector (14#6 ++ p ++ d ++ a ++ h ++ 0#1 ++ s ++ t : SlotWord) = some (.cvt p d a h s t) := by
    unfold rawVector; simp (disch := decide) only [op, fld_append_low, fld_append_high, fld_all, fld_zero, Nat.reduceSub, if_true, if_false, BitVec.reduceEq, and_self, false_and]
  exact filter_wf r hw

theorem Sys2Proof.Laws.Encoding.vAdd (p : BitVec 4) (d : BitVec 6) (a : BitVec 6) (b : BitVec 6) (t : BitVec 4) : Statement (.vAdd p d a b t) := by
  refine of_slot (k := 4) (w := 16#6 ++ p ++ d ++ a ++ b ++ t) rfl rfl rfl (fun hw => ?_)
  have op : opcode (16#6 ++ p ++ d ++ a ++ b ++ t : SlotWord) = 16 := by simp (disch := decide) only [opcode, fld_append_low, fld_append_high, fld_all, Nat.reduceSub, BitVec.toNat_ofNat, Nat.reducePow, Nat.reduceMod]
  have r : rawVector (16#6 ++ p ++ d ++ a ++ b ++ t : SlotWord) = some (.vAdd p d a b t) := by
    unfold rawVector; simp (disch := decide) only [op, fld_append_low, fld_append_high, fld_all, fld_zero, Nat.reduceSub, if_true, if_false, BitVec.reduceEq, and_self, false_and]
  exact filter_wf r hw

theorem Sys2Proof.Laws.Encoding.vSub (p : BitVec 4) (d : BitVec 6) (a : BitVec 6) (b : BitVec 6) (t : BitVec 4) : Statement (.vSub p d a b t) := by
  refine of_slot (k := 4) (w := 17#6 ++ p ++ d ++ a ++ b ++ t) rfl rfl rfl (fun hw => ?_)
  have op : opcode (17#6 ++ p ++ d ++ a ++ b ++ t : SlotWord) = 17 := by simp (disch := decide) only [opcode, fld_append_low, fld_append_high, fld_all, Nat.reduceSub, BitVec.toNat_ofNat, Nat.reducePow, Nat.reduceMod]
  have r : rawVector (17#6 ++ p ++ d ++ a ++ b ++ t : SlotWord) = some (.vSub p d a b t) := by
    unfold rawVector; simp (disch := decide) only [op, fld_append_low, fld_append_high, fld_all, fld_zero, Nat.reduceSub, if_true, if_false, BitVec.reduceEq, and_self, false_and]
  exact filter_wf r hw

theorem Sys2Proof.Laws.Encoding.vMul (p : BitVec 4) (d : BitVec 6) (a : BitVec 6) (b : BitVec 6) (t : BitVec 4) : Statement (.vMul p d a b t) := by
  refine of_slot (k := 4) (w := 18#6 ++ p ++ d ++ a ++ b ++ t) rfl rfl rfl (fun hw => ?_)
  have op : opcode (18#6 ++ p ++ d ++ a ++ b ++ t : SlotWord) = 18 := by simp (disch := decide) only [opcode, fld_append_low, fld_append_high, fld_all, Nat.reduceSub, BitVec.toNat_ofNat, Nat.reducePow, Nat.reduceMod]
  have r : rawVector (18#6 ++ p ++ d ++ a ++ b ++ t : SlotWord) = some (.vMul p d a b t) := by
    unfold rawVector; simp (disch := decide) only [op, fld_append_low, fld_append_high, fld_all, fld_zero, Nat.reduceSub, if_true, if_false, BitVec.reduceEq, and_self, false_and]
  exact filter_wf r hw

theorem Sys2Proof.Laws.Encoding.vMin (p : BitVec 4) (d : BitVec 6) (a : BitVec 6) (b : BitVec 6) (t : BitVec 4) : Statement (.vMin p d a b t) := by
  refine of_slot (k := 4) (w := 19#6 ++ p ++ d ++ a ++ b ++ t) rfl rfl rfl (fun hw => ?_)
  have op : opcode (19#6 ++ p ++ d ++ a ++ b ++ t : SlotWord) = 19 := by simp (disch := decide) only [opcode, fld_append_low, fld_append_high, fld_all, Nat.reduceSub, BitVec.toNat_ofNat, Nat.reducePow, Nat.reduceMod]
  have r : rawVector (19#6 ++ p ++ d ++ a ++ b ++ t : SlotWord) = some (.vMin p d a b t) := by
    unfold rawVector; simp (disch := decide) only [op, fld_append_low, fld_append_high, fld_all, fld_zero, Nat.reduceSub, if_true, if_false, BitVec.reduceEq, and_self, false_and]
  exact filter_wf r hw

theorem Sys2Proof.Laws.Encoding.vMax (p : BitVec 4) (d : BitVec 6) (a : BitVec 6) (b : BitVec 6) (t : BitVec 4) : Statement (.vMax p d a b t) := by
  refine of_slot (k := 4) (w := 20#6 ++ p ++ d ++ a ++ b ++ t) rfl rfl rfl (fun hw => ?_)
  have op : opcode (20#6 ++ p ++ d ++ a ++ b ++ t : SlotWord) = 20 := by simp (disch := decide) only [opcode, fld_append_low, fld_append_high, fld_all, Nat.reduceSub, BitVec.toNat_ofNat, Nat.reducePow, Nat.reduceMod]
  have r : rawVector (20#6 ++ p ++ d ++ a ++ b ++ t : SlotWord) = some (.vMax p d a b t) := by
    unfold rawVector; simp (disch := decide) only [op, fld_append_low, fld_append_high, fld_all, fld_zero, Nat.reduceSub, if_true, if_false, BitVec.reduceEq, and_self, false_and]
  exact filter_wf r hw

theorem Sys2Proof.Laws.Encoding.vAnd (p : BitVec 4) (d : BitVec 6) (a : BitVec 6) (b : BitVec 6) (t : BitVec 4) : Statement (.vAnd p d a b t) := by
  refine of_slot (k := 4) (w := 21#6 ++ p ++ d ++ a ++ b ++ t) rfl rfl rfl (fun hw => ?_)
  have op : opcode (21#6 ++ p ++ d ++ a ++ b ++ t : SlotWord) = 21 := by simp (disch := decide) only [opcode, fld_append_low, fld_append_high, fld_all, Nat.reduceSub, BitVec.toNat_ofNat, Nat.reducePow, Nat.reduceMod]
  have r : rawVector (21#6 ++ p ++ d ++ a ++ b ++ t : SlotWord) = some (.vAnd p d a b t) := by
    unfold rawVector; simp (disch := decide) only [op, fld_append_low, fld_append_high, fld_all, fld_zero, Nat.reduceSub, if_true, if_false, BitVec.reduceEq, and_self, false_and]
  exact filter_wf r hw

theorem Sys2Proof.Laws.Encoding.vOr (p : BitVec 4) (d : BitVec 6) (a : BitVec 6) (b : BitVec 6) (t : BitVec 4) : Statement (.vOr p d a b t) := by
  refine of_slot (k := 4) (w := 22#6 ++ p ++ d ++ a ++ b ++ t) rfl rfl rfl (fun hw => ?_)
  have op : opcode (22#6 ++ p ++ d ++ a ++ b ++ t : SlotWord) = 22 := by simp (disch := decide) only [opcode, fld_append_low, fld_append_high, fld_all, Nat.reduceSub, BitVec.toNat_ofNat, Nat.reducePow, Nat.reduceMod]
  have r : rawVector (22#6 ++ p ++ d ++ a ++ b ++ t : SlotWord) = some (.vOr p d a b t) := by
    unfold rawVector; simp (disch := decide) only [op, fld_append_low, fld_append_high, fld_all, fld_zero, Nat.reduceSub, if_true, if_false, BitVec.reduceEq, and_self, false_and]
  exact filter_wf r hw

theorem Sys2Proof.Laws.Encoding.vXor (p : BitVec 4) (d : BitVec 6) (a : BitVec 6) (b : BitVec 6) (t : BitVec 4) : Statement (.vXor p d a b t) := by
  refine of_slot (k := 4) (w := 23#6 ++ p ++ d ++ a ++ b ++ t) rfl rfl rfl (fun hw => ?_)
  have op : opcode (23#6 ++ p ++ d ++ a ++ b ++ t : SlotWord) = 23 := by simp (disch := decide) only [opcode, fld_append_low, fld_append_high, fld_all, Nat.reduceSub, BitVec.toNat_ofNat, Nat.reducePow, Nat.reduceMod]
  have r : rawVector (23#6 ++ p ++ d ++ a ++ b ++ t : SlotWord) = some (.vXor p d a b t) := by
    unfold rawVector; simp (disch := decide) only [op, fld_append_low, fld_append_high, fld_all, fld_zero, Nat.reduceSub, if_true, if_false, BitVec.reduceEq, and_self, false_and]
  exact filter_wf r hw

theorem Sys2Proof.Laws.Encoding.vShl (p : BitVec 4) (d : BitVec 6) (a : BitVec 6) (b : BitVec 6) (t : BitVec 4) : Statement (.vShl p d a b t) := by
  refine of_slot (k := 4) (w := 24#6 ++ p ++ d ++ a ++ b ++ t) rfl rfl rfl (fun hw => ?_)
  have op : opcode (24#6 ++ p ++ d ++ a ++ b ++ t : SlotWord) = 24 := by simp (disch := decide) only [opcode, fld_append_low, fld_append_high, fld_all, Nat.reduceSub, BitVec.toNat_ofNat, Nat.reducePow, Nat.reduceMod]
  have r : rawVector (24#6 ++ p ++ d ++ a ++ b ++ t : SlotWord) = some (.vShl p d a b t) := by
    unfold rawVector; simp (disch := decide) only [op, fld_append_low, fld_append_high, fld_all, fld_zero, Nat.reduceSub, if_true, if_false, BitVec.reduceEq, and_self, false_and]
  exact filter_wf r hw

theorem Sys2Proof.Laws.Encoding.vShr (p : BitVec 4) (d : BitVec 6) (a : BitVec 6) (b : BitVec 6) (t : BitVec 4) : Statement (.vShr p d a b t) := by
  refine of_slot (k := 4) (w := 25#6 ++ p ++ d ++ a ++ b ++ t) rfl rfl rfl (fun hw => ?_)
  have op : opcode (25#6 ++ p ++ d ++ a ++ b ++ t : SlotWord) = 25 := by simp (disch := decide) only [opcode, fld_append_low, fld_append_high, fld_all, Nat.reduceSub, BitVec.toNat_ofNat, Nat.reducePow, Nat.reduceMod]
  have r : rawVector (25#6 ++ p ++ d ++ a ++ b ++ t : SlotWord) = some (.vShr p d a b t) := by
    unfold rawVector; simp (disch := decide) only [op, fld_append_low, fld_append_high, fld_all, fld_zero, Nat.reduceSub, if_true, if_false, BitVec.reduceEq, and_self, false_and]
  exact filter_wf r hw

theorem Sys2Proof.Laws.Encoding.vSar (p : BitVec 4) (d : BitVec 6) (a : BitVec 6) (b : BitVec 6) (t : BitVec 4) : Statement (.vSar p d a b t) := by
  refine of_slot (k := 4) (w := 26#6 ++ p ++ d ++ a ++ b ++ t) rfl rfl rfl (fun hw => ?_)
  have op : opcode (26#6 ++ p ++ d ++ a ++ b ++ t : SlotWord) = 26 := by simp (disch := decide) only [opcode, fld_append_low, fld_append_high, fld_all, Nat.reduceSub, BitVec.toNat_ofNat, Nat.reducePow, Nat.reduceMod]
  have r : rawVector (26#6 ++ p ++ d ++ a ++ b ++ t : SlotWord) = some (.vSar p d a b t) := by
    unfold rawVector; simp (disch := decide) only [op, fld_append_low, fld_append_high, fld_all, fld_zero, Nat.reduceSub, if_true, if_false, BitVec.reduceEq, and_self, false_and]
  exact filter_wf r hw

theorem Sys2Proof.Laws.Encoding.vShli (p : BitVec 4) (d : BitVec 6) (a : BitVec 6) (i : BitVec 6) (t : BitVec 4) : Statement (.vShli p d a i t) := by
  refine of_slot (k := 4) (w := 27#6 ++ p ++ d ++ a ++ i ++ t) rfl rfl rfl (fun hw => ?_)
  have op : opcode (27#6 ++ p ++ d ++ a ++ i ++ t : SlotWord) = 27 := by simp (disch := decide) only [opcode, fld_append_low, fld_append_high, fld_all, Nat.reduceSub, BitVec.toNat_ofNat, Nat.reducePow, Nat.reduceMod]
  have r : rawVector (27#6 ++ p ++ d ++ a ++ i ++ t : SlotWord) = some (.vShli p d a i t) := by
    unfold rawVector; simp (disch := decide) only [op, fld_append_low, fld_append_high, fld_all, fld_zero, Nat.reduceSub, if_true, if_false, BitVec.reduceEq, and_self, false_and]
  exact filter_wf r hw

theorem Sys2Proof.Laws.Encoding.vShri (p : BitVec 4) (d : BitVec 6) (a : BitVec 6) (i : BitVec 6) (t : BitVec 4) : Statement (.vShri p d a i t) := by
  refine of_slot (k := 4) (w := 28#6 ++ p ++ d ++ a ++ i ++ t) rfl rfl rfl (fun hw => ?_)
  have op : opcode (28#6 ++ p ++ d ++ a ++ i ++ t : SlotWord) = 28 := by simp (disch := decide) only [opcode, fld_append_low, fld_append_high, fld_all, Nat.reduceSub, BitVec.toNat_ofNat, Nat.reducePow, Nat.reduceMod]
  have r : rawVector (28#6 ++ p ++ d ++ a ++ i ++ t : SlotWord) = some (.vShri p d a i t) := by
    unfold rawVector; simp (disch := decide) only [op, fld_append_low, fld_append_high, fld_all, fld_zero, Nat.reduceSub, if_true, if_false, BitVec.reduceEq, and_self, false_and]
  exact filter_wf r hw

theorem Sys2Proof.Laws.Encoding.vSari (p : BitVec 4) (d : BitVec 6) (a : BitVec 6) (i : BitVec 6) (t : BitVec 4) : Statement (.vSari p d a i t) := by
  refine of_slot (k := 4) (w := 29#6 ++ p ++ d ++ a ++ i ++ t) rfl rfl rfl (fun hw => ?_)
  have op : opcode (29#6 ++ p ++ d ++ a ++ i ++ t : SlotWord) = 29 := by simp (disch := decide) only [opcode, fld_append_low, fld_append_high, fld_all, Nat.reduceSub, BitVec.toNat_ofNat, Nat.reducePow, Nat.reduceMod]
  have r : rawVector (29#6 ++ p ++ d ++ a ++ i ++ t : SlotWord) = some (.vSari p d a i t) := by
    unfold rawVector; simp (disch := decide) only [op, fld_append_low, fld_append_high, fld_all, fld_zero, Nat.reduceSub, if_true, if_false, BitVec.reduceEq, and_self, false_and]
  exact filter_wf r hw

theorem Sys2Proof.Laws.Encoding.vFshl (p : BitVec 4) (d : BitVec 6) (a : BitVec 6) (b : BitVec 6) (t : BitVec 4) : Statement (.vFshl p d a b t) := by
  refine of_slot (k := 4) (w := 30#6 ++ p ++ d ++ a ++ b ++ t) rfl rfl rfl (fun hw => ?_)
  have op : opcode (30#6 ++ p ++ d ++ a ++ b ++ t : SlotWord) = 30 := by simp (disch := decide) only [opcode, fld_append_low, fld_append_high, fld_all, Nat.reduceSub, BitVec.toNat_ofNat, Nat.reducePow, Nat.reduceMod]
  have r : rawVector (30#6 ++ p ++ d ++ a ++ b ++ t : SlotWord) = some (.vFshl p d a b t) := by
    unfold rawVector; simp (disch := decide) only [op, fld_append_low, fld_append_high, fld_all, fld_zero, Nat.reduceSub, if_true, if_false, BitVec.reduceEq, and_self, false_and]
  exact filter_wf r hw

theorem Sys2Proof.Laws.Encoding.vFshr (p : BitVec 4) (d : BitVec 6) (a : BitVec 6) (b : BitVec 6) (t : BitVec 4) : Statement (.vFshr p d a b t) := by
  refine of_slot (k := 4) (w := 31#6 ++ p ++ d ++ a ++ b ++ t) rfl rfl rfl (fun hw => ?_)
  have op : opcode (31#6 ++ p ++ d ++ a ++ b ++ t : SlotWord) = 31 := by simp (disch := decide) only [opcode, fld_append_low, fld_append_high, fld_all, Nat.reduceSub, BitVec.toNat_ofNat, Nat.reducePow, Nat.reduceMod]
  have r : rawVector (31#6 ++ p ++ d ++ a ++ b ++ t : SlotWord) = some (.vFshr p d a b t) := by
    unfold rawVector; simp (disch := decide) only [op, fld_append_low, fld_append_high, fld_all, fld_zero, Nat.reduceSub, if_true, if_false, BitVec.reduceEq, and_self, false_and]
  exact filter_wf r hw

theorem Sys2Proof.Laws.Encoding.cmpm (p : BitVec 4) (c : BitVec 4) (a : BitVec 6) (b : BitVec 6) (t : BitVec 4) : Statement (.cmpm p c a b t) := by
  refine of_slot (k := 4) (w := 32#6 ++ p ++ c ++ 0#2 ++ a ++ b ++ t) rfl rfl rfl (fun hw => ?_)
  have op : opcode (32#6 ++ p ++ c ++ 0#2 ++ a ++ b ++ t : SlotWord) = 32 := by simp (disch := decide) only [opcode, fld_append_low, fld_append_high, fld_all, Nat.reduceSub, BitVec.toNat_ofNat, Nat.reducePow, Nat.reduceMod]
  have r : rawVector (32#6 ++ p ++ c ++ 0#2 ++ a ++ b ++ t : SlotWord) = some (.cmpm p c a b t) := by
    unfold rawVector; simp (disch := decide) only [op, fld_append_low, fld_append_high, fld_all, fld_zero, Nat.reduceSub, if_true, if_false, BitVec.reduceEq, and_self, false_and]
  exact filter_wf r hw

theorem Sys2Proof.Laws.Encoding.vSel (p : BitVec 4) (d : BitVec 6) (a : BitVec 6) (b : BitVec 6) (t : BitVec 4) : Statement (.vSel p d a b t) := by
  refine of_slot (k := 4) (w := 33#6 ++ p ++ d ++ a ++ b ++ t) rfl rfl rfl (fun hw => ?_)
  have op : opcode (33#6 ++ p ++ d ++ a ++ b ++ t : SlotWord) = 33 := by simp (disch := decide) only [opcode, fld_append_low, fld_append_high, fld_all, Nat.reduceSub, BitVec.toNat_ofNat, Nat.reducePow, Nat.reduceMod]
  have r : rawVector (33#6 ++ p ++ d ++ a ++ b ++ t : SlotWord) = some (.vSel p d a b t) := by
    unfold rawVector; simp (disch := decide) only [op, fld_append_low, fld_append_high, fld_all, fld_zero, Nat.reduceSub, if_true, if_false, BitVec.reduceEq, and_self, false_and]
  exact filter_wf r hw

theorem Sys2Proof.Laws.Encoding.mpush (p : BitVec 4) (c : BitVec 4) (a : BitVec 6) (b : BitVec 6) (t : BitVec 4) : Statement (.mpush p c a b t) := by
  refine of_slot (k := 4) (w := 34#6 ++ p ++ c ++ 0#2 ++ a ++ b ++ t) rfl rfl rfl (fun hw => ?_)
  have op : opcode (34#6 ++ p ++ c ++ 0#2 ++ a ++ b ++ t : SlotWord) = 34 := by simp (disch := decide) only [opcode, fld_append_low, fld_append_high, fld_all, Nat.reduceSub, BitVec.toNat_ofNat, Nat.reducePow, Nat.reduceMod]
  have r : rawVector (34#6 ++ p ++ c ++ 0#2 ++ a ++ b ++ t : SlotWord) = some (.mpush p c a b t) := by
    unfold rawVector; simp (disch := decide) only [op, fld_append_low, fld_append_high, fld_all, fld_zero, Nat.reduceSub, if_true, if_false, BitVec.reduceEq, and_self, false_and]
  exact filter_wf r hw

theorem Sys2Proof.Laws.Encoding.minv (p : BitVec 4) : Statement (.minv p) := by
  refine of_slot (k := 4) (w := 35#6 ++ p ++ 0#22) rfl rfl rfl (fun hw => ?_)
  have op : opcode (35#6 ++ p ++ 0#22 : SlotWord) = 35 := by simp (disch := decide) only [opcode, fld_append_low, fld_append_high, fld_all, Nat.reduceSub, BitVec.toNat_ofNat, Nat.reducePow, Nat.reduceMod]
  have r : rawVector (35#6 ++ p ++ 0#22 : SlotWord) = some (.minv p) := by
    unfold rawVector; simp (disch := decide) only [op, fld_append_low, fld_append_high, fld_all, fld_zero, Nat.reduceSub, if_true, if_false, BitVec.reduceEq, and_self, false_and]
  exact filter_wf r hw

theorem Sys2Proof.Laws.Encoding.mpop (p : BitVec 4) : Statement (.mpop p) := by
  refine of_slot (k := 4) (w := 36#6 ++ p ++ 0#22) rfl rfl rfl (fun hw => ?_)
  have op : opcode (36#6 ++ p ++ 0#22 : SlotWord) = 36 := by simp (disch := decide) only [opcode, fld_append_low, fld_append_high, fld_all, Nat.reduceSub, BitVec.toNat_ofNat, Nat.reducePow, Nat.reduceMod]
  have r : rawVector (36#6 ++ p ++ 0#22 : SlotWord) = some (.mpop p) := by
    unfold rawVector; simp (disch := decide) only [op, fld_append_low, fld_append_high, fld_all, fld_zero, Nat.reduceSub, if_true, if_false, BitVec.reduceEq, and_self, false_and]
  exact filter_wf r hw

theorem Sys2Proof.Laws.Encoding.chkb (p : BitVec 4) (d : BitVec 6) (a : BitVec 6) (g : BitVec 4) (t : BitVec 4) : Statement (.chkb p d a g t) := by
  refine of_slot (k := 4) (w := 37#6 ++ p ++ d ++ a ++ 0#2 ++ g ++ t) rfl rfl rfl (fun hw => ?_)
  have op : opcode (37#6 ++ p ++ d ++ a ++ 0#2 ++ g ++ t : SlotWord) = 37 := by simp (disch := decide) only [opcode, fld_append_low, fld_append_high, fld_all, Nat.reduceSub, BitVec.toNat_ofNat, Nat.reducePow, Nat.reduceMod]
  have r : rawVector (37#6 ++ p ++ d ++ a ++ 0#2 ++ g ++ t : SlotWord) = some (.chkb p d a g t) := by
    unfold rawVector; simp (disch := decide) only [op, fld_append_low, fld_append_high, fld_all, fld_zero, Nat.reduceSub, if_true, if_false, BitVec.reduceEq, and_self, false_and]
  exact filter_wf r hw

theorem Sys2Proof.Laws.Encoding.red (p : BitVec 4) (d : BitVec 6) (a : BitVec 6) (l : BitVec 3) (k : BitVec 3) (t : BitVec 4) : Statement (.red p d a l k t) := by
  refine of_slot (k := 4) (w := 40#6 ++ p ++ d ++ a ++ l ++ k ++ t) rfl rfl rfl (fun hw => ?_)
  have op : opcode (40#6 ++ p ++ d ++ a ++ l ++ k ++ t : SlotWord) = 40 := by simp (disch := decide) only [opcode, fld_append_low, fld_append_high, fld_all, Nat.reduceSub, BitVec.toNat_ofNat, Nat.reducePow, Nat.reduceMod]
  have r : rawVector (40#6 ++ p ++ d ++ a ++ l ++ k ++ t : SlotWord) = some (.red p d a l k t) := by
    unfold rawVector; simp (disch := decide) only [op, fld_append_low, fld_append_high, fld_all, fld_zero, Nat.reduceSub, if_true, if_false, BitVec.reduceEq, and_self, false_and]
  exact filter_wf r hw

theorem Sys2Proof.Laws.Encoding.scan (p : BitVec 4) (d : BitVec 6) (a : BitVec 6) (l : BitVec 3) (k : BitVec 3) (t : BitVec 4) : Statement (.scan p d a l k t) := by
  refine of_slot (k := 4) (w := 41#6 ++ p ++ d ++ a ++ l ++ k ++ t) rfl rfl rfl (fun hw => ?_)
  have op : opcode (41#6 ++ p ++ d ++ a ++ l ++ k ++ t : SlotWord) = 41 := by simp (disch := decide) only [opcode, fld_append_low, fld_append_high, fld_all, Nat.reduceSub, BitVec.toNat_ofNat, Nat.reducePow, Nat.reduceMod]
  have r : rawVector (41#6 ++ p ++ d ++ a ++ l ++ k ++ t : SlotWord) = some (.scan p d a l k t) := by
    unfold rawVector; simp (disch := decide) only [op, fld_append_low, fld_append_high, fld_all, fld_zero, Nat.reduceSub, if_true, if_false, BitVec.reduceEq, and_self, false_and]
  exact filter_wf r hw

theorem Sys2Proof.Laws.Encoding.bcast (p : BitVec 4) (d : BitVec 6) (a : BitVec 6) (i : BitVec 6) (t : BitVec 4) : Statement (.bcast p d a i t) := by
  refine of_slot (k := 4) (w := 42#6 ++ p ++ d ++ a ++ i ++ t) rfl rfl rfl (fun hw => ?_)
  have op : opcode (42#6 ++ p ++ d ++ a ++ i ++ t : SlotWord) = 42 := by simp (disch := decide) only [opcode, fld_append_low, fld_append_high, fld_all, Nat.reduceSub, BitVec.toNat_ofNat, Nat.reducePow, Nat.reduceMod]
  have r : rawVector (42#6 ++ p ++ d ++ a ++ i ++ t : SlotWord) = some (.bcast p d a i t) := by
    unfold rawVector; simp (disch := decide) only [op, fld_append_low, fld_append_high, fld_all, fld_zero, Nat.reduceSub, if_true, if_false, BitVec.reduceEq, and_self, false_and]
  exact filter_wf r hw

theorem Sys2Proof.Laws.Encoding.perm (p : BitVec 4) (d : BitVec 6) (a : BitVec 6) (b : BitVec 6) (t : BitVec 4) : Statement (.perm p d a b t) := by
  refine of_slot (k := 4) (w := 43#6 ++ p ++ d ++ a ++ b ++ t) rfl rfl rfl (fun hw => ?_)
  have op : opcode (43#6 ++ p ++ d ++ a ++ b ++ t : SlotWord) = 43 := by simp (disch := decide) only [opcode, fld_append_low, fld_append_high, fld_all, Nat.reduceSub, BitVec.toNat_ofNat, Nat.reducePow, Nat.reduceMod]
  have r : rawVector (43#6 ++ p ++ d ++ a ++ b ++ t : SlotWord) = some (.perm p d a b t) := by
    unfold rawVector; simp (disch := decide) only [op, fld_append_low, fld_append_high, fld_all, fld_zero, Nat.reduceSub, if_true, if_false, BitVec.reduceEq, and_self, false_and]
  exact filter_wf r hw

theorem Sys2Proof.Laws.Encoding.rotm (p : BitVec 4) (d : BitVec 6) (a : BitVec 6) (n : BitVec 7) : Statement (.rotm p d a n) := by
  refine of_slot (k := 4) (w := 44#6 ++ p ++ d ++ a ++ n ++ 0#3) rfl rfl rfl (fun hw => ?_)
  have op : opcode (44#6 ++ p ++ d ++ a ++ n ++ 0#3 : SlotWord) = 44 := by simp (disch := decide) only [opcode, fld_append_low, fld_append_high, fld_all, Nat.reduceSub, BitVec.toNat_ofNat, Nat.reducePow, Nat.reduceMod]
  have r : rawVector (44#6 ++ p ++ d ++ a ++ n ++ 0#3 : SlotWord) = some (.rotm p d a n) := by
    unfold rawVector; simp (disch := decide) only [op, fld_append_low, fld_append_high, fld_all, fld_zero, Nat.reduceSub, if_true, if_false, BitVec.reduceEq, and_self, false_and]
  exact filter_wf r hw

theorem Sys2Proof.Laws.Encoding.rndb (p : BitVec 4) (d : BitVec 6) : Statement (.rndb p d) := by
  refine of_slot (k := 4) (w := 48#6 ++ p ++ d ++ 0#16) rfl rfl rfl (fun hw => ?_)
  have op : opcode (48#6 ++ p ++ d ++ 0#16 : SlotWord) = 48 := by simp (disch := decide) only [opcode, fld_append_low, fld_append_high, fld_all, Nat.reduceSub, BitVec.toNat_ofNat, Nat.reducePow, Nat.reduceMod]
  have r : rawVector (48#6 ++ p ++ d ++ 0#16 : SlotWord) = some (.rndb p d) := by
    unfold rawVector; simp (disch := decide) only [op, fld_append_low, fld_append_high, fld_all, fld_zero, Nat.reduceSub, if_true, if_false, BitVec.reduceEq, and_self, false_and]
  exact filter_wf r hw

theorem Sys2Proof.Laws.Encoding.rndf (p : BitVec 4) (d : BitVec 6) (t : BitVec 4) : Statement (.rndf p d t) := by
  refine of_slot (k := 4) (w := 49#6 ++ p ++ d ++ 0#12 ++ t) rfl rfl rfl (fun hw => ?_)
  have op : opcode (49#6 ++ p ++ d ++ 0#12 ++ t : SlotWord) = 49 := by simp (disch := decide) only [opcode, fld_append_low, fld_append_high, fld_all, Nat.reduceSub, BitVec.toNat_ofNat, Nat.reducePow, Nat.reduceMod]
  have r : rawVector (49#6 ++ p ++ d ++ 0#12 ++ t : SlotWord) = some (.rndf p d t) := by
    unfold rawVector; simp (disch := decide) only [op, fld_append_low, fld_append_high, fld_all, fld_zero, Nat.reduceSub, if_true, if_false, BitVec.reduceEq, and_self, false_and]
  exact filter_wf r hw

theorem Sys2Proof.Laws.Encoding.rndi (p : BitVec 4) (d : BitVec 6) (a : BitVec 5) (t : BitVec 4) : Statement (.rndi p d a t) := by
  refine of_slot (k := 4) (w := 50#6 ++ p ++ d ++ a ++ 0#7 ++ t) rfl rfl rfl (fun hw => ?_)
  have op : opcode (50#6 ++ p ++ d ++ a ++ 0#7 ++ t : SlotWord) = 50 := by simp (disch := decide) only [opcode, fld_append_low, fld_append_high, fld_all, Nat.reduceSub, BitVec.toNat_ofNat, Nat.reducePow, Nat.reduceMod]
  have r : rawVector (50#6 ++ p ++ d ++ a ++ 0#7 ++ t : SlotWord) = some (.rndi p d a t) := by
    unfold rawVector; simp (disch := decide) only [op, fld_append_low, fld_append_high, fld_all, fld_zero, Nat.reduceSub, if_true, if_false, BitVec.reduceEq, and_self, false_and]
  exact filter_wf r hw

theorem Sys2Proof.Laws.Encoding.sampc (p : BitVec 4) (d : BitVec 6) (a : BitVec 6) : Statement (.sampc p d a) := by
  refine of_slot (k := 4) (w := 51#6 ++ p ++ d ++ a ++ 0#10) rfl rfl rfl (fun hw => ?_)
  have op : opcode (51#6 ++ p ++ d ++ a ++ 0#10 : SlotWord) = 51 := by simp (disch := decide) only [opcode, fld_append_low, fld_append_high, fld_all, Nat.reduceSub, BitVec.toNat_ofNat, Nat.reducePow, Nat.reduceMod]
  have r : rawVector (51#6 ++ p ++ d ++ a ++ 0#10 : SlotWord) = some (.sampc p d a) := by
    unfold rawVector; simp (disch := decide) only [op, fld_append_low, fld_append_high, fld_all, fld_zero, Nat.reduceSub, if_true, if_false, BitVec.reduceEq, and_self, false_and]
  exact filter_wf r hw

theorem Sys2Proof.Laws.Encoding.vldrRow (v : BitVec 6) (a : BitVec 5) (i : BitVec 8) : Statement (.vldrRow v a i) := by
  refine of_slot (k := 6) (w := 1#6 ++ v ++ 0#2 ++ a ++ 0#5 ++ i) rfl rfl rfl (fun hw => ?_)
  have op : opcode (1#6 ++ v ++ 0#2 ++ a ++ 0#5 ++ i : SlotWord) = 1 := by simp (disch := decide) only [opcode, fld_append_low, fld_append_high, fld_all, Nat.reduceSub, BitVec.toNat_ofNat, Nat.reducePow, Nat.reduceMod]
  have r : rawRow (1#6 ++ v ++ 0#2 ++ a ++ 0#5 ++ i : SlotWord) = some (.vldrRow v a i) := by
    unfold rawRow; simp (disch := decide) only [op, fld_append_low, fld_append_high, fld_all, fld_zero, Nat.reduceSub, if_true, if_false, BitVec.reduceEq, and_self, false_and]
  exact filter_wf r hw

theorem Sys2Proof.Laws.Encoding.vstrRow (v : BitVec 6) (a : BitVec 5) (m : BitVec 5) (i : BitVec 8) : Statement (.vstrRow v a m i) := by
  refine of_slot (k := 6) (w := 2#6 ++ v ++ 0#2 ++ a ++ m ++ i) rfl rfl rfl (fun hw => ?_)
  have op : opcode (2#6 ++ v ++ 0#2 ++ a ++ m ++ i : SlotWord) = 2 := by simp (disch := decide) only [opcode, fld_append_low, fld_append_high, fld_all, Nat.reduceSub, BitVec.toNat_ofNat, Nat.reducePow, Nat.reduceMod]
  have r : rawRow (2#6 ++ v ++ 0#2 ++ a ++ m ++ i : SlotWord) = some (.vstrRow v a m i) := by
    unfold rawRow; simp (disch := decide) only [op, fld_append_low, fld_append_high, fld_all, fld_zero, Nat.reduceSub, if_true, if_false, BitVec.reduceEq, and_self, false_and]
  exact filter_wf r hw

theorem Sys2Proof.Laws.Encoding.vldrRing (v : BitVec 6) (q : BitVec 4) (i : BitVec 8) : Statement (.vldrRing v q i) := by
  refine of_slot (k := 6) (w := 1#6 ++ v ++ 1#2 ++ q ++ 0#6 ++ i) rfl rfl rfl (fun hw => ?_)
  have op : opcode (1#6 ++ v ++ 1#2 ++ q ++ 0#6 ++ i : SlotWord) = 1 := by simp (disch := decide) only [opcode, fld_append_low, fld_append_high, fld_all, Nat.reduceSub, BitVec.toNat_ofNat, Nat.reducePow, Nat.reduceMod]
  have r : rawRow (1#6 ++ v ++ 1#2 ++ q ++ 0#6 ++ i : SlotWord) = some (.vldrRing v q i) := by
    unfold rawRow; simp (disch := decide) only [op, fld_append_low, fld_append_high, fld_all, fld_zero, Nat.reduceSub, if_true, if_false, BitVec.reduceEq, and_self, false_and]
  exact filter_wf r hw

theorem Sys2Proof.Laws.Encoding.vstrRing (v : BitVec 6) (q : BitVec 4) (m : BitVec 5) (i : BitVec 8) : Statement (.vstrRing v q m i) := by
  refine of_slot (k := 6) (w := 2#6 ++ v ++ 1#2 ++ q ++ 0#1 ++ m ++ i) rfl rfl rfl (fun hw => ?_)
  have op : opcode (2#6 ++ v ++ 1#2 ++ q ++ 0#1 ++ m ++ i : SlotWord) = 2 := by simp (disch := decide) only [opcode, fld_append_low, fld_append_high, fld_all, Nat.reduceSub, BitVec.toNat_ofNat, Nat.reducePow, Nat.reduceMod]
  have r : rawRow (2#6 ++ v ++ 1#2 ++ q ++ 0#1 ++ m ++ i : SlotWord) = some (.vstrRing v q m i) := by
    unfold rawRow; simp (disch := decide) only [op, fld_append_low, fld_append_high, fld_all, fld_zero, Nat.reduceSub, if_true, if_false, BitVec.reduceEq, and_self, false_and]
  exact filter_wf r hw

theorem Sys2Proof.Laws.Encoding.vldrGenerator (v : BitVec 6) (g : BitVec 2) : Statement (.vldrGenerator v g) := by
  refine of_slot (k := 6) (w := 1#6 ++ v ++ 2#2 ++ g ++ 0#16) rfl rfl rfl (fun hw => ?_)
  have op : opcode (1#6 ++ v ++ 2#2 ++ g ++ 0#16 : SlotWord) = 1 := by simp (disch := decide) only [opcode, fld_append_low, fld_append_high, fld_all, Nat.reduceSub, BitVec.toNat_ofNat, Nat.reducePow, Nat.reduceMod]
  have r : rawRow (1#6 ++ v ++ 2#2 ++ g ++ 0#16 : SlotWord) = some (.vldrGenerator v g) := by
    unfold rawRow; simp (disch := decide) only [op, fld_append_low, fld_append_high, fld_all, fld_zero, Nat.reduceSub, if_true, if_false, BitVec.reduceEq, and_self, false_and]
  exact filter_wf r hw

theorem Sys2Proof.Laws.Encoding.vstrGenerator (v : BitVec 6) (g : BitVec 2) (m : BitVec 5) : Statement (.vstrGenerator v g m) := by
  refine of_slot (k := 6) (w := 2#6 ++ v ++ 2#2 ++ g ++ 0#3 ++ m ++ 0#8) rfl rfl rfl (fun hw => ?_)
  have op : opcode (2#6 ++ v ++ 2#2 ++ g ++ 0#3 ++ m ++ 0#8 : SlotWord) = 2 := by simp (disch := decide) only [opcode, fld_append_low, fld_append_high, fld_all, Nat.reduceSub, BitVec.toNat_ofNat, Nat.reducePow, Nat.reduceMod]
  have r : rawRow (2#6 ++ v ++ 2#2 ++ g ++ 0#3 ++ m ++ 0#8 : SlotWord) = some (.vstrGenerator v g m) := by
    unfold rawRow; simp (disch := decide) only [op, fld_append_low, fld_append_high, fld_all, fld_zero, Nat.reduceSub, if_true, if_false, BitVec.reduceEq, and_self, false_and]
  exact filter_wf r hw

theorem Sys2Proof.Laws.Encoding.vldrBond (v : BitVec 6) (a : BitVec 5) (k : BitVec 4) : Statement (.vldrBond v a k) := by
  refine of_slot (k := 6) (w := 1#6 ++ v ++ 3#2 ++ a ++ 0#5 ++ k ++ 0#4) rfl rfl rfl (fun hw => ?_)
  have op : opcode (1#6 ++ v ++ 3#2 ++ a ++ 0#5 ++ k ++ 0#4 : SlotWord) = 1 := by simp (disch := decide) only [opcode, fld_append_low, fld_append_high, fld_all, Nat.reduceSub, BitVec.toNat_ofNat, Nat.reducePow, Nat.reduceMod]
  have r : rawRow (1#6 ++ v ++ 3#2 ++ a ++ 0#5 ++ k ++ 0#4 : SlotWord) = some (.vldrBond v a k) := by
    unfold rawRow; simp (disch := decide) only [op, fld_append_low, fld_append_high, fld_all, fld_zero, Nat.reduceSub, if_true, if_false, BitVec.reduceEq, and_self, false_and]
  exact filter_wf r hw

theorem Sys2Proof.Laws.Encoding.vstrBond (v : BitVec 6) (a : BitVec 5) (m : BitVec 5) (k : BitVec 4) : Statement (.vstrBond v a m k) := by
  refine of_slot (k := 6) (w := 2#6 ++ v ++ 3#2 ++ a ++ m ++ k ++ 0#4) rfl rfl rfl (fun hw => ?_)
  have op : opcode (2#6 ++ v ++ 3#2 ++ a ++ m ++ k ++ 0#4 : SlotWord) = 2 := by simp (disch := decide) only [opcode, fld_append_low, fld_append_high, fld_all, Nat.reduceSub, BitVec.toNat_ofNat, Nat.reducePow, Nat.reduceMod]
  have r : rawRow (2#6 ++ v ++ 3#2 ++ a ++ m ++ k ++ 0#4 : SlotWord) = some (.vstrBond v a m k) := by
    unfold rawRow; simp (disch := decide) only [op, fld_append_low, fld_append_high, fld_all, fld_zero, Nat.reduceSub, if_true, if_false, BitVec.reduceEq, and_self, false_and]
  exact filter_wf r hw

theorem Sys2Proof.Laws.Encoding.rcfg (q : BitVec 4) (a : BitVec 5) : Statement (.rcfg q a) := by
  refine of_slot (k := 6) (w := 8#6 ++ q ++ a ++ 0#17) rfl rfl rfl (fun hw => ?_)
  have op : opcode (8#6 ++ q ++ a ++ 0#17 : SlotWord) = 8 := by simp (disch := decide) only [opcode, fld_append_low, fld_append_high, fld_all, Nat.reduceSub, BitVec.toNat_ofNat, Nat.reducePow, Nat.reduceMod]
  have r : rawRow (8#6 ++ q ++ a ++ 0#17 : SlotWord) = some (.rcfg q a) := by
    unfold rawRow; simp (disch := decide) only [op, fld_append_low, fld_append_high, fld_all, fld_zero, Nat.reduceSub, if_true, if_false, BitVec.reduceEq, and_self, false_and]
  exact filter_wf r hw

theorem Sys2Proof.Laws.Encoding.radvr (q : BitVec 4) (n : BitVec 8) : Statement (.radvr q n) := by
  refine of_slot (k := 6) (w := 9#6 ++ q ++ n ++ 0#14) rfl rfl rfl (fun hw => ?_)
  have op : opcode (9#6 ++ q ++ n ++ 0#14 : SlotWord) = 9 := by simp (disch := decide) only [opcode, fld_append_low, fld_append_high, fld_all, Nat.reduceSub, BitVec.toNat_ofNat, Nat.reducePow, Nat.reduceMod]
  have r : rawRow (9#6 ++ q ++ n ++ 0#14 : SlotWord) = some (.radvr q n) := by
    unfold rawRow; simp (disch := decide) only [op, fld_append_low, fld_append_high, fld_all, fld_zero, Nat.reduceSub, if_true, if_false, BitVec.reduceEq, and_self, false_and]
  exact filter_wf r hw

theorem Sys2Proof.Laws.Encoding.radvw (q : BitVec 4) (n : BitVec 8) : Statement (.radvw q n) := by
  refine of_slot (k := 6) (w := 10#6 ++ q ++ n ++ 0#14) rfl rfl rfl (fun hw => ?_)
  have op : opcode (10#6 ++ q ++ n ++ 0#14 : SlotWord) = 10 := by simp (disch := decide) only [opcode, fld_append_low, fld_append_high, fld_all, Nat.reduceSub, BitVec.toNat_ofNat, Nat.reducePow, Nat.reduceMod]
  have r : rawRow (10#6 ++ q ++ n ++ 0#14 : SlotWord) = some (.radvw q n) := by
    unfold rawRow; simp (disch := decide) only [op, fld_append_low, fld_append_high, fld_all, fld_zero, Nat.reduceSub, if_true, if_false, BitVec.reduceEq, and_self, false_and]
  exact filter_wf r hw

theorem Sys2Proof.Laws.Encoding.aset (g : BitVec 2) (a : BitVec 5) : Statement (.aset g a) := by
  refine of_slot (k := 6) (w := 16#6 ++ g ++ a ++ 0#19) rfl rfl rfl (fun hw => ?_)
  have op : opcode (16#6 ++ g ++ a ++ 0#19 : SlotWord) = 16 := by simp (disch := decide) only [opcode, fld_append_low, fld_append_high, fld_all, Nat.reduceSub, BitVec.toNat_ofNat, Nat.reducePow, Nat.reduceMod]
  have r : rawRow (16#6 ++ g ++ a ++ 0#19 : SlotWord) = some (.aset g a) := by
    unfold rawRow; simp (disch := decide) only [op, fld_append_low, fld_append_high, fld_all, fld_zero, Nat.reduceSub, if_true, if_false, BitVec.reduceEq, and_self, false_and]
  exact filter_wf r hw

theorem Sys2Proof.Laws.Encoding.bond (k : BitVec 4) (a : BitVec 5) (b : BitVec 5) : Statement (.bond k a b) := by
  refine of_slot (k := 6) (w := 24#6 ++ k ++ a ++ b ++ 0#12) rfl rfl rfl (fun hw => ?_)
  have op : opcode (24#6 ++ k ++ a ++ b ++ 0#12 : SlotWord) = 24 := by simp (disch := decide) only [opcode, fld_append_low, fld_append_high, fld_all, Nat.reduceSub, BitVec.toNat_ofNat, Nat.reducePow, Nat.reduceMod]
  have r : rawRow (24#6 ++ k ++ a ++ b ++ 0#12 : SlotWord) = some (.bond k a b) := by
    unfold rawRow; simp (disch := decide) only [op, fld_append_low, fld_append_high, fld_all, fld_zero, Nat.reduceSub, if_true, if_false, BitVec.reduceEq, and_self, false_and]
  exact filter_wf r hw

theorem Sys2Proof.Laws.Encoding.give (k : BitVec 4) (a : BitVec 5) : Statement (.give k a) := by
  refine of_slot (k := 6) (w := 25#6 ++ k ++ a ++ 0#17) rfl rfl rfl (fun hw => ?_)
  have op : opcode (25#6 ++ k ++ a ++ 0#17 : SlotWord) = 25 := by simp (disch := decide) only [opcode, fld_append_low, fld_append_high, fld_all, Nat.reduceSub, BitVec.toNat_ofNat, Nat.reducePow, Nat.reduceMod]
  have r : rawRow (25#6 ++ k ++ a ++ 0#17 : SlotWord) = some (.give k a) := by
    unfold rawRow; simp (disch := decide) only [op, fld_append_low, fld_append_high, fld_all, fld_zero, Nat.reduceSub, if_true, if_false, BitVec.reduceEq, and_self, false_and]
  exact filter_wf r hw

theorem Sys2Proof.Laws.Encoding.lend (k : BitVec 4) (a : BitVec 5) : Statement (.lend k a) := by
  refine of_slot (k := 6) (w := 26#6 ++ k ++ a ++ 0#17) rfl rfl rfl (fun hw => ?_)
  have op : opcode (26#6 ++ k ++ a ++ 0#17 : SlotWord) = 26 := by simp (disch := decide) only [opcode, fld_append_low, fld_append_high, fld_all, Nat.reduceSub, BitVec.toNat_ofNat, Nat.reducePow, Nat.reduceMod]
  have r : rawRow (26#6 ++ k ++ a ++ 0#17 : SlotWord) = some (.lend k a) := by
    unfold rawRow; simp (disch := decide) only [op, fld_append_low, fld_append_high, fld_all, fld_zero, Nat.reduceSub, if_true, if_false, BitVec.reduceEq, and_self, false_and]
  exact filter_wf r hw

theorem Sys2Proof.Laws.Encoding.recall (k : BitVec 4) : Statement (.recall k) := by
  refine of_slot (k := 6) (w := 27#6 ++ k ++ 0#22) rfl rfl rfl (fun hw => ?_)
  have op : opcode (27#6 ++ k ++ 0#22 : SlotWord) = 27 := by simp (disch := decide) only [opcode, fld_append_low, fld_append_high, fld_all, Nat.reduceSub, BitVec.toNat_ofNat, Nat.reducePow, Nat.reduceMod]
  have r : rawRow (27#6 ++ k ++ 0#22 : SlotWord) = some (.recall k) := by
    unfold rawRow; simp (disch := decide) only [op, fld_append_low, fld_append_high, fld_all, fld_zero, Nat.reduceSub, if_true, if_false, BitVec.reduceEq, and_self, false_and]
  exact filter_wf r hw

theorem Sys2Proof.Laws.Encoding.unbond (k : BitVec 4) : Statement (.unbond k) := by
  refine of_slot (k := 6) (w := 28#6 ++ k ++ 0#22) rfl rfl rfl (fun hw => ?_)
  have op : opcode (28#6 ++ k ++ 0#22 : SlotWord) = 28 := by simp (disch := decide) only [opcode, fld_append_low, fld_append_high, fld_all, Nat.reduceSub, BitVec.toNat_ofNat, Nat.reducePow, Nat.reduceMod]
  have r : rawRow (28#6 ++ k ++ 0#22 : SlotWord) = some (.unbond k) := by
    unfold rawRow; simp (disch := decide) only [op, fld_append_low, fld_append_high, fld_all, fld_zero, Nat.reduceSub, if_true, if_false, BitVec.reduceEq, and_self, false_and]
  exact filter_wf r hw

theorem Sys2Proof.Laws.Encoding.mcall (r : BitVec 8) : Statement (.mcall r) := by
  refine of_slot (k := 7) (w := 1#6 ++ r ++ 0#18) rfl rfl rfl (fun hw => ?_)
  have op : opcode (1#6 ++ r ++ 0#18 : SlotWord) = 1 := by simp (disch := decide) only [opcode, fld_append_low, fld_append_high, fld_all, Nat.reduceSub, BitVec.toNat_ofNat, Nat.reducePow, Nat.reduceMod]
  have r : rawEngine (1#6 ++ r ++ 0#18 : SlotWord) = some (.mcall r) := by
    unfold rawEngine; simp (disch := decide) only [op, fld_append_low, fld_append_high, fld_all, fld_zero, Nat.reduceSub, if_true, if_false, BitVec.reduceEq, and_self, false_and]
  exact filter_wf r hw

theorem Sys2Proof.Laws.Encoding.mpset (p : BitVec 3) (a : BitVec 5) : Statement (.mpset p a) := by
  refine of_slot (k := 7) (w := 2#6 ++ p ++ a ++ 0#18) rfl rfl rfl (fun hw => ?_)
  have op : opcode (2#6 ++ p ++ a ++ 0#18 : SlotWord) = 2 := by simp (disch := decide) only [opcode, fld_append_low, fld_append_high, fld_all, Nat.reduceSub, BitVec.toNat_ofNat, Nat.reducePow, Nat.reduceMod]
  have r : rawEngine (2#6 ++ p ++ a ++ 0#18 : SlotWord) = some (.mpset p a) := by
    unfold rawEngine; simp (disch := decide) only [op, fld_append_low, fld_append_high, fld_all, fld_zero, Nat.reduceSub, if_true, if_false, BitVec.reduceEq, and_self, false_and]
  exact filter_wf r hw

theorem Sys2Proof.Laws.Encoding.mpgo : Statement (.mpgo) := by
  refine of_slot (k := 7) (w := 3#6 ++ 0#26) rfl rfl rfl (fun hw => ?_)
  have op : opcode (3#6 ++ 0#26 : SlotWord) = 3 := by simp (disch := decide) only [opcode, fld_append_low, fld_append_high, fld_all, Nat.reduceSub, BitVec.toNat_ofNat, Nat.reducePow, Nat.reduceMod]
  have r : rawEngine (3#6 ++ 0#26 : SlotWord) = some (.mpgo) := by
    unfold rawEngine; simp (disch := decide) only [op, fld_append_low, fld_append_high, fld_all, fld_zero, Nat.reduceSub, if_true, if_false, BitVec.reduceEq, and_self, false_and]
  exact filter_wf r hw

theorem Sys2Proof.Laws.Encoding.cpy (a : BitVec 5) (b : BitVec 5) (q : BitVec 4) (c : BitVec 3) : Statement (.cpy a b q c) := by
  refine of_slot (k := 7) (w := 8#6 ++ a ++ b ++ q ++ 1#1 ++ c ++ 0#8) rfl rfl rfl (fun hw => ?_)
  have op : opcode (8#6 ++ a ++ b ++ q ++ 1#1 ++ c ++ 0#8 : SlotWord) = 8 := by simp (disch := decide) only [opcode, fld_append_low, fld_append_high, fld_all, Nat.reduceSub, BitVec.toNat_ofNat, Nat.reducePow, Nat.reduceMod]
  have r : rawEngine (8#6 ++ a ++ b ++ q ++ 1#1 ++ c ++ 0#8 : SlotWord) = some (.cpy a b q c) := by
    unfold rawEngine; simp (disch := decide) only [op, fld_append_low, fld_append_high, fld_all, fld_zero, Nat.reduceSub, if_true, if_false, BitVec.reduceEq, and_self, false_and]
  exact filter_wf r hw

theorem Sys2Proof.Laws.Encoding.cpyNoRing (a : BitVec 5) (b : BitVec 5) : Statement (.cpyNoRing a b) := by
  refine of_slot (k := 7) (w := 8#6 ++ a ++ b ++ 0#16) rfl rfl rfl (fun hw => ?_)
  have op : opcode (8#6 ++ a ++ b ++ 0#16 : SlotWord) = 8 := by simp (disch := decide) only [opcode, fld_append_low, fld_append_high, fld_all, Nat.reduceSub, BitVec.toNat_ofNat, Nat.reducePow, Nat.reduceMod]
  have r : rawEngine (8#6 ++ a ++ b ++ 0#16 : SlotWord) = some (.cpyNoRing a b) := by
    unfold rawEngine; simp (disch := decide) only [op, fld_append_low, fld_append_high, fld_all, fld_zero, Nat.reduceSub, if_true, if_false, BitVec.reduceEq, and_self, false_and]
  exact filter_wf r hw

theorem Sys2Proof.Laws.Encoding.pref (a : BitVec 5) (b : BitVec 5) (x : BitVec 5) : Statement (.pref a b x) := by
  refine of_slot (k := 7) (w := 9#6 ++ a ++ b ++ x ++ 0#11) rfl rfl rfl (fun hw => ?_)
  have op : opcode (9#6 ++ a ++ b ++ x ++ 0#11 : SlotWord) = 9 := by simp (disch := decide) only [opcode, fld_append_low, fld_append_high, fld_all, Nat.reduceSub, BitVec.toNat_ofNat, Nat.reducePow, Nat.reduceMod]
  have r : rawEngine (9#6 ++ a ++ b ++ x ++ 0#11 : SlotWord) = some (.pref a b x) := by
    unfold rawEngine; simp (disch := decide) only [op, fld_append_low, fld_append_high, fld_all, fld_zero, Nat.reduceSub, if_true, if_false, BitVec.reduceEq, and_self, false_and]
  exact filter_wf r hw

theorem Sys2Proof.Laws.Encoding.fmtset (e : BitVec 4) (a : BitVec 5) : Statement (.fmtset e a) := by
  refine of_slot (k := 7) (w := 16#6 ++ e ++ a ++ 0#17) rfl rfl rfl (fun hw => ?_)
  have op : opcode (16#6 ++ e ++ a ++ 0#17 : SlotWord) = 16 := by simp (disch := decide) only [opcode, fld_append_low, fld_append_high, fld_all, Nat.reduceSub, BitVec.toNat_ofNat, Nat.reducePow, Nat.reduceMod]
  have r : rawEngine (16#6 ++ e ++ a ++ 0#17 : SlotWord) = some (.fmtset e a) := by
    unfold rawEngine; simp (disch := decide) only [op, fld_append_low, fld_append_high, fld_all, fld_zero, Nat.reduceSub, if_true, if_false, BitVec.reduceEq, and_self, false_and]
  exact filter_wf r hw

theorem Sys2Proof.Laws.Encoding.bndset (g : BitVec 4) (a : BitVec 5) (b : BitVec 5) (p : BitVec 2) : Statement (.bndset g a b p) := by
  refine of_slot (k := 7) (w := 17#6 ++ g ++ a ++ b ++ p ++ 0#10) rfl rfl rfl (fun hw => ?_)
  have op : opcode (17#6 ++ g ++ a ++ b ++ p ++ 0#10 : SlotWord) = 17 := by simp (disch := decide) only [opcode, fld_append_low, fld_append_high, fld_all, Nat.reduceSub, BitVec.toNat_ofNat, Nat.reducePow, Nat.reduceMod]
  have r : rawEngine (17#6 ++ g ++ a ++ b ++ p ++ 0#10 : SlotWord) = some (.bndset g a b p) := by
    unfold rawEngine; simp (disch := decide) only [op, fld_append_low, fld_append_high, fld_all, fld_zero, Nat.reduceSub, if_true, if_false, BitVec.reduceEq, and_self, false_and]
  exact filter_wf r hw

theorem Sys2Proof.Laws.Encoding.bndget (d : BitVec 5) (g : BitVec 4) : Statement (.bndget d g) := by
  refine of_slot (k := 7) (w := 18#6 ++ d ++ g ++ 0#17) rfl rfl rfl (fun hw => ?_)
  have op : opcode (18#6 ++ d ++ g ++ 0#17 : SlotWord) = 18 := by simp (disch := decide) only [opcode, fld_append_low, fld_append_high, fld_all, Nat.reduceSub, BitVec.toNat_ofNat, Nat.reducePow, Nat.reduceMod]
  have r : rawEngine (18#6 ++ d ++ g ++ 0#17 : SlotWord) = some (.bndget d g) := by
    unfold rawEngine; simp (disch := decide) only [op, fld_append_low, fld_append_high, fld_all, fld_zero, Nat.reduceSub, if_true, if_false, BitVec.reduceEq, and_self, false_and]
  exact filter_wf r hw

theorem Sys2Proof.Laws.Encoding.mend : Statement (.mend) := by
  refine of_micro (w := 0#4 ++ 0#4 ++ 0#4 ++ 0#3 ++ 0#2 ++ 0#4 ++ 0#3 ++ 0#24 ++ 0#16) rfl rfl (fun hw => ?_)
  have r : rawMicro (0#4 ++ 0#4 ++ 0#4 ++ 0#3 ++ 0#2 ++ 0#4 ++ 0#3 ++ 0#24 ++ 0#16 : Word) = some (.mend) := by
    unfold rawMicro; simp (disch := decide) only [fld_append_low, fld_append_high, fld_all, fld_zero, Nat.reduceSub, if_true, if_false, BitVec.reduceEq, and_self, false_and, BitVec.toNat_ofNat, Nat.reducePow, Nat.reduceMod]
  exact filter_wf r hw

theorem Sys2Proof.Laws.Encoding.mlda (am : BitVec 2) (wa : BitVec 3) (h : BitVec 4) (off : BitVec 16) (wb : BitVec 3) : Statement (.mlda am wa h off wb) := by
  refine of_micro (w := 1#4 ++ 0#4 ++ 0#4 ++ wa ++ am ++ h ++ wb ++ 0#24 ++ off) rfl rfl (fun hw => ?_)
  have r : rawMicro (1#4 ++ 0#4 ++ 0#4 ++ wa ++ am ++ h ++ wb ++ 0#24 ++ off : Word) = some (.mlda am wa h off wb) := by
    unfold rawMicro; simp (disch := decide) only [fld_append_low, fld_append_high, fld_all, fld_zero, Nat.reduceSub, if_true, if_false, BitVec.reduceEq, and_self, false_and, BitVec.toNat_ofNat, Nat.reducePow, Nat.reduceMod]
  exact filter_wf r hw

theorem Sys2Proof.Laws.Encoding.mldb (y : BitVec 4) (am : BitVec 2) (wa : BitVec 3) (h : BitVec 4) (off : BitVec 16) : Statement (.mldb y am wa h off) := by
  refine of_micro (w := 2#4 ++ 0#4 ++ y ++ wa ++ am ++ h ++ 0#3 ++ 0#24 ++ off) rfl rfl (fun hw => ?_)
  have r : rawMicro (2#4 ++ 0#4 ++ y ++ wa ++ am ++ h ++ 0#3 ++ 0#24 ++ off : Word) = some (.mldb y am wa h off) := by
    unfold rawMicro; simp (disch := decide) only [fld_append_low, fld_append_high, fld_all, fld_zero, Nat.reduceSub, if_true, if_false, BitVec.reduceEq, and_self, false_and, BitVec.toNat_ofNat, Nat.reducePow, Nat.reduceMod]
  exact filter_wf r hw

theorem Sys2Proof.Laws.Encoding.mstep (x : BitVec 4) (y : BitVec 4) : Statement (.mstep x y) := by
  refine of_micro (w := 3#4 ++ x ++ y ++ 0#3 ++ 0#2 ++ 0#4 ++ 0#3 ++ 0#24 ++ 0#16) rfl rfl (fun hw => ?_)
  have r : rawMicro (3#4 ++ x ++ y ++ 0#3 ++ 0#2 ++ 0#4 ++ 0#3 ++ 0#24 ++ 0#16 : Word) = some (.mstep x y) := by
    unfold rawMicro; simp (disch := decide) only [fld_append_low, fld_append_high, fld_all, fld_zero, Nat.reduceSub, if_true, if_false, BitVec.reduceEq, and_self, false_and, BitVec.toNat_ofNat, Nat.reducePow, Nat.reduceMod]
  exact filter_wf r hw

theorem Sys2Proof.Laws.Encoding.mpcor (x : BitVec 4) (y : BitVec 4) (wa : BitVec 3) : Statement (.mpcor x y wa) := by
  refine of_micro (w := 4#4 ++ x ++ y ++ wa ++ 0#2 ++ 0#4 ++ 0#3 ++ 0#24 ++ 0#16) rfl rfl (fun hw => ?_)
  have r : rawMicro (4#4 ++ x ++ y ++ wa ++ 0#2 ++ 0#4 ++ 0#3 ++ 0#24 ++ 0#16 : Word) = some (.mpcor x y wa) := by
    unfold rawMicro; simp (disch := decide) only [fld_append_low, fld_append_high, fld_all, fld_zero, Nat.reduceSub, if_true, if_false, BitVec.reduceEq, and_self, false_and, BitVec.toNat_ofNat, Nat.reducePow, Nat.reduceMod]
  exact filter_wf r hw

theorem Sys2Proof.Laws.Encoding.mswap : Statement (.mswap) := by
  refine of_micro (w := 5#4 ++ 0#4 ++ 0#4 ++ 0#3 ++ 0#2 ++ 0#4 ++ 0#3 ++ 0#24 ++ 0#16) rfl rfl (fun hw => ?_)
  have r : rawMicro (5#4 ++ 0#4 ++ 0#4 ++ 0#3 ++ 0#2 ++ 0#4 ++ 0#3 ++ 0#24 ++ 0#16 : Word) = some (.mswap) := by
    unfold rawMicro; simp (disch := decide) only [fld_append_low, fld_append_high, fld_all, fld_zero, Nat.reduceSub, if_true, if_false, BitVec.reduceEq, and_self, false_and, BitVec.toNat_ofNat, Nat.reducePow, Nat.reduceMod]
  exact filter_wf r hw

theorem Sys2Proof.Laws.Encoding.mclr (x : BitVec 4) (wa : BitVec 3) : Statement (.mclr x wa) := by
  refine of_micro (w := 6#4 ++ x ++ 0#4 ++ wa ++ 0#2 ++ 0#4 ++ 0#3 ++ 0#24 ++ 0#16) rfl rfl (fun hw => ?_)
  have r : rawMicro (6#4 ++ x ++ 0#4 ++ wa ++ 0#2 ++ 0#4 ++ 0#3 ++ 0#24 ++ 0#16 : Word) = some (.mclr x wa) := by
    unfold rawMicro; simp (disch := decide) only [fld_append_low, fld_append_high, fld_all, fld_zero, Nat.reduceSub, if_true, if_false, BitVec.reduceEq, and_self, false_and, BitVec.toNat_ofNat, Nat.reducePow, Nat.reduceMod]
  exact filter_wf r hw

theorem Sys2Proof.Laws.Encoding.mdrain (x : BitVec 4) (y : BitVec 4) (am : BitVec 2) (wa : BitVec 3) (h : BitVec 4) (off : BitVec 16) : Statement (.mdrain x y am wa h off) := by
  refine of_micro (w := 7#4 ++ x ++ y ++ wa ++ am ++ h ++ 0#3 ++ 0#24 ++ off) rfl rfl (fun hw => ?_)
  have r : rawMicro (7#4 ++ x ++ y ++ wa ++ am ++ h ++ 0#3 ++ 0#24 ++ off : Word) = some (.mdrain x y am wa h off) := by
    unfold rawMicro; simp (disch := decide) only [fld_append_low, fld_append_high, fld_all, fld_zero, Nat.reduceSub, if_true, if_false, BitVec.reduceEq, and_self, false_and, BitVec.toNat_ofNat, Nat.reducePow, Nat.reduceMod]
  exact filter_wf r hw

theorem Sys2Proof.Laws.Encoding.mloop (wa : BitVec 3) (imm : BitVec 24) : Statement (.mloop wa imm) := by
  refine of_micro (w := 8#4 ++ 0#4 ++ 0#4 ++ wa ++ 0#2 ++ 0#4 ++ 0#3 ++ imm ++ 0#16) rfl rfl (fun hw => ?_)
  have r : rawMicro (8#4 ++ 0#4 ++ 0#4 ++ wa ++ 0#2 ++ 0#4 ++ 0#3 ++ imm ++ 0#16 : Word) = some (.mloop wa imm) := by
    unfold rawMicro; simp (disch := decide) only [fld_append_low, fld_append_high, fld_all, fld_zero, Nat.reduceSub, if_true, if_false, BitVec.reduceEq, and_self, false_and, BitVec.toNat_ofNat, Nat.reducePow, Nat.reduceMod]
  exact filter_wf r hw

theorem Sys2Proof.Laws.Encoding.mbr (x : BitVec 4) (wa : BitVec 3) (wb : BitVec 3) (imm : BitVec 24) : Statement (.mbr x wa wb imm) := by
  refine of_micro (w := 9#4 ++ x ++ 0#4 ++ wa ++ 0#2 ++ 0#4 ++ wb ++ imm ++ 0#16) rfl rfl (fun hw => ?_)
  have r : rawMicro (9#4 ++ x ++ 0#4 ++ wa ++ 0#2 ++ 0#4 ++ wb ++ imm ++ 0#16 : Word) = some (.mbr x wa wb imm) := by
    unfold rawMicro; simp (disch := decide) only [fld_append_low, fld_append_high, fld_all, fld_zero, Nat.reduceSub, if_true, if_false, BitVec.reduceEq, and_self, false_and, BitVec.toNat_ofNat, Nat.reducePow, Nat.reduceMod]
  exact filter_wf r hw

theorem Sys2Proof.Laws.Encoding.mwaitr (y : BitVec 4) (h : BitVec 4) (imm : BitVec 24) : Statement (.mwaitr y h imm) := by
  refine of_micro (w := 10#4 ++ 0#4 ++ y ++ 0#3 ++ 0#2 ++ h ++ 0#3 ++ imm ++ 0#16) rfl rfl (fun hw => ?_)
  have r : rawMicro (10#4 ++ 0#4 ++ y ++ 0#3 ++ 0#2 ++ h ++ 0#3 ++ imm ++ 0#16 : Word) = some (.mwaitr y h imm) := by
    unfold rawMicro; simp (disch := decide) only [fld_append_low, fld_append_high, fld_all, fld_zero, Nat.reduceSub, if_true, if_false, BitVec.reduceEq, and_self, false_and, BitVec.toNat_ofNat, Nat.reducePow, Nat.reduceMod]
  exact filter_wf r hw

theorem Sys2Proof.Laws.Encoding.mradv (y : BitVec 4) (h : BitVec 4) (imm : BitVec 24) : Statement (.mradv y h imm) := by
  refine of_micro (w := 11#4 ++ 0#4 ++ y ++ 0#3 ++ 0#2 ++ h ++ 0#3 ++ imm ++ 0#16) rfl rfl (fun hw => ?_)
  have r : rawMicro (11#4 ++ 0#4 ++ y ++ 0#3 ++ 0#2 ++ h ++ 0#3 ++ imm ++ 0#16 : Word) = some (.mradv y h imm) := by
    unfold rawMicro; simp (disch := decide) only [fld_append_low, fld_append_high, fld_all, fld_zero, Nat.reduceSub, if_true, if_false, BitVec.reduceEq, and_self, false_and, BitVec.toNat_ofNat, Nat.reducePow, Nat.reduceMod]
  exact filter_wf r hw

theorem Sys2Proof.Laws.Encoding.mpost (h : BitVec 4) (imm : BitVec 24) : Statement (.mpost h imm) := by
  refine of_micro (w := 12#4 ++ 0#4 ++ 0#4 ++ 0#3 ++ 0#2 ++ h ++ 0#3 ++ imm ++ 0#16) rfl rfl (fun hw => ?_)
  have r : rawMicro (12#4 ++ 0#4 ++ 0#4 ++ 0#3 ++ 0#2 ++ h ++ 0#3 ++ imm ++ 0#16 : Word) = some (.mpost h imm) := by
    unfold rawMicro; simp (disch := decide) only [fld_append_low, fld_append_high, fld_all, fld_zero, Nat.reduceSub, if_true, if_false, BitVec.reduceEq, and_self, false_and, BitVec.toNat_ofNat, Nat.reducePow, Nat.reduceMod]
  exact filter_wf r hw

theorem Sys2Proof.Laws.Encoding.mfmt (x : BitVec 4) : Statement (.mfmt x) := by
  refine of_micro (w := 13#4 ++ x ++ 0#4 ++ 0#3 ++ 0#2 ++ 0#4 ++ 0#3 ++ 0#24 ++ 0#16) rfl rfl (fun hw => ?_)
  have r : rawMicro (13#4 ++ x ++ 0#4 ++ 0#3 ++ 0#2 ++ 0#4 ++ 0#3 ++ 0#24 ++ 0#16 : Word) = some (.mfmt x) := by
    unfold rawMicro; simp (disch := decide) only [fld_append_low, fld_append_high, fld_all, fld_zero, Nat.reduceSub, if_true, if_false, BitVec.reduceEq, and_self, false_and, BitVec.toNat_ofNat, Nat.reducePow, Nat.reduceMod]
  exact filter_wf r hw

theorem Sys2Proof.Laws.Encoding.mset (x : BitVec 4) (y : BitVec 4) (wa : BitVec 3) (imm : BitVec 24) : Statement (.mset x y wa imm) := by
  refine of_micro (w := 14#4 ++ x ++ y ++ wa ++ 0#2 ++ 0#4 ++ 0#3 ++ imm ++ 0#16) rfl rfl (fun hw => ?_)
  have r : rawMicro (14#4 ++ x ++ y ++ wa ++ 0#2 ++ 0#4 ++ 0#3 ++ imm ++ 0#16 : Word) = some (.mset x y wa imm) := by
    unfold rawMicro; simp (disch := decide) only [fld_append_low, fld_append_high, fld_all, fld_zero, Nat.reduceSub, if_true, if_false, BitVec.reduceEq, and_self, false_and, BitVec.toNat_ofNat, Nat.reducePow, Nat.reduceMod]
  exact filter_wf r hw

theorem Sys2Proof.Laws.Encoding.madd (y : BitVec 4) (wa : BitVec 3) (wb : BitVec 3) (imm : BitVec 24) : Statement (.madd y wa wb imm) := by
  refine of_micro (w := 15#4 ++ 0#4 ++ y ++ wa ++ 0#2 ++ 0#4 ++ wb ++ imm ++ 0#16) rfl rfl (fun hw => ?_)
  have r : rawMicro (15#4 ++ 0#4 ++ y ++ wa ++ 0#2 ++ 0#4 ++ wb ++ imm ++ 0#16 : Word) = some (.madd y wa wb imm) := by
    unfold rawMicro; simp (disch := decide) only [fld_append_low, fld_append_high, fld_all, fld_zero, Nat.reduceSub, if_true, if_false, BitVec.reduceEq, and_self, false_and, BitVec.toNat_ofNat, Nat.reducePow, Nat.reduceMod]
  exact filter_wf r hw

theorem Sys2Proof.Laws.Encoding.lossReport (part : Nat) : Statement (.lossReport part) := of_event rfl rfl

theorem Sys2Proof.Laws.Encoding.globalLoadResponse (core : Nat) (slot : Nat) (env : Resp) : Statement (.globalLoadResponse core slot env) := of_event rfl rfl

theorem Sys2Proof.Laws.Encoding.matrixCompletion (core : Nat) : Statement (.matrixCompletion core) := of_event rfl rfl

theorem Sys2Proof.Laws.Encoding.copyTuple (core : Nat) (uid : Nat) : Statement (.copyTuple core uid) := of_event rfl rfl

theorem Sys2Proof.Laws.Encoding.copyCompletion (core : Nat) (uid : Nat) : Statement (.copyCompletion core uid) := of_event rfl rfl

theorem Sys2Proof.Laws.Encoding.launchBind (core : Nat) : Statement (.launchBind core) := of_event rfl rfl

theorem Sys2Proof.Laws.Encoding.overlayLoad (core : Nat) (slot : Nat) : Statement (.overlayLoad core slot) := of_event rfl rfl

theorem Sys2Proof.Laws.Encoding.segmentPrefetch (core : Nat) (slot : Nat) : Statement (.segmentPrefetch core slot) := of_event rfl rfl

theorem Sys2Proof.Laws.Encoding.bootDoorbellDirect (func : Nat) (core : Nat) : Statement (.bootDoorbellDirect func core) := of_event rfl rfl

theorem Sys2Proof.Laws.Encoding.bootDoorbellEnqueue (func : Nat) (core : Nat) (pr : BitVec 2) : Statement (.bootDoorbellEnqueue func core pr) := of_event rfl rfl

theorem Sys2Proof.Laws.Encoding.jobInval (job : Nat) (v : BitVec 64) : Statement (.jobInval job v) := of_event rfl rfl

theorem Sys2Proof.Laws.Encoding.registerRegion (job : Nat) (desc : Nat) : Statement (.registerRegion job desc) := of_event rfl rfl

theorem Sys2Proof.Laws.Encoding.dropRegion (job : Nat) (desc : Nat) : Statement (.dropRegion job desc) := of_event rfl rfl

theorem Sys2Proof.Laws.Encoding.registerWindow (job : Nat) (desc : Nat) : Statement (.registerWindow job desc) := of_event rfl rfl

theorem Sys2Proof.Laws.Encoding.dropWindow (job : Nat) (desc : Nat) : Statement (.dropWindow job desc) := of_event rfl rfl

theorem Sys2Proof.Laws.Encoding.registerTieredRange (job : Nat) (desc : Nat) : Statement (.registerTieredRange job desc) := of_event rfl rfl

theorem Sys2Proof.Laws.Encoding.dropTieredRange (job : Nat) (desc : Nat) : Statement (.dropTieredRange job desc) := of_event rfl rfl

theorem Sys2Proof.Laws.Encoding.attestationRequest (job : Nat) (v : BitVec 64) : Statement (.attestationRequest job v) := of_event rfl rfl

theorem Sys2Proof.Laws.Encoding.swapOut (part : Nat) : Statement (.swapOut part) := of_event rfl rfl

theorem Sys2Proof.Laws.Encoding.killJob (part : Nat) (job : Nat) : Statement (.killJob part job) := of_event rfl rfl

theorem Sys2Proof.Laws.Encoding.partitionEnable (part : Nat) : Statement (.partitionEnable part) := of_event rfl rfl

theorem Sys2Proof.Laws.Encoding.partitionDisable (part : Nat) : Statement (.partitionDisable part) := of_event rfl rfl

theorem Sys2Proof.Laws.Encoding.jobCtlWrite (job : Nat) (root : Bool) (v : BitVec 64) : Statement (.jobCtlWrite job root v) := of_event rfl rfl

theorem Sys2Proof.Laws.Encoding.difExportWrite (e : Nat) (v : BitVec 64) : Statement (.difExportWrite e v) := of_event rfl rfl

theorem Sys2Proof.Laws.Encoding.gctlInvalidate (core : Nat) (group : Nat) : Statement (.gctlInvalidate core group) := of_event rfl rfl

theorem Sys2Proof.Laws.Encoding.gctlSetClass (core : Nat) (group : Nat) (cls : BitVec 3) : Statement (.gctlSetClass core group cls) := of_event rfl rfl

theorem Sys2Proof.Laws.Encoding.registerWrite (who : Requester) (off : Nat) (v : BitVec 64) : Statement (.registerWrite who off v) := of_event rfl rfl

theorem Sys2Proof.Laws.Encoding.phyReadTest (ch : Nat) : Statement (.phyReadTest ch) := of_event rfl rfl

theorem Sys2Proof.Laws.Encoding.phyWriteTest (ch : Nat) : Statement (.phyWriteTest ch) := of_event rfl rfl

theorem Sys2Proof.Laws.Encoding.phyConfirmTest (ch : Nat) : Statement (.phyConfirmTest ch) := of_event rfl rfl

theorem Sys2Proof.Laws.Encoding.phyRepairWrite (ch : Nat) (v : BitVec 64) : Statement (.phyRepairWrite ch v) := of_event rfl rfl

theorem Sys2Proof.Laws.Encoding.phyLaneWrite (ch : Nat) (lane : Nat) (v : BitVec 64) : Statement (.phyLaneWrite ch lane v) := of_event rfl rfl

theorem Sys2Proof.Laws.Encoding.storePerformed (core : Nat) (slot : Nat) : Statement (.storePerformed core slot) := of_event rfl rfl

theorem Sys2Proof.Laws.Encoding.issueCycle (core : Nat) : Statement (.issueCycle core) := of_event rfl rfl

theorem Sys2Proof.Laws.Encoding.budgetPeriodBoundary (core : Nat) : Statement (.budgetPeriodBoundary core) := of_event rfl rfl

theorem Sys2Proof.Laws.Encoding.remoteRowResponse (core : Nat) (slot : Nat) : Statement (.remoteRowResponse core slot) := of_event rfl rfl

theorem Sys2Proof.Laws.Encoding.storeRefusal (core : Nat) (slot : Nat) (cause : Nat) : Statement (.storeRefusal core slot cause) := of_event rfl rfl

theorem Sys2Proof.Laws.Encoding.waitaReread (core : Nat) (slot : Nat) : Statement (.waitaReread core slot) := of_event rfl rfl

theorem Sys2Proof.Laws.Encoding.viewUpdate (core : Nat) (slot : Nat) (flag : Nat) : Statement (.viewUpdate core slot flag) := of_event rfl rfl

theorem Sys2Proof.Laws.Encoding.retstatRead (core : Nat) (slot : Nat) (d : BitVec 5) : Statement (.retstatRead core slot d) := of_event rfl rfl

theorem Sys2Proof.Laws.Encoding.replayConsume (core : Nat) (slot : Nat) : Statement (.replayConsume core slot) := of_event rfl rfl

theorem Sys2Proof.Laws.Encoding.matrixCommandStart (core : Nat) : Statement (.matrixCommandStart core) := of_event rfl rfl

theorem Sys2Proof.Laws.Encoding.formatEntryWrite (core : Nat) : Statement (.formatEntryWrite core) := of_event rfl rfl

theorem Sys2Proof.Laws.Encoding.copyDeadlineExpiry (core : Nat) (uid : Nat) : Statement (.copyDeadlineExpiry core uid) := of_event rfl rfl

theorem Sys2Proof.Laws.Encoding.retentionTick (cluster : Nat) : Statement (.retentionTick cluster) := of_event rfl rfl

theorem Sys2Proof.Laws.Encoding.temperatureSample (cluster : Nat) (milliC : Int) : Statement (.temperatureSample cluster milliC) := of_event rfl rfl

theorem Sys2Proof.Laws.Encoding.refreshRowRewrite (core : Nat) : Statement (.refreshRowRewrite core) := of_event rfl rfl

theorem Sys2Proof.Laws.Encoding.thermalInterval (cluster : Nat) (milliC : Int) : Statement (.thermalInterval cluster milliC) := of_event rfl rfl

theorem Sys2Proof.Laws.Encoding.progressMonitorExpiry (part : Nat) : Statement (.progressMonitorExpiry part) := of_event rfl rfl

theorem Sys2Proof.Laws.Encoding.opTransitionSettle (core : Nat) : Statement (.opTransitionSettle core) := of_event rfl rfl

theorem Sys2Proof.Laws.Encoding.bondTransferArrival (core : Nat) (slot : Nat) (k : Nat) : Statement (.bondTransferArrival core slot k) := of_event rfl rfl

theorem Sys2Proof.Laws.Encoding.lendArrival (core : Nat) (slot : Nat) (k : Nat) : Statement (.lendArrival core slot k) := of_event rfl rfl

theorem Sys2Proof.Laws.Encoding.hostPostedWrite (func : Nat) (addr : Nat) (data : List (BitVec 8)) (poison : Bool) : Statement (.hostPostedWrite func addr data poison) := of_event rfl rfl

theorem Sys2Proof.Laws.Encoding.hostRead (func : Nat) (addr : Nat) (n : Nat) : Statement (.hostRead func addr n) := of_event rfl rfl

theorem Sys2Proof.Laws.Encoding.hostAtomicOp (func : Nat) (op : HostAtomic) (addr : Nat) (n : Nat) (x : BitVec 64) (y : BitVec 64) : Statement (.hostAtomicOp func op addr n x y) := of_event rfl rfl

theorem Sys2Proof.Laws.Encoding.backInvalidationResponse (block : Nat) (writeback : List (BitVec 8)) : Statement (.backInvalidationResponse block writeback) := of_event rfl rfl

theorem Sys2Proof.Laws.Encoding.hdmDecoderCommit (dec : Nat) (base : Nat) (size : Nat) : Statement (.hdmDecoderCommit dec base size) := of_event rfl rfl

theorem Sys2Proof.Laws.Encoding.difosalRequest (src : Nat) (tag : BitVec 16) (req : DifReq) : Statement (.difosalRequest src tag req) := of_event rfl rfl

theorem Sys2Proof.Laws.Encoding.windowContribution (part : Nat) (wid : Nat) (dev : Nat) (elem : Nat) (round : Nat) (x : BitVec 64) : Statement (.windowContribution part wid dev elem round x) := of_event rfl rfl

theorem Sys2Proof.Laws.Encoding.portUp (port : Nat) : Statement (.portUp port) := of_event rfl rfl

theorem Sys2Proof.Laws.Encoding.flitRetry (port : Nat) : Statement (.flitRetry port) := of_event rfl rfl

theorem Sys2Proof.Laws.Encoding.portDead (port : Nat) : Statement (.portDead port) := of_event rfl rfl

theorem Sys2Proof.Laws.Encoding.linkStateUpdate (party : Nat) (port : Nat) (epoch : BitVec 16) (up : Bool) (affected : List Nat) (cut : List Nat) : Statement (.linkStateUpdate party port epoch up affected cut) := of_event rfl rfl

theorem Sys2Proof.Laws.Encoding.coreHalted (core : Nat) : Statement (.coreHalted core) := of_event rfl rfl

theorem Sys2Proof.Laws.Encoding.engineRestoreComplete (core : Nat) : Statement (.engineRestoreComplete core) := of_event rfl rfl

theorem Sys2Proof.Laws.Encoding.lbctlArm (core : Nat) (slot : Nat) (half : Nat) (count : BitVec 9) : Statement (.lbctlArm core slot half count) := of_event rfl rfl

theorem Sys2Proof.Laws.Encoding.phyTestComplete (ch : Nat) (pass : BitVec 66) : Statement (.phyTestComplete ch pass) := of_event rfl rfl

theorem Sys2Proof.Laws.Encoding.alarm (sensor : Nat) : Statement (.alarm sensor) := of_event rfl rfl

theorem Sys2Proof.Laws.Encoding.uncorrectableError (site : ErrSite) : Statement (.uncorrectableError site) := of_event rfl rfl

theorem Sys2Proof.Laws.Encoding.correctedError (core : Nat) : Statement (.correctedError core) := of_event rfl rfl

theorem Sys2Proof.Laws.Encoding.palletEvict (job : Nat) (va : Nat) : Statement (.palletEvict job va) := of_event rfl rfl

theorem Sys2Proof.Laws.Encoding.palletMoveComplete (job : Nat) (m : MoveEnd) : Statement (.palletMoveComplete job m) := of_event rfl rfl

theorem Sys2Proof.Laws.Encoding.prefDeadlineExpiry (job : Nat) (id : Nat) : Statement (.prefDeadlineExpiry job id) := of_event rfl rfl

theorem Sys2Proof.Laws.Encoding.translationWalk (cluster : Nat) (job : Nat) (va : BitVec 64) : Statement (.translationWalk cluster job va) := of_event rfl rfl

theorem Sys2Proof.Laws.Encoding.versionUnitAnswer (core : Nat) (slot : Nat) : Statement (.versionUnitAnswer core slot) := of_event rfl rfl

theorem Sys2Proof.Laws.Encoding.hostPortTrained (cxl : Bool) : Statement (.hostPortTrained cxl) := of_event rfl rfl

theorem Sys2Proof.Laws.Encoding.noCompletion (core : Nat) (slot : Nat) : Statement (.noCompletion core slot) := of_event rfl rfl

theorem Sys2Proof.Laws.Encoding.snoopNoResponse (core : Nat) (slot : Nat) : Statement (.snoopNoResponse core slot) := of_event rfl rfl

theorem Sys2Proof.Laws.Encoding.palletMoveStart (part : Nat) : Statement (.palletMoveStart part) := of_event rfl rfl

theorem Sys2Proof.Laws.Encoding.packageTrip : Statement (.packageTrip) := of_event rfl rfl

theorem Sys2Proof.Laws.Encoding.timeoutRound (n : Nat) : Statement (.timeoutRound n) := of_event rfl rfl

theorem Sys2Proof.Laws.Encoding.invalidationComplete : Statement (.invalidationComplete) := of_event rfl rfl

theorem Sys2Proof.Laws.Encoding.powerUp : Statement (.powerUp) := of_event rfl rfl

theorem Sys2Proof.Laws.Encoding.perst : Statement (.perst) := of_event rfl rfl

theorem Sys2Proof.Laws.Encoding.warmReset : Statement (.warmReset) := of_event rfl rfl

theorem Sys2Proof.Laws.Encoding.bootTrainingDone : Statement (.bootTrainingDone) := of_event rfl rfl

theorem Sys2Proof.Laws.Encoding.hostPortLinkDown : Statement (.hostPortLinkDown) := of_event rfl rfl
end

