-- ==== Sys2Proof/Safety.lean ====
section
/-! DEFINITION. What claims about the device are stated in: when a context can issue a bundle at once, what issuing a
bundle adds to the effect of its slots, what a taken trap leaves, and the invariant of the device. -/
namespace Sys2Proof.Machine

/-! ## A context that can issue -/

/-- A scalar register that carries no fault mark (09 R197) and that no pending access will write (14 R291). -/
def Ctx.freeS (c : Ctx) (n : Nat) : Bool := !(c.awaitS n) && c.marks.all (fun m => m.vec || decide (m.reg ≠ n))

/-- A vector register of the allotment (05 R105) with no fault mark and no pending access. -/
def Ctx.freeV (c : Ctx) (n : Nat) : Bool :=
  decide (n < c.allot) && !(c.awaitV n) && c.marks.all (fun m => !m.vec || decide (m.reg ≠ n))

/-- The context in focus. -/
def State.here (s : State) : Ctx := s.ctx s.focus

/-- The context in focus is resident, has issued no EXIT, runs alone, and replays no log. -/
def State.alive (s : State) : Bool :=
  s.here.resident && !s.here.exiting && s.here.gang.isNone && decide (s.here.logMode ≠ 2)

/-- The context in focus is resident, runs alone, replays no log, and has a bundle behind its next one; no course ends
there. -/
def State.plain (s : State) : Bool :=
  s.alive && decide (s.here.index + 1 < s.here.execHalf.count) && (s.here.endingCourses s.here.index).isEmpty

/-- The context in focus can issue at once a word that names these scalar and vector registers. -/
def State.clear (s : State) (rs : List (BitVec 5)) (vs : List (BitVec 6)) : Bool :=
  s.plain && rs.all (fun r => s.here.freeS r.toNat) && vs.all (fun v => s.here.freeV v.toNat)

/-- And the predicate of the word holds (02 R32). -/
def State.can (s : State) (p : BitVec 4) (rs : List (BitVec 5)) (vs : List (BitVec 6)) : Bool :=
  s.clear rs vs && predHolds s.here p

/-! ## What issuing a bundle adds -/

/-- 01 R15, 14 R275, R290: the step is counted, the next bundle follows, results due there commit, and the context no
longer waits. -/
def Ctx.advance (c : Ctx) : Ctx :=
  { ({ c.countStep c.inTrap with index := c.index + 1 } : Ctx).fallDue with waiting := false }

/-- 13 R258: and the partition of the context has issued. -/
def State.advance (s : State) : State :=
  (s.updCtx s.focus Ctx.advance).noteIssue [] s.here.owner

/-- The same for a taken branch to bundle t; a branch that ends courses ends those whose body it leaves (14 R281). -/
def Ctx.advanceTo (c : Ctx) (ends : Bool) (t : Nat) : Ctx :=
  let c1 := c.countStep c.inTrap
  let c2 := if ends then c1.leaveCourses c.index t else c1
  { ({ c2 with index := t } : Ctx).fallDue with waiting := false }

def State.branch (s : State) (ends : Bool) (t : Nat) : State :=
  (s.updCtx s.focus (fun c => c.advanceTo ends t)).noteIssue [] s.here.owner

/-- 15 R295: a bundle that blocks leaves the context waiting, and nothing else changed. -/
def State.waits (s : State) : State := (s.updCtx s.focus (fun c => { c with waiting := true })).settled

/-! ## Results on their way (14 R290) -/

/-- A result of the bundle being issued, in a slot, that falls due after l steps. -/
def State.result (s : State) (slot l : Nat) (d : Dst) (v m : Row) : State :=
  s.updCtx s.focus (fun c => c.schedule (c.now + 1) slot l d v m)
/-- A scalar result. -/
def State.scalar (s : State) (slot l : Nat) (d : BitVec 5) (v : Word) : State :=
  s.result slot l (.s d.toNat) (wordRow v) allOnes
/-- A flag result of an S slot. -/
def State.flagged (s : State) (f : BitVec 4) (v : Bool) : State :=
  s.result 1 1 (.f f.toNat) (BitVec.ofNat 1024 (bit v)) allOnes
/-- A vector result of a V slot: the active lanes of width w (05 R106). -/
def State.lanes (s : State) (l w : Nat) (d : BitVec 6) (v : Row) : State :=
  s.result 4 l (.v d.toNat) v (laneBits w s.here.top)

/-- No pending result for d falls due at the next step. -/
def Ctx.quiet (c : Ctx) (d : Dst) : Bool := c.pend.all (fun q => decide (q.dst ≠ d) || !(q.due? c.inTrap (c.now + 2)))

/-- t is s but for what issuing one bundle always changes (the step count, the next bundle, the waiting bit, the pending
results, and the registers whose results fall due) and for the destinations ds. -/
structure Frame (s t : State) (ds : List Dst) : Prop where
  memory : ∀ a, t.byte a = s.byte a
  rows : ∀ g n, t.row g n = s.row g n
  others : ∀ w, w ≠ s.focus → t.ctx w = s.ctx w
  scalars : ∀ n, .s n ∉ ds → s.here.quiet (.s n) = true → t.here.sreg n = s.here.sreg n
  flags : ∀ n, .f n ∉ ds → s.here.quiet (.f n) = true → t.here.flag n = s.here.flag n
  vectors : ∀ n, .v n ∉ ds → s.here.quiet (.v n) = true → t.here.vreg n = s.here.vreg n
  /-- the rest of the context: modes, masks, courses, queues, rings, bonds, system and trap registers -/
  context : ({ t.here with
      step := s.here.step, handlerStep := s.here.handlerStep, index := s.here.index, waiting := s.here.waiting
      pend := s.here.pend, sregs := s.here.sregs, flags := s.here.flags, binds := s.here.binds
      vregs := s.here.vregs } : Ctx) = s.here
  /-- the rest of every core: engines, tables, rings, operating point, core registers -/
  cores : ∀ g, ({ t.core g with cur := { t.hold g with ctxs := [] } } : Core) =
    { s.core g with cur := { s.hold g with ctxs := [] } }
  partitions : ∀ p, ({ t.part p with idleReported := (s.part p).idleReported } : Part) = s.part p
  /-- the rest of the device -/
  device : ({ t with cores := s.cores, parts := s.parts, foreign := s.foreign } : State) = s

/-- The row of its own core that a VSTR or a SPILL stores to, by the definitions that give its address (09 R201, R203). -/
def State.storedRow (s : State) (i : Instr) : Option Nat :=
  let own (r : RowRes) : Option Nat := match r with | .here n => some n | _ => none
  match i with
  | .vstrRow _ a _ n => own (s.rowByNumber s.focus (rowOperand s.here a n) true)
  | .vstrRing _ q _ n => own (s.rowByRing s.focus q.toNat n.toNat true)
  | .vstrGenerator _ g _ =>
    (match s.genRow s.focus g.toNat (s.here.gen g.toNat) with
     | .ok r => own (s.rowByNumber s.focus r true)
     | .error _ => none)
  | .vstrBond _ a _ k => own (s.rowByBond s.focus k.toNat (s.here.sreg a.toNat) true)
  | .spill _ n =>
    (match spillPlace s.here n.toNat with
     | .inl (r, _) => some r
     | .inr _ => none)
  | _ => none

/-! ## Traps (21 R359, R360) -/

/-- A trap of the context in focus enters its handler at once: a task in user mode, a valid trap vector, and the
handler's segment in the half that does not execute. -/
def State.canTrap (s : State) : Bool :=
  let c := s.here
  let v := (s.hold s.focus.core).tvec
  s.alive && !c.owner.boot && !c.priv && v.getLsbD 63 && decide ((v &&& 0x00FFFFFFFFFFFFE0#64) >>> 5 ≠ 0) &&
    c.otherHalf.valid && decide (c.otherHalf.addr = segmentBase (v &&& 0x00FFFFFFFFFFFFE0#64)) &&
    c.otherHalf.claim.isNone && c.otherHalf.image.isEmpty

/-- Scalar and vector registers, flags, the mask stack, pending results, memory, and the step count of the program are
as before. -/
def State.sameData (s x : State) : Bool :=
  decide (x.here.sregs = s.here.sregs ∧ x.here.vregs = s.here.vregs ∧ x.here.flags = s.here.flags ∧
    x.here.mask = s.here.mask ∧ x.here.pend = s.here.pend ∧ x.mem = s.mem ∧ x.here.step = s.here.step)

/-- x is the state after s in which the context in focus took trap t: the cause word, the interrupted bundle, the
address and the courses are saved; it is in privileged mode, at bundle 0 of the handler's segment. -/
def State.trapped (s : State) (t : TrapInfo) (after : Bool) (x : State) : Bool :=
  decide (x.focus = s.focus ∧ x.here.cause = causeWord t after ∧ x.here.tpc = s.here.tpcHere ∧ x.here.taddr = t.addr ∧
    x.here.savedCourses = s.here.courses ∧ x.here.priv = true ∧ x.here.inTrap = true ∧ x.here.handlerStep = 0 ∧
    x.here.index = 0 ∧ x.here.half = 1 - s.here.half ∧ x.here.execHalf.addr = s.here.otherHalf.addr)

/-- The word takes trap t in its slot: the trap is entered and the word has no effect of its own. -/
def State.traps (s : State) (i : Instr) (t : TrapInfo) : Prop :=
  ∃ x, exec i s = .next x ∧ s.trapped t false x = true ∧ s.sameData x = true

/-! ## The matrix unit's move -/

/-- Core g's running command moves next: r is its state, in the microprogram store and not ended (06 R148, R149). -/
def State.running (s : State) (g : Nat) (r : MRun) (more : List Act) : Prop :=
  s.agenda = .micro g :: more ∧ (s.matrix g).run = some r ∧ r.ended = none ∧ s.coreOff g = false ∧ r.pc < 4096

/-! ## The commands of a job's registers -/

/-- The 128 bytes of a descriptor must be awaited: the host may hold a line, or an earlier command of the job waits. -/
def State.waitsDescriptor (s : State) (j desc : Nat) : Bool :=
  s.snoopingRange desc 128 || s.later.any (fun x => decide (commandJob x = some j))

/-- The 128 bytes of a descriptor in the HBM of the job's partition can be read now. -/
def State.hasDescriptor (s : State) (j desc : Nat) : Bool :=
  s.inHbm (s.job j).part.toNat desc && s.inHbm (s.job j).part.toNat (desc + 127) && !(s.waitsDescriptor j desc) &&
    !(s.retired desc) && !(s.poisonedRange desc 128)

/-! ## The invariant -/

/-- Global memory is in its canonical form. -/
def State.memWf (s : State) : Bool := Memory.wf s.mem

end Sys2Proof.Machine
end

