-- ==== Sys2Proof/Certificates/Slice0/Obligations.lean ====
section
/-! DEFINITION. The statements for the provers. -/
open Sys2Proof Sys2Proof.Machine


/-! ## Scalar slots (04_scalar_instructions.md) -/

/-- 04 R85, R90 to R95, R98: the integer instructions of the S slots, each with its operation and latency. The result
falls due l steps after the bundle (State.scalar), the next bundle follows (State.advance), and nothing else changes.
Names ADD, SUB, AND, OR, XOR, ANDN, SHL, SHR, SAR, ROR, MUL, MULH, MULHU, DIV, DIVU, REM, REMU, MIN, MAX, MINU, MAXU,
SEL. -/
def Obligations.IntegerResults : Prop :=
  ∀ (s : State) (p : BitVec 4) (d a b : BitVec 5) (f : BitVec 4), s.can p [d, a, b] [] = true →
    let x := s.here.sreg a.toNat
    let y := s.here.sreg b.toNat
    exec (.add p d a b) s = .next (s.scalar 1 1 d (x + y)).advance ∧
    exec (.sub p d a b) s = .next (s.scalar 1 1 d (x - y)).advance ∧
    exec (.and p d a b) s = .next (s.scalar 1 1 d (x &&& y)).advance ∧
    exec (.or p d a b) s = .next (s.scalar 1 1 d (x ||| y)).advance ∧
    exec (.xor p d a b) s = .next (s.scalar 1 1 d (x ^^^ y)).advance ∧
    exec (.andn p d a b) s = .next (s.scalar 1 1 d (x &&& ~~~y)).advance ∧
    exec (.shl p d a b) s = .next (s.scalar 1 1 d (x <<< (y.toNat % 64))).advance ∧
    exec (.shr p d a b) s = .next (s.scalar 1 1 d (x >>> (y.toNat % 64))).advance ∧
    exec (.sar p d a b) s = .next (s.scalar 1 1 d (x.sshiftRight (y.toNat % 64))).advance ∧
    exec (.ror p d a b) s = .next (s.scalar 1 1 d (x.rotateRight (y.toNat % 64))).advance ∧
    exec (.mul p d a b) s = .next (s.scalar 1 3 d (x * y)).advance ∧
    exec (.mulh p d a b) s = .next (s.scalar 1 3 d (BitVec.ofInt 64 (x.toInt * y.toInt / 2 ^ 64))).advance ∧
    exec (.mulhu p d a b) s = .next (s.scalar 1 3 d (BitVec.ofNat 64 (x.toNat * y.toNat / 2 ^ 64))).advance ∧
    exec (.div p d a b) s = .next (s.scalar 1 20 d
      (if y = 0 then BitVec.allOnes 64 else BitVec.ofInt 64 (x.toInt.tdiv y.toInt))).advance ∧
    exec (.divu p d a b) s = .next (s.scalar 1 20 d
      (if y = 0 then BitVec.allOnes 64 else BitVec.ofNat 64 (x.toNat / y.toNat))).advance ∧
    exec (.rem p d a b) s = .next (s.scalar 1 20 d
      (if y = 0 then x else BitVec.ofInt 64 (x.toInt.tmod y.toInt))).advance ∧
    exec (.remu p d a b) s = .next (s.scalar 1 20 d
      (if y = 0 then x else BitVec.ofNat 64 (x.toNat % y.toNat))).advance ∧
    exec (.min p d a b) s = .next (s.scalar 1 1 d (if x.toInt ≤ y.toInt then x else y)).advance ∧
    exec (.max p d a b) s = .next (s.scalar 1 1 d (if y.toInt ≤ x.toInt then x else y)).advance ∧
    exec (.minu p d a b) s = .next (s.scalar 1 1 d (if x.toNat ≤ y.toNat then x else y)).advance ∧
    exec (.maxu p d a b) s = .next (s.scalar 1 1 d (if y.toNat ≤ x.toNat then x else y)).advance ∧
    exec (.sel p d a b f) s = .next (s.scalar 1 1 d (if s.here.flag f.toNat then x else y)).advance

/-- 04 R92 to R95: the funnel shifts, the bit counts, the immediate forms and the constant moves. 04 R93: what CLZ,
POPC and BREV compute. Bit by bit: the bits above the count are 0 and the next is 1; the number of ones; bit i of the
result is bit 63 − i. Names FSHL, FSHR, CLZ, POPC, BREV, ADDI, ANDI, ORI, XORI, SHLI, SHRI, SARI, RORI, MOVI, MOVS.
-/
def Obligations.ImmediateResults : Prop :=
  ((∀ (s : State) (p : BitVec 4) (d a b x : BitVec 5), s.can p [d, a, b, x] [] = true →
     let w := (s.here.sreg a.toNat).toNat * 2 ^ 64 + (s.here.sreg b.toNat).toNat
     let n := (s.here.sreg x.toNat).toNat % 64
     exec (.fshl p d a b x) s = .next (s.scalar 1 1 d (BitVec.ofNat 64 (w * 2 ^ n / 2 ^ 64))).advance ∧
     exec (.fshr p d a b x) s = .next (s.scalar 1 1 d (BitVec.ofNat 64 (w / 2 ^ n))).advance) ∧
   (∀ (s : State) (p : BitVec 4) (d a : BitVec 5) (i : BitVec 12) (h : BitVec 6), s.can p [d, a] [] = true →
     let x := s.here.sreg a.toNat
     exec (.clz p d a) s = .next (s.scalar 1 1 d (clzWord x)).advance ∧
     exec (.popc p d a) s = .next (s.scalar 1 1 d (popcWord x)).advance ∧
     exec (.brev p d a) s = .next (s.scalar 1 1 d (brevWord x)).advance ∧
     exec (.addi p d a i) s = .next (s.scalar 1 1 d (x + i.signExtend 64)).advance ∧
     exec (.andi p d a i) s = .next (s.scalar 1 1 d (x &&& i.setWidth 64)).advance ∧
     exec (.ori p d a i) s = .next (s.scalar 1 1 d (x ||| i.setWidth 64)).advance ∧
     exec (.xori p d a i) s = .next (s.scalar 1 1 d (x ^^^ i.setWidth 64)).advance ∧
     exec (.shli p d a h) s = .next (s.scalar 1 1 d (x <<< h.toNat)).advance ∧
     exec (.shri p d a h) s = .next (s.scalar 1 1 d (x >>> h.toNat)).advance ∧
     exec (.sari p d a h) s = .next (s.scalar 1 1 d (x.sshiftRight h.toNat)).advance ∧
     exec (.rori p d a h) s = .next (s.scalar 1 1 d (x.rotateRight h.toNat)).advance) ∧
   (∀ (s : State) (p : BitVec 4) (d : BitVec 5) (i : BitVec 17) (j : BitVec 16), s.can p [d] [] = true →
     exec (.movi p d i) s = .next (s.scalar 1 1 d (i.signExtend 64)).advance ∧
     exec (.movs p d j) s = .next (s.scalar 1 1 d ((s.here.sreg d.toNat <<< 16) + j.setWidth 64)).advance)) ∧
  (∀ a : Word,
     clzWord 0 = 64 ∧
     (a ≠ 0 → (clzWord a).toNat < 64 ∧ a.getLsbD (63 - (clzWord a).toNat) = true ∧
       ∀ i, 63 - (clzWord a).toNat < i → a.getLsbD i = false) ∧
     (popcWord a).toNat = ((List.range 64).filter (fun i => a.getLsbD i)).length ∧
     ∀ i, i < 64 → (brevWord a).getLsbD i = a.getLsbD (63 - i))

/-- 04 R101, R103: the FP32 instructions of the S slots work on bits [31:0] and write a result whose upper half is
zero. 04 R97, R102: the compares write one flag after one step. Names FADD, FSUB, FMUL, FMA, FCVT, CMP, CMPI, FCMP.
-/
def Obligations.FloatResults : Prop :=
  ((∀ (s : State) (p : BitVec 4) (d a b : BitVec 5), s.can p [d, a, b] [] = true →
     let x := (s.here.sreg a.toNat).toNat % 2 ^ 32
     let y := (s.here.sreg b.toNat).toNat % 2 ^ 32
     let z := (s.here.sreg d.toNat).toNat % 2 ^ 32
     exec (.fadd p d a b) s = .next (s.scalar 1 5 d (BitVec.ofNat 64 (fAdd fp32 x y))).advance ∧
     exec (.fsub p d a b) s = .next (s.scalar 1 5 d (BitVec.ofNat 64 (fSub fp32 x y))).advance ∧
     exec (.fmul p d a b) s = .next (s.scalar 1 5 d (BitVec.ofNat 64 (fMul fp32 x y))).advance ∧
     exec (.fma p d a b) s = .next (s.scalar 1 5 d (BitVec.ofNat 64 (fMulAdd fp32 x y z))).advance) ∧
   (∀ (s : State) (p : BitVec 4) (d a : BitVec 5) (ts t : BitVec 4), s.can p [d, a] [] = true → isFcvt t ts = true →
     exec (.fcvt p d a ts t) s = .next (s.scalar 1 3 d (BitVec.ofNat 64 (fConvert (fmtOf ts) (fmtOf t)
       ((s.here.sreg a.toNat).toNat % 2 ^ (fmtOf ts).width)))).advance)) ∧
  (∀ (s : State) (p f c : BitVec 4) (a b : BitVec 5) (i : BitVec 9), s.can p [a, b] [] = true →
     let x := s.here.sreg a.toNat
     let y := s.here.sreg b.toNat
     (c.toNat ≤ 9 →
       exec (.cmp p f c a b) s = .next (s.flagged f (intCond c x y)).advance ∧
       exec (.cmpi p f c a i) s = .next (s.flagged f (intCond c x (i.signExtend 64))).advance) ∧
     (isFloatCond c = true →
       exec (.fcmp p f c a b) s = .next (s.flagged f
         (floatCond c (fp32.read (x.toNat % 2 ^ 32)) (fp32.read (y.toNat % 2 ^ 32)))).advance))

/-- The frame of the scalar instructions: when one of them gives a next state, that state is as before but for the
destination register or flag and what every bundle changes (Frame): every byte of memory, every row, every other
register and flag, the special registers and the rest of the device. CB, which has no destination, is in BranchesTaken
and BranchesElsewhere. The frame of the instructions that write no register and no byte of memory at issue: where the
bundle issues, its step counted, every byte of global memory is as before, and every row but the one of its own core
that a store or a spill addresses (State.storedRow, by the definitions that the meanings use); the scalar and vector
registers and the flags that no event is bound to are those of State.advance; the mask, the courses, the identity, the
draw counters, the system and trap registers and the loads on their way are unchanged; every other context is as before
but for its waiting bit. Names all the instructions of IntegerResults, ImmediateResults and FloatResults, VSTR_ROW,
VSTR_RING, VSTR_GENERATOR, VSTR_BOND, SPILL, RCFG, RADVR, RADVW, ASET, BOND, GIVE, LEND, RECALL, UNBOND, MPSET, MPGO,
MCALL, FMTSET, BNDSET, CPY, CPY_NO_RING, PREF. -/
def Obligations.Frames : Prop :=
  (∀ (s t : State) (p : BitVec 4) (d a b x : BitVec 5) (f c st u : BitVec 4) (i : BitVec 12) (h : BitVec 6)
     (j : BitVec 17) (m : BitVec 16) (n : BitVec 9),
     s.can p [d, a, b, x] [] = true →
     (∀ ins ∈ ([.add p d a b, .sub p d a b, .and p d a b, .or p d a b, .xor p d a b, .andn p d a b, .shl p d a b,
         .shr p d a b, .sar p d a b, .ror p d a b, .fshl p d a b x, .fshr p d a b x, .mul p d a b, .mulh p d a b,
         .mulhu p d a b, .div p d a b, .divu p d a b, .rem p d a b, .remu p d a b, .min p d a b, .max p d a b,
         .minu p d a b, .maxu p d a b, .sel p d a b f, .clz p d a, .popc p d a, .brev p d a, .addi p d a i,
         .andi p d a i, .ori p d a i, .xori p d a i, .shli p d a h, .shri p d a h, .sari p d a h, .rori p d a h,
         .movi p d j, .movs p d m, .fadd p d a b, .fsub p d a b, .fmul p d a b, .fma p d a b,
         .fcvt p d a st u] : List Instr),
       ins.wf = true → exec ins s = .next t → Frame s t [.s d.toNat]) ∧
     (∀ ins ∈ ([.cmp p f c a b, .cmpi p f c a n, .fcmp p f c a b] : List Instr),
       ins.wf = true → exec ins s = .next t → Frame s t [.f f.toNat])) ∧
  (∀ (s t : State) (v : BitVec 6) (a b x : BitVec 5) (i : BitVec 8) (q : BitVec 4) (g pol : BitVec 2) (sc p : BitVec 3)
     (n : BitVec 16), s.plain = true →
     let stores : List Instr := [.vstrRow v a x i, .vstrRing v q x i, .vstrGenerator v g x, .vstrBond v a x q, .spill a n]
     let others : List Instr := [.rcfg q a, .radvr q i, .radvw q i, .aset g a, .bond q a b, .give q a, .lend q a, .recall q,
       .unbond q, .mpset p a, .mpgo, .mcall i, .fmtset q a, .bndset q a b pol, .cpy a b q sc, .cpyNoRing a b, .pref a b x]
     ∀ ins ∈ stores ++ others, ins.wf = true → exec ins s = .next t →
       t.here.step + t.here.handlerStep = s.here.step + s.here.handlerStep + 1 →
       (∀ k, t.byte k = s.byte k) ∧
       (ins ∈ others → ∀ h r, t.row h r = s.row h r) ∧
       (∀ h r, h ≠ s.focus.core ∨ s.storedRow ins ≠ some r → t.row h r = s.row h r) ∧
       t.here.sregs = s.advance.here.sregs ∧ t.here.vregs = s.advance.here.vregs ∧
       (∀ f, s.here.binds.get none f = none → t.here.flag f = s.advance.here.flag f) ∧
       ({ t.here with
           step := s.here.step, handlerStep := s.here.handlerStep, index := s.here.index, waiting := s.here.waiting
           pend := s.here.pend, sregs := s.here.sregs, flags := s.here.flags, binds := s.here.binds
           vregs := s.here.vregs, gens := s.here.gens, bonds := s.here.bonds, rings := s.here.rings
           pShadow := s.here.pShadow, pCommit := s.here.pCommit, mseq := s.here.mseq, cseq := s.here.cseq
           order := s.here.order, storeQ := s.here.storeQ, remoteQ := s.here.remoteQ, spilled := s.here.spilled
           halves := s.here.halves } : Ctx) = s.here ∧
       (∀ w, w ≠ s.focus → ({ t.ctx w with waiting := (s.ctx w).waiting } : Ctx) = s.ctx w))

/-- 02 R32: an S- or V-slot word whose predicate does not hold has no effect: the next bundle follows and nothing else
changes. 05 R106: a result commits to the active lanes alone; every inactive lane of vd keeps its value. Names every
instruction of the S and V slots; bits [25:22] of the word are its predicate. -/
def Obligations.PredicateOff : Prop :=
  (∀ (s : State) (i : Instr) (k : Nat) (w : SlotWord), homeSlot i = some k → (k = 1 ∨ k = 4) → encode i = some w →
     i.wf = true → s.plain = true → (k = 4 → s.here.allot = 64) → predHolds s.here (fld w 22 4) = false →
     exec i s = .next s.advance) ∧
  (∀ (c : Ctx) (n w j : Nat) (v : Row) (m : Word), w = 16 ∨ w = 32 ∨ w = 64 → j < 1024 / w →
     lane w ((c.setV n v (laneBits w m)).vreg n) j = if m.getLsbD j then lane w v j else lane w (c.vreg n) j)

/-- 14 R290: the results due at a step commit before its bundle reads, in issue order and, within one bundle, in slot
order: of the results due for one scalar register, one flag or one lane of a vector register, the last one scheduled is
the one that is read. Results that are not due stay pending and do not show. 04 R84: s0 reads 0 and f0 reads 1, and a
write of either changes nothing. -/
def Obligations.ResultsFallDue : Prop :=
  (∀ (c : Ctx) (n : Nat),
     (∀ q, q ∈ (c.commitDue n).pend ↔ q ∈ c.pend ∧ q.due? c.inTrap n = false) ∧
     (∀ q l more, c.pend = l ++ q :: more → q.due? c.inTrap n = true →
       (∀ x ∈ more, x.dst = q.dst → x.due? c.inTrap n = false) →
       (∀ r, q.dst = .s r → r ≠ 0 → (c.commitDue n).sreg r = q.val.setWidth 64) ∧
       (∀ r, q.dst = .f r → r ≠ 0 → r < 16 → (c.commitDue n).flag r = q.val.getLsbD 0) ∧
       (∀ r j, q.dst = .v r → r < c.allot → j < 1024 → ((c.commitDue n).vreg r).getLsbD j =
         if q.mask.getLsbD j then q.val.getLsbD j else ((({ c with pend := l } : Ctx).commitDue n).vreg r).getLsbD j)) ∧
     (∀ r, (∀ q ∈ c.pend, q.dst = .s r → q.due? c.inTrap n = false) → (c.commitDue n).sreg r = c.sreg r) ∧
     (∀ r, (∀ q ∈ c.pend, q.dst = .f r → q.due? c.inTrap n = false) → (c.commitDue n).flag r = c.flag r) ∧
     (∀ r, (∀ q ∈ c.pend, q.dst = .v r → q.due? c.inTrap n = false) → (c.commitDue n).vreg r = c.vreg r)) ∧
  (∀ (c : Ctx) (v : Word) (b : Bool),
     c.sreg 0 = 0 ∧ c.setS 0 v = c ∧ c.flag 0 = true ∧ c.commitFlag 0 b = c ∧
     ∀ n, n ≠ 0 → (c.setS n v).sreg n = v ∧ (n < 16 → (c.commitFlag n b).flag n = b))

/-! ## Control slot (14_control_flow.md) -/

/-- 14 R275, R276; 04 R99: a branch that is taken goes to the bundle its offset or register names, when the segment
has that bundle, and ends the courses whose bodies it leaves; CALL ends none, and writes the index of the next bundle
to sd after one step. Names BR, BEM, BNEM, CALL, RET, CB. -/
def Obligations.BranchesTaken : Prop :=
  ∀ (s : State) (n : BitVec 1) (f p c : BitVec 4) (o : BitVec 16) (q : BitVec 8) (d a b : BitVec 5),
    s.alive = true → s.here.freeS d.toNat = true → s.here.freeS a.toNat = true → s.here.freeS b.toNat = true →
    let i := s.here.index
    let near := (i : Int) + o.toInt
    let far := (i : Int) + q.toInt
    let count := s.here.execHalf.count
    (0 ≤ near → near < count →
      (s.here.flag f.toNat ≠ n.getLsbD 0 → exec (.br n f o) s = .next (s.branch true near.toNat)) ∧
      (s.here.top = 0 → exec (.bem o) s = .next (s.branch true near.toNat)) ∧
      (s.here.top ≠ 0 → exec (.bnem o) s = .next (s.branch true near.toNat)) ∧
      exec (.call d o) s = .next ((s.scalar 0 1 d (BitVec.ofNat 64 (i + 1))).branch false near.toNat)) ∧
    ((s.here.sreg a.toNat).toNat < count → exec (.ret a) s = .next (s.branch true (s.here.sreg a.toNat).toNat)) ∧
    (0 ≤ far → far < count → predHolds s.here p = true → c.toNat ≤ 9 →
      intCond c (s.here.sreg a.toNat) (s.here.sreg b.toNat) = true →
      exec (.cb p c a b q) s = .next (s.branch true far.toNat))

/-- 14 R275, R276; 04 R99: a branch that is not taken is followed by the next bundle and has no other effect. 14 R276:
a taken branch to an index outside the segment traps with cause 27 and has no effect: CALL writes no register. Names
BR, BEM, BNEM, CB, SJMP, CALL, RET. -/
def Obligations.BranchesElsewhere : Prop :=
  (∀ (s : State) (n : BitVec 1) (f p c : BitVec 4) (o : BitVec 16) (q : BitVec 8) (a b : BitVec 5),
     s.can p [a, b] [] = true →
     (s.here.flag f.toNat = n.getLsbD 0 → exec (.br n f o) s = .next s.advance ∧ exec (.sjmp n f a) s = .next s.advance) ∧
     (s.here.top ≠ 0 → exec (.bem o) s = .next s.advance) ∧
     (s.here.top = 0 → exec (.bnem o) s = .next s.advance) ∧
     (c.toNat ≤ 9 → intCond c (s.here.sreg a.toNat) (s.here.sreg b.toNat) = false →
       exec (.cb p c a b q) s = .next s.advance)) ∧
  (∀ (s : State) (n : BitVec 1) (f p c : BitVec 4) (o : BitVec 16) (q : BitVec 8) (d a b : BitVec 5),
     s.canTrap = true → s.here.freeS d.toNat = true → s.here.freeS a.toNat = true → s.here.freeS b.toNat = true →
     let near := (s.here.index : Int) + o.toInt
     let far := (s.here.index : Int) + q.toInt
     let count := s.here.execHalf.count
     let t : TrapInfo := { cause := 27, slot := 0 }
     (near < 0 ∨ (count : Int) ≤ near →
       (s.here.flag f.toNat ≠ n.getLsbD 0 → s.traps (.br n f o) t) ∧ (s.here.top = 0 → s.traps (.bem o) t) ∧
       (s.here.top ≠ 0 → s.traps (.bnem o) t) ∧ s.traps (.call d o) t) ∧
     (count ≤ (s.here.sreg a.toNat).toNat → s.traps (.ret a) t) ∧
     (far < 0 ∨ (count : Int) ≤ far → predHolds s.here p = true → c.toNat ≤ 9 →
       intCond c (s.here.sreg a.toNat) (s.here.sreg b.toNat) = true → s.traps (.cb p c a b q) { cause := 27, slot := 1 }))

/-- 14 R278: LOOP and LOOPI set up a course over the len + 1 bundles that follow, the last of which may be the segment's
last bundle; with a trip count of 0 the course stays inactive and the body is skipped; a body that reaches too far
traps with cause 27. LOOP takes its trip count from bits [31:0] of sa, LOOPI from its field plus 1. 14 R280: at the
last bundle of an active course the back-edge follows while its index has not reached the trip count: the index grows
by one and the first bundle of the body is next. Otherwise the course ends and, where no other course ends there, the
next bundle follows. 14 R282: either way the generators that the course names are aligned, and the others stay. Shown
for a NOP in that bundle. Names LOOP, LOOPI. -/
def Obligations.Courses : Prop :=
  (∀ (s : State) (c : BitVec 3) (a : BitVec 5) (t : BitVec 10) (l : BitVec 9) (am : BitVec 4), c.toNat ≤ 5 →
     s.clear [a] [] = true →
     let i := s.here.index
     let set (n : Nat) : State := s.updCtx s.focus (fun x =>
       { x with courses := x.courses.put c.toNat { active := true, trip := BitVec.ofNat 32 n, index := 0, first := i + 1,
                                                   last := i + 1 + l.toNat, am := am, start := x.courseClock }
                courseClock := x.courseClock + 1 })
     let trip := (s.here.sreg a.toNat).toNat % 2 ^ 32
     (i + 1 + l.toNat < s.here.execHalf.count →
       exec (.loopi c t l am) s = .next (set (t.toNat + 1)).advance ∧
       (trip ≠ 0 → exec (.loop c a l am) s = .next (set trip).advance) ∧
       (trip = 0 → i + 2 + l.toNat < s.here.execHalf.count → exec (.loop c a l am) s = .next
         ((s.updCtx s.focus (fun x =>
           { x with courses := x.courses.put c.toNat ({ x.course c.toNat with active := false, trip := 0 } : Course) })).branch
             true (i + 2 + l.toNat)))) ∧
     (s.here.execHalf.count ≤ i + 1 + l.toNat → s.canTrap = true →
       s.traps (.loopi c t l am) { cause := 27, slot := 0 } ∧ s.traps (.loop c a l am) { cause := 27, slot := 0 })) ∧
  (∀ (s : State) (n : Nat), s.alive = true → s.here.endingCourses s.here.index = [n] →
     let k := s.here.course n
     ((k.index + 1).toNat < k.trip.toNat → ∃ x, exec .nop s = .next x ∧ x.here.index = k.first ∧
       x.here.course n = { k with index := k.index + 1 } ∧ x.mem = s.mem ∧
       ∀ j, x.here.gen j = if k.am.getLsbD j then (s.here.gen j).align else s.here.gen j) ∧
     (¬ (k.index + 1).toNat < k.trip.toNat → s.here.index + 1 < s.here.execHalf.count →
       ∃ x, exec .nop s = .next x ∧ x.here.index = s.here.index + 1 ∧
         x.here.course n = { k with active := false, trip := 0 } ∧ x.mem = s.mem ∧
         ∀ j, x.here.gen j = if k.am.getLsbD j then (s.here.gen j).align else s.here.gen j))

/-- 02 R35, R40; 14 R283 to R285: NOP and IGATE have no effect of their own; a PWAIT passes when it selects nothing or
a selected field is satisfied; an RWAIT passes when the ring has the slots it asks for. 14 R284, R285; 15 R295:
otherwise a PWAIT with a bound flag among its fields and an RWAIT leave the context waiting, with nothing else
changed; a PWAIT without one traps with cause 46; an RWAIT on an unmapped handle or for more slots than the ring has
traps with cause 8. 14 R283, R284: which slots of its bundle a gate lets take part. IGATE gates the slots of its mask
by one of four tests of a course: first iteration, last iteration, not the first, not the last. PWAIT gates slot k by
its field: always (0), never (8), or by a flag against a sense. Slot 0 is never gated. Names NOP, IGATE, PWAIT, RWAIT.
-/
def Obligations.Waits : Prop :=
  (∀ (s : State) (c : BitVec 3) (w : BitVec 2) (st : BitVec 7) (g f e d x b a q : BitVec 4) (n : BitVec 8) (r : Nat),
     s.plain = true →
     let sel := [a, b, x, d, e, f, g].filter (fun y => decide (y ≠ 0) && decide (y ≠ 8))
     let ring := (s.hold s.focus.core).ring r
     exec .nop s = .next s.advance ∧
     (c.toNat ≤ 5 → exec (.igate c w st) s = .next s.advance) ∧
     (sel = [] ∨ (∃ y ∈ sel, s.here.flag (y.toNat % 8) ≠ y.getLsbD 3) → exec (.pwait g f e d x b a) s = .next s.advance) ∧
     (s.here.ringOf q.toNat = some r → n.toNat + 1 ≤ ring.slots →
       (n.toNat + 1 ≤ ring.filled → exec (.rwait q 0 n) s = .next (s.updCtx s.focus Ctx.meet).advance) ∧
       (n.toNat + 1 ≤ ring.free → exec (.rwait q 1 n) s = .next s.advance))) ∧
  (∀ (s : State) (g f e d x b a q : BitVec 4) (w : BitVec 1) (n : BitVec 8), s.plain = true →
     let sel := [a, b, x, d, e, f, g].filter (fun y => decide (y ≠ 0) && decide (y ≠ 8))
     (sel ≠ [] → (∀ y ∈ sel, s.here.flag (y.toNat % 8) = y.getLsbD 3) →
       ((∃ y ∈ sel, s.here.binds.get none (y.toNat % 8) ≠ none) → exec (.pwait g f e d x b a) s = .next s.waits) ∧
       ((∀ y ∈ sel, s.here.binds.get none (y.toNat % 8) = none) → s.canTrap = true →
         s.traps (.pwait g f e d x b a) { cause := 46, slot := 0 })) ∧
     (∀ r, s.here.ringOf q.toNat = some r →
       let ring := (s.hold s.focus.core).ring r
       (n.toNat + 1 ≤ ring.slots → (if w = 0 then ring.filled else ring.free) < n.toNat + 1 →
         exec (.rwait q w n) s = .next s.waits) ∧
       (ring.slots < n.toNat + 1 → s.canTrap = true →
         s.traps (.rwait q w n) { cause := 8, slot := 0, addr := BitVec.ofNat 64 q.toNat })) ∧
     (s.here.ringOf q.toNat = none → s.canTrap = true →
       s.traps (.rwait q w n) { cause := 8, slot := 0, addr := BitVec.ofNat 64 q.toNat })) ∧
  (∀ (e : Env) (c : BitVec 3) (w : BitVec 2) (l : BitVec 7) (fs : List (BitVec 4)) (k : Nat), k < 8 →
     let co := e.lead.course c.toNat
     Gate.lets none e k = true ∧
     Gate.lets (some (.igate c w l)) e 0 = true ∧
     Gate.lets (some (.pwait fs)) e 0 = true ∧
     (k ≠ 0 → l.getLsbD (k - 1) = false → Gate.lets (some (.igate c w l)) e k = true) ∧
     (k ≠ 0 → l.getLsbD (k - 1) = true → Gate.lets (some (.igate c w l)) e k =
       (if w = 0 then co.active && decide (co.index = 0)
        else if w = 1 then co.active && decide (co.index = co.trip - 1)
        else if w = 2 then !(co.active && decide (co.index = 0))
        else !(co.active && decide (co.index = co.trip - 1)))) ∧
     (k ≠ 0 → Gate.lets (some (.pwait fs)) e k =
       (let f := fs.getD (k - 1) 0
        if f = 0 then true else if f = 8 then false else e.ctx.flag (f.toNat % 8) != f.getLsbD 3)))

/-- 14 R286, 13 R272, 15 R301 to R304, 11 R236: BINDF unbinds a flag or binds it to an event with its view 0; YIELD
marks the core's cycle as given up; HINT sets the hint; SBAR, once no ringless command of its context is left, orders
the commands that follow against the accesses of its mask that come before it, or traps with the cause that a failed
one left; OPPT asks for an operating point, shown for a context in no gang. Where the point
changes on an island that has not settled, the bundle does not issue and the core freezes (the frozen cycle is in
CoreCycle). Names BINDF, YIELD, HINT, SBAR, OPPT. -/
def Obligations.ControlEffects : Prop :=
  ∀ (s : State) (f : BitVec 4) (ev : BitVec 6) (i : BitVec 8) (h : BitVec 2) (m : BitVec 3) (t : BitVec 3),
    s.plain = true →
    let k := s.hold s.focus.core
    (f ≠ 0 → isEvent ev i = true →
      (ev = 0 → exec (.bindf f ev i) s =
        .next (s.updCtx s.focus (fun c => { c with binds := c.binds.drop f.toNat })).advance) ∧
      (ev ≠ 0 → (ev = 1 ∨ ev = 2 → s.here.ringOf (i.toNat % 16) ≠ none) → exec (.bindf f ev i) s =
        .next (s.updCtx s.focus (fun c =>
          { c with binds := c.binds.put f.toNat (some (ev, i)), flags := setFld c.flags f.toNat 1 0 })).advance) ∧
      (ev = 1 ∨ ev = 2 → s.here.ringOf (i.toNat % 16) = none → s.canTrap = true →
        s.traps (.bindf f ev i) { cause := 8, slot := 0, addr := BitVec.ofNat 64 (i.toNat % 16) })) ∧
    exec .yield s = .next (s.updCore s.focus.core (fun c => { c with yielded := true })).advance ∧
    (h ≠ 3 → exec (.hint h) s = .next (s.updCtx s.focus (fun c => { c with hint := h })).advance) ∧
    (m ≠ 0 → k.restoring = false → (∀ c ∈ k.copies, c.slot = s.focus.slot → c.ring ≠ none) →
      (s.here.ringless = none → exec (.sbar m) s = .next (s.updCtx s.focus (fun c =>
        { c.meet with sbar := { srd := if m.getLsbD 0 then c.order else c.sbar.srd
                                swr := if m.getLsbD 1 then c.order else c.sbar.swr
                                mem := if m.getLsbD 2 then c.order else c.sbar.mem } })).advance) ∧
      (∀ x, s.here.ringless = some x → x.cause ≠ 50 → s.canTrap = true → ∃ y, exec (.sbar m) s = .next y ∧
        s.trapped { cause := x.cause, sub := x.cause, slot := 0, addr := x.addr } false y = true ∧
        y.here.ringless = none ∧ y.mem = s.mem ∧ y.here.sregs = s.here.sregs ∧ y.here.sbar = s.here.sbar)) ∧
    (m ≠ 0 → k.restoring = true ∨ (∃ c ∈ k.copies, c.slot = s.focus.slot ∧ c.ring = none) →
      exec (.sbar m) s = .next s.waits) ∧
    (k.opReq = t → exec (.oppt t) s = .next s.advance) ∧
    (k.opReq ≠ t →
      let asked := s.updHold s.focus.core (fun x => { x with opReq := t })
      (s.gangOn s.focus.core = none → (s.core s.focus.core).opBusy = true → exec (.oppt t) s = .next s.settled) ∧
      (s.gangOn s.focus.core = none → (s.core s.focus.core).opBusy = false → exec (.oppt t) s =
        .next (asked.opChanged s.focus.core).advance) ∧
      (∀ gang, s.gangOn s.focus.core = some gang → gang.lead ≠ s.focus.core → exec (.oppt t) s =
        .next (asked.opChanged s.focus.core).advance))

/-- 14 R288, R289: GROW adds 8(n + 1) vector registers that read 0 while the core has room for them, and waits while
it has not; an allotment above 64 traps with cause 26. SHRINK releases the top 8(n + 1), after which the core may select
(15 R297); more than the allotment traps with cause 26. Names GROW, SHRINK. -/
def Obligations.Allotment : Prop :=
  ∀ (s : State) (n : BitVec 3), s.plain = true →
    let r := 8 * (n.toNat + 1)
    (s.here.allot + r ≤ 64 → (s.hold s.focus.core).allotted + r ≤ 128 →
      exec (.grow n) s = .next (s.updCtx s.focus (fun c => c.grow r)).advance) ∧
    (s.here.allot + r ≤ 64 → 128 < (s.hold s.focus.core).allotted + r → exec (.grow n) s = .next s.waits) ∧
    (64 < s.here.allot + r → s.canTrap = true → s.traps (.grow n) { cause := 26, slot := 0 }) ∧
    (r ≤ s.here.allot → exec (.shrink n) s =
      .next (((s.updCtx s.focus (fun c => c.shrink r)).wake s.focus.core).soon (.launchBind s.focus.core)).advance) ∧
    (s.here.allot < r → s.canTrap = true → s.traps (.shrink n) { cause := 26, slot := 0 }) ∧
    (∀ c : Ctx, (c.grow r).allot = c.allot + r ∧ (∀ v, v < c.allot → (c.grow r).vreg v = c.vreg v) ∧
      (∀ v, c.allot ≤ v → (c.grow r).vreg v = 0)) ∧
    (∀ c : Ctx, (c.shrink r).allot = c.allot - r ∧ (∀ v, v < c.allot - r → (c.shrink r).vreg v = c.vreg v) ∧
      (∀ q ∈ (c.shrink r).pend, ∀ v, q.dst = .v v → v < c.allot - r))

/-! ## Global memory (09_memory_instructions.md, 12_atomics_and_versions.md, 18_isolation_translation.md) -/

/-- 18 R331, R332, R335, 01 R23, R402; 08 R175; 12 R244: where an access of a task to local memory goes. Bits [63:56] of
the address must be zero (else cause 16). The leaf is one in the cluster's TLB, tagged with the job and its partition, or
that of a walk, which joins the TLB and the partition's walk cache; a walk without a leaf ends with its own cause. The
leaf must allow the kind of access in the mode, and a page of register space only privileged code (else cause 23). The
address is the leaf's base plus the offset in the page, aligned to the access size; one in a window of another partition
is cause 19 (the model's choice, log 104), a hole of the map cause 18, and so are device registers for a form that may not reach them. -/
def Obligations.GlobalAddress : Prop :=
  (∀ (s : State) (c j : Nat) (va : Word),
     let p := (s.job j).part.toNat
     let known := (s.cluster c).tlb.find? (fun l => l.covers j p va.toNat)
     (∀ l, known = some l → s.leafFor c j va = .ok (l, s)) ∧
     (∀ l es, known = none → s.walk j va = .ok (l, es) → s.leafFor c j va = .ok (l, (s.fillTlb c l).fillWalks p es)) ∧
     (∀ f, known = none → s.walk j va = .error f → s.leafFor c j va = .error f)) ∧
  (∀ (s : State) (w : Who) (va : Word) (n : Nat) (k : Kind) (regs : Bool), (s.ctx w).owner.boot = false →
     let o := (s.ctx w).owner
     let priv := (s.ctx w).priv
     let go := s.globalAt w va n k regs
     let leaf := s.leafFor (clusterOf w.core) o.job va
     (2 ^ 56 ≤ va.toNat → go = .error 16) ∧
     (∀ f, va.toNat < 2 ^ 56 → leaf = .error f → go = .error f.cause) ∧
     (∀ l x, va.toNat < 2 ^ 56 → leaf = .ok (l, x) →
       let at_ := l.pa + va.toNat % 2 ^ l.bits
       let pa := at_ / n * n
       (l.allows priv k = false ∨ (priv = false ∧ s.place at_ = .registers) → go = .error 23) ∧
       (l.allows priv k = true → priv = true ∨ s.place at_ ≠ .registers →
         (s.windowShut o pa = true → go = .error 19) ∧
         (s.windowShut o pa = false →
           (s.place pa = .hbm → go = .ok (pa, x)) ∧
           (s.place pa = .hole → go = .error 18) ∧
           (s.place pa = .noDevice → go = .error 17) ∧
           (s.place pa = .registers → regs = false ∨ n ≠ 8 → go = .error 18)))) ∧
     (∀ p x, go = .ok (p, x) → ({ x with clusters := s.clusters, walks := s.walks } : State) = s))

/-- 18 R326, R330, R331, R335: a leaf that a walk finds is a leaf of the job in its partition for the address, its page is
aligned to its size, and a page in local HBM lies in the partition of the job; so an access of a task through such leaves
reaches no local HBM outside its partition. -/
def Obligations.PartitionIsolation : Prop :=
  (∀ (s : State) (j : Nat) (va : Word) (l : Leaf) (es : List WalkEntry), s.walk j va = .ok (l, es) →
    l.covers j (s.job j).part.toNat va.toNat = true ∧ (l.bits = 30 ∨ l.bits = 21 ∨ l.bits = 16) ∧ l.pa % 2 ^ l.bits = 0 ∧
    (s.isLocalHbm l.pa = true → s.inHbm (s.job j).part.toNat l.pa = true)) ∧
  (∀ (s : State) (c : Nat) (o : Owner) (priv : Bool) (va : Word) (k : Kind) (pa : Nat) (x : State),
    o.boot = false →
    (∀ l ∈ (s.cluster c).tlb, l.job = o.job → l.part = (s.job o.job).part.toNat →
      (l.bits = 30 ∨ l.bits = 21 ∨ l.bits = 16) ∧ l.pa % 2 ^ l.bits = 0 ∧
      (s.isLocalHbm l.pa = true → s.inHbm (s.job o.job).part.toNat l.pa = true)) →
    s.translate c o priv va k = .ok (pa, x) → s.isLocalHbm pa = true → s.inHbm (s.job o.job).part.toNat pa = true)

/-- 09 R195, R196, R198, R199: a load whose checks pass joins the load queue with its destination, size, address and
order number, as an acquire for LDAQ, and becomes the last writer of its destination (03 R63, log 75); with 32 entries
there, or while a line that a walk reads may be the host's (19 R341, log 78), it waits; an address inside a versioned
region is cause 22, and a failed check traps with its cause; CTX.TADDR holds the aligned address (log 71). 09 R195 to
R199: a store whose checks pass joins the store queue with the register's value; no byte of memory changes at issue. An
address inside a versioned region is cause 22, a store of a speculative task cause 21, and a STRL with a held cause
traps with cause 34 and the held cause as its second. 09 R197, R199: MARK and FENCE put one entry into each queue, and
wait while one of them is full; with both queues empty there is nothing to order and both stay empty; a FENCE with a
held cause traps with cause 34. Names LD, LDX, LDAQ, ST, STRL, MARK, FENCE. -/
def Obligations.QueuedAccesses : Prop :=
  (∀ (s x : State) (d a : BitVec 5) (z : BitVec 2) (c : BitVec 3) (i : BitVec 11) (pa e : Nat),
     s.clear [d, a] [] = true → isScope c = true →
     let va := s.here.sreg a.toNat + i.signExtend 64
     let n := 2 ^ z.toNat
     let go := s.globalAt s.focus va n .read true
     let queue (sx acq wide : Bool) : State := (x.updCtx s.focus (fun y =>
       { y.supersede (.s d.toNat) with
                order := y.order + 1
                loadQ := y.loadQ ++ [{ ord := y.order, kind := .plain, dst := d.toNat, n := n, sext := sx,
                                       va := aligned va n, pa := pa, acquire := acq, wide := wide }] })).advance
     (go = .ok (pa, x) → s.regionAt s.here.owner va.toNat = none →
       (s.here.loadQ.length < 32 →
         exec (.ld d a z i) s = .next (queue false false false) ∧
         (z.toNat ≤ 2 → exec (.ldx d a z i) s = .next (queue true false false)) ∧
         exec (.ldaq d a z c i) s = .next (queue false true (decide (c ≠ 0)))) ∧
       (32 ≤ s.here.loadQ.length →
         exec (.ld d a z i) s = .next s.waits ∧ (z.toNat ≤ 2 → exec (.ldx d a z i) s = .next s.waits) ∧
         exec (.ldaq d a z c i) s = .next s.waits)) ∧
     (go = .ok (pa, x) → s.regionAt s.here.owner va.toNat ≠ none → s.canTrap = true →
       let t : TrapInfo := { cause := 22, slot := 3, addr := aligned va n }
       s.traps (.ld d a z i) t ∧ (z.toNat ≤ 2 → s.traps (.ldx d a z i) t) ∧ s.traps (.ldaq d a z c i) t) ∧
     (go = .error e → s.canTrap = true → e ≠ 50 → e ≠ Cause.later →
       let t : TrapInfo := { cause := e, slot := 3, addr := aligned va n }
       s.traps (.ld d a z i) t ∧ (z.toNat ≤ 2 → s.traps (.ldx d a z i) t) ∧ s.traps (.ldaq d a z c i) t) ∧
     (go = .error Cause.later →
       exec (.ld d a z i) s = .next s.waits ∧ (z.toNat ≤ 2 → exec (.ldx d a z i) s = .next s.waits) ∧
       exec (.ldaq d a z c i) s = .next s.waits)) ∧
  (∀ (s x : State) (d a : BitVec 5) (z : BitVec 2) (c : BitVec 3) (i : BitVec 11) (pa : Nat),
     s.clear [d, a] [] = true → isScope c = true →
     let va := s.here.sreg a.toNat + i.signExtend 64
     let n := 2 ^ z.toNat
     let queue (rel : Bool) : State := (x.updCtx s.focus (fun y =>
       { y with order := y.order + 1
                storeQ := y.storeQ ++ [{ ord := y.order, kind := .plain, n := n, va := aligned va n, pa := pa,
                                         data := s.here.sreg d.toNat, release := rel }] })).advance
     s.globalAt s.focus va n .write true = .ok (pa, x) →
     (s.regionAt s.here.owner va.toNat = none → s.here.spec = none →
       (s.here.storeQ.length < 32 →
         exec (.st d a z i) s = .next (queue false) ∧
         (s.here.heldStore = none → exec (.strl d a z c i) s = .next (queue true)) ∧
         (∀ p, (queue false).byte p = s.byte p ∧ (queue true).byte p = s.byte p)) ∧
       (32 ≤ s.here.storeQ.length →
         exec (.st d a z i) s = .next s.waits ∧
         (s.here.heldStore = none → exec (.strl d a z c i) s = .next s.waits)) ∧
       (∀ h, s.here.heldStore = some h → s.canTrap = true → s.traps (.strl d a z c i)
         { cause := 34, sub := h.cause, slot := 3, frame := h.frame, fix := .store })) ∧
     (s.regionAt s.here.owner va.toNat ≠ none → s.canTrap = true →
       s.traps (.st d a z i) { cause := 22, slot := 3, addr := aligned va n } ∧
       s.traps (.strl d a z c i) { cause := 22, slot := 3, addr := aligned va n }) ∧
     (s.regionAt s.here.owner va.toNat = none → s.here.spec ≠ none → s.canTrap = true →
       s.traps (.st d a z i) { cause := 21, slot := 3, addr := aligned va n } ∧
       s.traps (.strl d a z c i) { cause := 21, slot := 3, addr := aligned va n })) ∧
  (∀ (s : State) (c : BitVec 3), s.plain = true → isScope c = true →
     let k := s.here
     let queue (wide : Bool) : State := (s.updCtx s.focus (fun y => y.pushBoth .mark 0 1 0 0 wide)).advance
     (k.loadQ.length < 32 → k.storeQ.length < 32 →
       exec .mark s = .next (queue false) ∧ (k.heldStore = none → exec (.fence c) s = .next (queue (decide (c ≠ 0))))) ∧
     (32 ≤ k.loadQ.length ∨ 32 ≤ k.storeQ.length →
       exec .mark s = .next s.waits ∧ (k.heldStore = none → exec (.fence c) s = .next s.waits)) ∧
     (k.loadQ = [] → k.storeQ = [] → ∀ b, (queue b).here.loadQ = [] ∧ (queue b).here.storeQ = []) ∧
     (∀ h, k.heldStore = some h → s.canTrap = true → s.traps (.fence c)
       { cause := 34, sub := h.cause, slot := 3, frame := h.frame, fix := .store }) ∧
     (∀ b p, (queue b).byte p = s.byte p))

/-- 12 R239, R240, R243: an atomic whose checks pass joins both queues with its operation, its operands cut to the
access size, its destination and address; no byte of memory changes at issue. 12 R245, shown for AADD: one of the
partition that registered a window, on a device of the window, with the window's operation and size, is a contribution
to it; any other traps with cause 37. 12 R240, R241: the value an atomic
leaves at an n-byte location that held old, with operand x (and, for ACAS, the new value y), and the value it returns.
Names AADD, AAND, AOR, AXOR, AMIN, AMAX, AMINU, AMAXU, ASWP, ACAS, AFADD, AFMIN, AFMAX. -/
def Obligations.Atomics : Prop :=
  (∀ (s x : State) (d a b y : BitVec 5) (z : BitVec 2) (c : BitVec 3) (pa : Nat),
     s.clear [d, a, b, y] [] = true → isScope c = true → 2 ≤ z.toNat →
     let va := s.here.sreg a.toNat
     let cut (r : BitVec 5) (n : Nat) : Word := BitVec.ofNat 64 ((s.here.sreg r.toNat).toNat % 2 ^ (8 * n))
     let queue (op n : Nat) (v : Word) : State :=
       (x.updCtx s.focus (fun q => q.pushBoth (.atomic op (cut b n) v) d.toNat n (aligned va n) pa (decide (c ≠ 0)))).advance
     s.regionAt s.here.owner va.toNat = none → s.here.spec = none → s.place pa = .hbm →
     s.here.loadQ.length < 32 → s.here.storeQ.length < 32 →
     (∀ p win, s.globalAt s.focus va (2 ^ z.toNat) .write false = .ok (pa, x) → s.windowAt pa = some (p, win) →
       let n := 2 ^ z.toNat
       let fits := s.here.owner.boot = false ∧ s.here.owner.part = p ∧ win.op = 0 ∧ win.width = n ∧
         win.members.contains s.difIndex.toNat = true
       (fits → exec (.aadd d a b z c) s =
         .next (x.updCtx s.focus (fun q =>
           q.pushBoth (.contribution 0x08 (cut b n)) d.toNat n (aligned va n) pa (decide (c ≠ 0)))).advance) ∧
       (¬ fits → s.canTrap = true →
         s.traps (.aadd d a b z c) { cause := 37, slot := 3, addr := aligned va n })) ∧
     (s.windowAt pa = none →
      (let n := 2 ^ z.toNat
      s.globalAt s.focus va n .write false = .ok (pa, x) →
       exec (.aadd d a b z c) s = .next (queue 0x08 n 0) ∧ exec (.aand d a b z c) s = .next (queue 0x09 n 0) ∧
       exec (.aor d a b z c) s = .next (queue 0x0A n 0) ∧ exec (.axor d a b z c) s = .next (queue 0x0B n 0) ∧
       exec (.amin d a b z c) s = .next (queue 0x0C n 0) ∧ exec (.amax d a b z c) s = .next (queue 0x0D n 0) ∧
       exec (.aminu d a b z c) s = .next (queue 0x0E n 0) ∧ exec (.amaxu d a b z c) s = .next (queue 0x0F n 0) ∧
       exec (.aswp d a b z c) s = .next (queue 0x13 n 0) ∧ exec (.acas d a b y z c) s = .next (queue 0x14 n (cut y n)) ∧
       (∀ op v p, (queue op n v).byte p = s.byte p)) ∧
     (s.globalAt s.focus va 4 .write false = .ok (pa, x) →
       exec (.afadd d a b c) s = .next (queue 0x10 4 0) ∧ exec (.afmin d a b c) s = .next (queue 0x11 4 0) ∧
       exec (.afmax d a b c) s = .next (queue 0x12 4 0)))) ∧
  (∀ (n old x y : Nat), n = 4 ∨ n = 8 → old < 2 ^ (8 * n) → x < 2 ^ (8 * n) → y < 2 ^ (8 * n) →
     let int (v : Nat) : Int := if v < 2 ^ (8 * n - 1) then v else (v : Int) - 2 ^ (8 * n)
     atomicNew 0x08 n old x y = (old + x) % 2 ^ (8 * n) ∧
     (∀ i, (atomicNew 0x09 n old x y).testBit i = (old.testBit i && x.testBit i)) ∧
     (∀ i, (atomicNew 0x0A n old x y).testBit i = (old.testBit i || x.testBit i)) ∧
     (∀ i, (atomicNew 0x0B n old x y).testBit i = (old.testBit i != x.testBit i)) ∧
     int (atomicNew 0x0C n old x y) = min (int old) (int x) ∧
     int (atomicNew 0x0D n old x y) = max (int old) (int x) ∧
     atomicNew 0x0E n old x y = min old x ∧ atomicNew 0x0F n old x y = max old x ∧
     atomicNew 0x10 n old x y = fAdd fp32 old x ∧ atomicNew 0x11 n old x y = minNum fp32 old x ∧
     atomicNew 0x12 n old x y = maxNum fp32 old x ∧
     atomicNew 0x13 n old x y = x ∧ atomicNew 0x14 n old x y = (if old = x then y else old) ∧
     (∀ op, op < 0x10 ∨ 0x12 < op → atomicReturn op old x = BitVec.ofNat 64 old) ∧
     (∀ op, 0x10 ≤ op → op ≤ 0x12 → (atomicReturn op old x).toNat % 2 ^ 32 = old % 2 ^ 32))

/-- 09 R198; 08 R175, 00 R7: a store at the head of its queue, with nothing holding it, leaves the queue; its bytes,
the lowest first, are at the address of its entry; no other byte of memory changes. 09 R197; 12 R240, R242; 04 R84:
the load at the head of its queue is performed. A plain load of local memory leaves the queue and writes its
destination with the n bytes there, zero- or sign-extended, after which no older bytes of them are read (11 R227); it may
return its bytes as they all stood before one write of its context's own copy commands that the context has not met (11
R231, R235; log 8);
a poisoned location gives the destination a mark with
cause 12 instead, which the next bundle that touches it traps on; an atomic writes its new value to memory, in one
step, and returns the old one. No other byte of memory changes, but for what the answer shows of the host's and other
devices' memory, which changes no byte of local HBM (log 51). 09 R197: a bundle whose word names a marked register
traps with the mark's cause, which clears the mark and the register, and has no effect of its own. Names
STORE_PERFORMED, GLOBAL_LOAD_RESPONSE, ADD, as one reader of its registers. -/
def Obligations.AccessesPerformed : Prop :=
  (∀ (s : State) (g k : Nat) (t : StoreEntry) (more : List StoreEntry),
     let w : Who := ⟨g, k⟩
     let c := s.ctx w
     c.storeQ = t :: more → t.kind = .plain → t.n ≤ 8 → c.storeReady t = true → s.place t.pa = .hbm →
     (c.owner.boot = true ∨ (s.job c.owner.job).palletAt t.va.toNat = none) → s.retired t.pa = false →
     s.snoopingRange t.pa t.n = false → s.sec.diesStopped = false →
     ∃ x, exec (.storePerformed g k) s = .next x ∧
       (∀ i, i < t.n → x.byte (t.pa + i) = BitVec.ofNat 8 (t.data.toNat / 256 ^ i)) ∧
       (∀ a, s.key a < s.key t.pa ∨ s.key t.pa + t.n ≤ s.key a → x.byte a = s.byte a) ∧
       (x.ctx w).storeQ.length ≤ more.length ∧ (∀ n, (x.ctx w).sreg n = c.sreg n) ∧ (∀ h n, x.row h n = s.row h n) ∧
       x.parts = s.parts ∧ x.jobs = s.jobs) ∧
  (∀ (s : State) (g k : Nat) (env : Resp) (l : LoadEntry) (more : List LoadEntry),
     let w : Who := ⟨g, k⟩
     let c := s.ctx w
     let s0 := s.shown env
     let m := s.readMem l.pa l.n
     c.loadQ = l :: more → s.place l.pa = .hbm → (l.n = 1 ∨ l.n = 2 ∨ l.n = 4 ∨ l.n = 8) → l.dst ≠ 0 →
     (c.owner.boot = true ∨ (s.job c.owner.job).palletAt l.va.toNat = none) → s.retired l.pa = false →
     s.snoopingRange l.pa l.n = false → s.sec.diesStopped = false → c.loadReady l = true →
     let extended (v : Nat) : Word := if l.sext then (BitVec.ofNat (8 * l.n) v).signExtend 64 else BitVec.ofNat 64 v
     (∀ a, s.place a = .hbm → s0.byte a = s.byte a) ∧
     (l.kind = .plain → env ≠ .older ∨ l.acquire = true → s.poisonedRange l.pa l.n = false →
       ∃ x, exec (.globalLoadResponse g k env) s = .next x ∧ (x.ctx w).sreg l.dst = extended m ∧
       (∀ n, n ≠ l.dst → (x.ctx w).sreg n = c.sreg n) ∧ x.mem = s0.mem ∧
       (∀ i m, i < l.n → (x.ctx w).past (s.key l.pa + i) m = none)) ∧
     (l.kind = .plain → env = .older → l.acquire = false → s.poisonedRange l.pa l.n = false →
       ∃ x, exec (.globalLoadResponse g k env) s = .next x ∧
       (x.ctx w).sreg l.dst = extended (leNat ((c.past (s.key l.pa) l.n).getD (s.readBytes l.pa l.n))) ∧
       (∀ n, n ≠ l.dst → (x.ctx w).sreg n = c.sreg n) ∧ x.mem = s.mem) ∧
     (l.kind = .plain → s.poisonedRange l.pa l.n = true → ∃ x, exec (.globalLoadResponse g k env) s = .next x ∧
       (∃ f, ⟨false, l.dst, 12, f⟩ ∈ (x.ctx w).marks) ∧ (∀ n, (x.ctx w).sreg n = c.sreg n) ∧ x.mem = s0.mem) ∧
     (∀ op u v t rest, l.kind = .atomic op u v → c.storeQ = t :: rest → t.kind = .mark → t.ord = l.ord →
       s.poisonedRange l.pa l.n = false → ∃ x, exec (.globalLoadResponse g k env) s = .next x ∧
         (x.ctx w).sreg l.dst = atomicReturn op m u.toNat ∧
         x.readMem l.pa l.n = (if op ≠ 0x14 ∨ m = u.toNat then atomicNew op l.n m u.toNat v.toNat else m) % 2 ^ (8 * l.n) ∧
         (∀ a, s.key a < s.key l.pa ∨ s.key l.pa + l.n ≤ s.key a → x.byte a = s0.byte a))) ∧
  (∀ (s : State) (d a b : BitVec 5) (k : Mark), s.canTrap = true → a ≠ 0 → s.here.marks = [k] → k.vec = false →
     k.reg = a.toNat → k.cause ≠ 50 → ∃ x, exec (.add 0 d a b) s = .next x ∧
       x.here.cause = BitVec.ofNat 64 (2 ^ 24 + k.cause) ∧ x.here.taddr = BitVec.ofNat 64 a.toNat ∧ x.here.tpc = s.here.tpcHere ∧
       x.here.priv = true ∧ x.here.marks = [] ∧ x.here.sreg a.toNat = 0 ∧
       (∀ n, n ≠ a.toNat → x.here.sreg n = s.here.sreg n) ∧ x.here.pend = s.here.pend ∧ x.mem = s.mem)

/-- 12 R249 to R254: the version instructions, where the checks of the address pass and it lies in a versioned region. A
VLD or VLDLE that the version unit accepts joins the load queue with the version it reads and its bytes then; a VST
joins the store queue, and a version it creates starts as the one below it with the writer's earlier stores; VPUB, which
a task of an undecided pair holds back (R255), VFLOOR and VDROP act once both queues are empty; VQUERY joins the load
queue with its answer. What the unit refuses traps with the unit's cause; what it does not answer yet waits, a VST for
want of a pool entry with its event (R250). 12 R250 to R254: what the version unit does. A VST that it accepts leaves
the version in the region, unpublished, for its writer, and every other version as it was; a publication makes the
writer's version n of every block published and changes no data, and one that covers no block has no further effect; a
held publication marks those versions, and its release publishes them; raising the floor keeps, of the published
versions below it, the newest of each block, and every version at or above it; a drop leaves exactly the versions below
n; VQUERY's answer holds the newest published version, and in bit 62 whether an unpublished one exists, its own held one
included (the model's choice, log 106). Names VLD,
VLDLE, VST, VPUB, VFLOOR, VDROP, VQUERY. -/
def Obligations.Versions : Prop :=
  (∀ (s x : State) (d a b : BitVec 5) (z : BitVec 2) (r : Region) (pa : Nat), s.clear [d, a, b] [] = true →
     let c := s.here
     let va := c.sreg a.toNat
     let n := 2 ^ z.toNat
     let v := (c.sreg b.toNat).toNat % 2 ^ 48
     let k := r.blockOf va.toNat
     let job := c.owner.job
     let load (kind : LoadKind) (size : Nat) (at_ : Word) (acq : Bool) : State :=
       (x.updCtx s.focus (fun y => { y.supersede (.s d.toNat) with
                                            order := y.order + 1
                                            loadQ := y.loadQ ++ [⟨y.order, kind, d.toNat, size, false, at_, pa, acq, acq⟩] })).advance
     (s.versionAt s.focus va n .read = .ok (r, pa, x) →
       (∀ u, r.vld k v c.task = .accept u → c.loadQ.length < 32 →
         exec (.vld d a b z) s = .next (load (.version u.v (!u.published) u.data u.poison) n (aligned va n) true)) ∧
       (r.vld k v c.task = .wait → exec (.vld d a b z) s = .next s.waits) ∧
       (r.vld k v c.task = .refuse 40 → s.canTrap = true → s.traps (.vld d a b z) { cause := 40, slot := 3, addr := aligned va n }) ∧
       (∀ u, r.vldle k v c.task = .accept u → c.loadQ.length < 32 →
         exec (.vldle d a b z) s = .next (load (.version u.v (!u.published) u.data u.poison) n (aligned va n) true)) ∧
       (r.vldle k v c.task = .refuse 40 → s.canTrap = true →
         s.traps (.vldle d a b z) { cause := 40, slot := 3, addr := aligned va n })) ∧
     (s.versionAt s.focus va n .read = .error Cause.later →
       exec (.vld d a b z) s = .next s.waits ∧ exec (.vldle d a b z) s = .next s.waits) ∧
     (s.versionAt s.focus va n .write = .ok (r, pa, x) →
       let answer := r.vst k v c.task ((x.undecidedPair c).getD []) (c.stored r k)
       (∀ r', answer = .accept r' → c.storeQ.length < 32 → exec (.vst d a b z) s =
         .next ((x.setRegion job r').updCtx s.focus (fun y =>
           { y with order := y.order + 1
                    storeQ := y.storeQ ++ [⟨y.order, .version v, n, aligned va n, pa, c.sreg d.toNat, false⟩] })).advance) ∧
       (answer = .wait → exec (.vst d a b z) s = .next (x.poolEvent job r).waits) ∧
       (∀ e, answer = .refuse e → e ≠ 50 → s.canTrap = true →
         s.traps (.vst d a b z) { cause := e, slot := 3, addr := aligned va n })) ∧
     (s.versionAt s.focus va 1 .write = .ok (r, pa, x) →
       (0 < v → v < r.horizon → c.loadQ = [] → c.storeQ = [] →
         (x.covers job r.base v c.task = true → x.undecidedPair c = none → exec (.vpub a b) s =
           .next ((x.publish job r.base v c.task).updCtx s.focus (fun y => y.notePublished r.base v)).advance) ∧
         (x.covers job r.base v c.task = true → x.undecidedPair c ≠ none → exec (.vpub a b) s =
           .next ((x.updRegion job r.base (fun q => q.holdBack v c.task)).updCtx s.focus (fun y =>
             { y with heldPubs := y.heldPubs ++ [(r.base, v)] })).advance) ∧
         (x.covers job r.base v c.task = false → exec (.vpub a b) s = .next x.advance)) ∧
       (0 < v → v < r.horizon → c.loadQ ≠ [] ∨ c.storeQ ≠ [] → exec (.vpub a b) s = .next s.waits) ∧
       (v = 0 ∨ r.horizon ≤ v → s.canTrap = true → s.traps (.vpub a b) { cause := 39, slot := 3, addr := va })) ∧
     (s.versionAt s.focus va 1 .read = .ok (r, pa, x) →
       (c.loadQ.length < 32 → exec (.vquery d a) s = .next (load (.query (r.query k)) 8 va false)) ∧
       (c.loadQ = [] → c.storeQ = [] →
         exec (.vfloor a b) s = .next (x.setRegion job (r.raise v)).advance ∧
         (0 < v → v < r.horizon → r.floor ≤ v → exec (.vdrop a b) s = .next (x.setRegion job (r.dropFrom v)).advance)) ∧
       (v = 0 ∨ r.horizon ≤ v ∨ v < r.floor → s.canTrap = true →
         s.traps (.vdrop a b) { cause := 39, slot := 3, addr := va }))) ∧
  (∀ (r : Region) (b v t : Nat),
     (∀ r' sib fresh, r.vst b v t sib fresh = .accept r' →
       (∃ y ∈ r'.versions, y.block = b ∧ y.v = v ∧ y.published = false ∧ y.writer = some t) ∧
       (∀ y ∈ r.versions, y ∈ r'.versions) ∧ v ≠ 0 ∧ v < r.horizon ∧ (r.floor ≤ v ∨ (r.own? b v t).isSome = true)) ∧
     (r.covers v t = true ↔ ∃ y ∈ r.versions, y.v = v ∧ y.published = false ∧ y.held = false ∧ y.writer = some t) ∧
     (∀ y ∈ r.versions, y.v = v → y.published = false → y.writer = some t →
       { y with held := true } ∈ (r.holdBack v t).versions ∧
       (y.held = true → { y with published := true, writer := none, held := false } ∈ (r.release v t).versions)) ∧
     ((∀ y ∈ r.versions, y.v < 2 ^ 48) →
       ((r.query b).getLsbD 62 = true ↔ ∃ y ∈ r.versions, y.block = b ∧ y.published = false) ∧
       (∀ y ∈ r.versions, y.block = b → y.published = true → y.v ≤ (r.query b).toNat % 2 ^ 48) ∧
       ((r.query b).toNat % 2 ^ 48 = 0 ∨ ∃ y ∈ r.versions, y.block = b ∧ y.published = true ∧ y.v = (r.query b).toNat % 2 ^ 48)) ∧
     (∀ y ∈ r.versions, y.v = v → y.published = false → y.writer = some t →
       { y with published := true, writer := none } ∈ (r.publish v t).versions) ∧
     (∀ y ∈ r.versions, y.v ≠ v ∨ y.published = true ∨ y.writer ≠ some t → y ∈ (r.publish v t).versions) ∧
     (r.publish v t).versions.map (fun y => (y.block, y.v, y.data)) = r.versions.map (fun y => (y.block, y.v, y.data)) ∧
     (∀ y ∈ r.versions, v ≤ y.v ∨ y.published = false → y ∈ (r.raise v).versions) ∧
     (∀ y ∈ (r.raise v).versions, y ∈ r.versions) ∧
     (r.floor < v → ∀ y ∈ (r.raise v).versions, ∀ u ∈ (r.raise v).versions, y.block = u.block → y.published = true →
       u.published = true → y.v < v → u.v < v → y.v = u.v) ∧
     (∀ y, y ∈ (r.dropFrom v).versions ↔ y ∈ r.versions ∧ y.v < v) ∧
     (r.raise v).floor = max r.floor v ∧ (r.dropFrom v).floor = r.floor)

/-- 09 R200, R202: WAITA passes when the location compares as its form says, after every earlier load, and waits while
it does not; the host's or another device's answer with a fault is its trap; TLOOK returns the lowest entry with the
tag, or all ones; TSET and TCLR write one entry of the core's table. 08 R187; 09 R201: SPILL and FILL. Slot n lies in
row n / 16 of the carve-out, at byte 8(n mod 16): SPILL writes those bytes and no others, FILL reads them after four
steps; beyond the carve-out both go to memory at CTX.OVFP, as a store and a load do, and the value of the latest
redirected SPILL of the slot is what a FILL of it returns. A row that an active command declares is cause 6. Names
WAITA, TLOOK, TSET, TCLR, SPILL, FILL. -/
def Obligations.WaitsTagsSpills : Prop :=
  (∀ (s x : State) (d a b : BitVec 5) (z : BitVec 2) (k : BitVec 1) (pa : Nat), s.clear [d, a, b] [] = true →
     let c := s.here
     let va := c.sreg a.toNat
     let n := 2 ^ z.toNat
     let tags := (s.hold s.focus.core).tags
     let tag : BitVec 54 := (c.sreg a.toNat).setWidth 54
     let put (v : Option (BitVec 54)) : State := (s.updHold s.focus.core (fun h =>
       { h with tags := h.tags.put ((c.sreg a.toNat).toNat % 1024) v })).advance
     (s.globalAt s.focus va n .read true = .ok (pa, x) → s.regionAt c.owner va.toNat = none → c.loadQ = [] →
       s.place pa = .hbm → (c.owner.boot = true ∨ (s.job c.owner.job).palletAt (aligned va n).toNat = none) →
       s.snoopingRange pa n = false → s.retired pa = false → s.poisonedRange pa n = false →
       c.owes (aligned va n).toNat pa n = false →
       let same := s.readMem pa n = (c.sreg b.toNat).toNat % 2 ^ (8 * n)
       let passed := (x.updCtx s.focus (fun y => y.forget (s.key pa) n)).advance
       (k = 1 → (same → exec (.waita b a z k) s = .next passed) ∧ (¬ same → exec (.waita b a z k) s = .next s.waits)) ∧
       (k = 0 → (same → exec (.waita b a z k) s = .next s.waits) ∧
         (¬ same → exec (.waita b a z k) s = .next passed))) ∧
     (s.globalAt s.focus va n .read true = .ok (pa, x) → s.regionAt c.owner va.toNat = none →
       c.loadQ ≠ [] ∨ c.owes (aligned va n).toNat pa n = true → exec (.waita b a z k) s = .next s.waits) ∧
     (∀ e, s.globalAt s.focus va n .read true = .ok (pa, x) → s.regionAt c.owner va.toNat = none → c.loadQ = [] →
       c.owes (aligned va n).toNat pa n = false → (c.owner.boot = true ∨ (s.job c.owner.job).palletAt (aligned va n).toNat = none) → s.unsent c.owner.part pa = false →
       s.blockBusy pa = false → s.poisonedRange pa n = false →
       s.foreign.head? = some (some e) → s.answers pa e = true → s.canTrap = true →
       s.traps (.waita b a z k) { cause := e, slot := 3, addr := aligned va n }) ∧
     (∀ i, i < 1024 → tags.get none i = some tag → (∀ j, j < i → tags.get none j ≠ some tag) →
       exec (.tlook d a) s = .next (s.scalar 3 1 d (BitVec.ofNat 64 i)).advance) ∧
     ((∀ j, j < 1024 → tags.get none j ≠ some tag) →
       exec (.tlook d a) s = .next (s.scalar 3 1 d (BitVec.allOnes 64)).advance) ∧
     exec (.tset a b) s = .next (put (some ((c.sreg b.toNat).setWidth 54))) ∧
     exec (.tclr a) s = .next (put none)) ∧
  (∀ (s x : State) (d : BitVec 5) (k : BitVec 16) (pa : Nat), s.clear [d] [] = true →
     let c := s.here
     let g := s.focus.core
     let r := c.spillFirst + k.toNat / 16
     let i := 8 * (k.toNat % 16)
     let v := c.sreg d.toNat
     let va := (c.ovfp &&& ~~~7#64) + BitVec.ofNat 64 (8 * (k.toNat - 16 * c.spillRows))
     (k.toNat < 16 * c.spillRows → r < 2048 →
       ((s.hold g).phaseClash r true = false →
         ∃ y : State, exec (.spill d k) s = .next y.advance ∧
           (∀ j, j < 128 → (y.row g r).data.toNat / 256 ^ j % 256 =
             if i ≤ j ∧ j < i + 8 then v.toNat / 256 ^ (j - i) % 256
             else if (s.row g r).valid then (s.row g r).data.toNat / 256 ^ j % 256 else 0) ∧
           (∀ n, n ≠ r → y.row g n = s.row g n) ∧ y.mem = s.mem ∧ y.here = s.here) ∧
       ((s.hold g).phaseClash r false = false → (s.row g r).poison = false → exec (.fill d k) s =
         .next (s.scalar 3 4 d (BitVec.ofNat 64 ((s.row g r).data.toNat / 256 ^ i % 2 ^ 64))).advance) ∧
       ((s.hold g).phaseClash r true = true → s.canTrap = true →
         s.traps (.spill d k) { cause := 6, slot := 3, addr := BitVec.ofNat 64 r })) ∧
     (16 * c.spillRows ≤ k.toNat → s.regionAt c.owner va.toNat = none →
       (s.globalAt s.focus va 8 .write false = .ok (pa, x) → c.spec = none → c.storeQ.length < 32 →
         exec (.spill d k) s = .next (x.updCtx s.focus (fun y =>
           { y with order := y.order + 1, spilled := y.spilled.put k.toNat (some v)
                    storeQ := y.storeQ ++ [⟨y.order, .plain, 8, va, pa, v, false⟩] })).advance) ∧
       (s.globalAt s.focus va 8 .read false = .ok (pa, x) → c.loadQ.length < 32 →
         exec (.fill d k) s = .next (x.updCtx s.focus (fun y =>
           { y.supersede (.s d.toNat) with
                    order := y.order + 1
                    loadQ := y.loadQ ++ [⟨y.order, .fill (y.spilled.get none k.toNat), d.toNat, 8, false, va, pa, false, false⟩] })).advance)))

/-- 09 R197, R200, R204; 12 R249; 18 R331; 19 R339, R341: what other parties answer. A remote row access that is
performed leaves its queue and gives its register the row, or a mark with cause 11 or 12, or writes the row's bytes; a
refused store leaves its queue and its cause is held; an access that the host does not complete has cause 35, one whose
snoop gets no response cause 20; WAITA_REREAD offers the bundle again; a walk for a page fills the cluster TLB with its
leaf, once an access of the job there misses it. While the dies are stopped none of them acts (15 R306). With no load
queued, an answer is kept for a read that hardware makes later for a context, after those kept before (the model's
choice, log 51). Names REMOTE_ROW_RESPONSE, STORE_REFUSAL, NO_COMPLETION,
SNOOP_NO_RESPONSE, WAITA_REREAD, TRANSLATION_WALK. -/
def Obligations.QueueAnswers : Prop :=
  ∀ (s : State) (g k : Nat),
    let w : Who := ⟨g, k⟩
    let c := s.ctx w
    let runs := s.sec.diesStopped = false
    (¬ runs → ∀ e j va, exec (.remoteRowResponse g k) s = .next s ∧ exec (.storeRefusal g k e) s = .next s ∧
      exec (.noCompletion g k) s = .next s ∧ exec (.snoopNoResponse g k) s = .next s ∧
      exec (.translationWalk g j va) s = .next s) ∧
    (∀ r more, runs → c.remoteQ = r :: more →
      let cell := s.row r.home r.row
      ∃ x, exec (.remoteRowResponse g k) s = .next x ∧ (x.ctx w).remoteQ = more ∧ x.mem = s.mem ∧
        (r.load = true → r.v < c.allot → cell.valid = true → cell.poison = false → (x.ctx w).vreg r.v = cell.data) ∧
        (r.load = true → r.v < c.allot → cell.valid = false → ⟨true, r.v, 11, none⟩ ∈ (x.ctx w).marks) ∧
        (r.load = true → r.v < c.allot → cell.valid = true → cell.poison = true → ⟨true, r.v, 12, none⟩ ∈ (x.ctx w).marks) ∧
        (r.load = false → x.row r.home r.row = cell.store r.data r.bytes) ∧
        (∀ h n, r.load = true ∨ (h, n) ≠ (r.home, r.row) → x.row h n = s.row h n)) ∧
    (∀ t more e, runs → c.storeQ = t :: more → t.kind = .plain → c.storeReady t = true → c.heldStore = none →
      (c.owner.boot = true ∨ (s.job c.owner.job).palletAt t.va.toNat = none) →
      (s.place t.pa = .remote ∧ (e = 12 ∨ e = 20 ∨ e = 23)) ∨
        (s.place t.pa = .host ∧ (e = 20 ∨ (e = 35 ∧ s.sec.hmode = false))) →
      s.unsent c.owner.part t.pa = false ∨ e = 20 →
      ∃ x, exec (.storeRefusal g k e) s = .next x ∧ (x.ctx w).heldStore = some { cause := e, frame := none } ∧
        (x.ctx w).storeQ.length ≤ more.length ∧ (∀ n, (x.ctx w).sreg n = c.sreg n) ∧ x.mem = s.mem) ∧
    (∀ l more, runs → c.loadQ = l :: more → c.loadReady l = true → l.kind = .plain → l.dst ≠ 0 →
      (c.owner.boot = true ∨ (s.job c.owner.job).palletAt l.va.toNat = none) →
      (s.place l.pa = .host → s.sec.hmode = false → s.hostUp = true → ∃ x, exec (.noCompletion g k) s = .next x ∧ ⟨false, l.dst, 35, none⟩ ∈ (x.ctx w).marks ∧
        (∀ n, (x.ctx w).sreg n = c.sreg n) ∧ x.mem = s.mem) ∧
      (s.snoopingRange l.pa l.n = true → ∃ x, exec (.snoopNoResponse g k) s = .next x ∧
        ⟨false, l.dst, 20, none⟩ ∈ (x.ctx w).marks ∧ (∀ n, (x.ctx w).sreg n = c.sreg n) ∧ x.mem = s.mem)) ∧
    (∀ t more, runs → c.loadQ = [] → c.storeQ = t :: more → t.kind = .plain → c.heldStore = none → s.place t.pa = .host →
      (c.owner.boot = true ∨ (s.job c.owner.job).palletAt t.va.toNat = none) → s.sec.hmode = false → s.hostUp = true →
      ∃ x, exec (.noCompletion g k) s = .next x ∧ (x.ctx w).heldStore = some { cause := 35, frame := none } ∧
        x.mem = s.mem) ∧
    (∀ env, runs → c.loadQ = [] → exec (.globalLoadResponse g k env) s =
      .next { s.shown env with foreign := s.foreign ++ [Resp.cause env] }) ∧
    exec (.waitaReread g k) s = .next (s.updCtx w (fun y => { y with waiting := false })) ∧
    (∀ j va l es, runs → s.jobRuns g j = true → s.missed g j va.toNat = true → s.walk j va = .ok (l, es) →
      ∃ x, exec (.translationWalk g j va) s = .next x ∧ l ∈ (x.cluster g).tlb ∧
        ({ x with clusters := s.clusters, walks := s.walks } : State) = s) ∧
    (∀ j va f, runs → (∀ y ∈ (s.cluster g).tlb, y.covers j (s.job j).part.toNat va.toNat = false) →
      s.walk j va = .error f → exec (.translationWalk g j va) s = .next s)

/-- 14 R287, R293; 22 R375, R380 to R382; 12 R249: the observers. A bound flag's view becomes 1 while its event holds,
and is recorded in record mode; RETSTAT_READ is an SRR of CORE.RETSTAT; LBCTL_ARM arms the half that does not execute
and traps with cause 28 for the other; a record of a view update that is due is consumed once its condition holds, and
a replay whose log is used up goes on in record mode; after VERSION_UNIT_ANSWER the context, whose next bundle holds a
version instruction, waits no longer, so that its core's next cycles offer the bundle (15 R294, R295). Names VIEW_UPDATE, RETSTAT_READ, LBCTL_ARM, REPLAY_CONSUME, VERSION_UNIT_ANSWER. -/
def Obligations.Observers : Prop :=
  ∀ (s : State),
    let w := s.focus
    let g := s.focus.core
    let k := s.focus.slot
    let c := s.here
    (∀ f e i, c.binds.get none f = some (e, i) → f ≠ 0 → f < 16 → c.resident = true → c.stopped = false →
      c.exiting = false → c.inTrap = false → c.flag f = false → s.eventHolds w e i = true → s.coreOff g = false →
      (c.logMode = 0 → ∃ x, exec (.viewUpdate g k f) s = .next x ∧ x.here.flag f = true ∧ x.here.waiting = false ∧
        (∀ n, n ≠ f → x.here.flag n = c.flag n) ∧ x.here.sregs = c.sregs ∧ x.mem = s.mem) ∧
      (c.logMode = 1 → c.logLeft ≠ 0 → s.logWaits w = false → ∃ x, exec (.viewUpdate g k f) s = .next x ∧ x.here.flag f = true ∧
        x.here.logPtr = nextLog c.logPtr ∧ x.here.logLeft = c.logLeft - 1 ∧ x.mem = s.mem)) ∧
    (∀ f e i, c.binds.get none f = some (e, i) → s.eventHolds w e i = false → exec (.viewUpdate g k f) s = .next s) ∧
    (∀ d : BitVec 5, s.clear [d] [] = true → c.logMode = 0 → s.coreOff g = false →
      exec (.retstatRead g k d) s = .next (s.scalar 0 1 d (s.coreReg g 0x103)).advance) ∧
    (∀ (h : Nat) (n : BitVec 9), s.plain = true → s.coreOff g = false →
      (h ≠ c.half → (c.halves.get {} h).claim = none → exec (.lbctlArm g k h n) s = .next (s.updCtx w (fun y =>
        { y with armed := some (h, n), lbHalf := h, lbCount := n })).advance) ∧
      (h = c.half → s.canTrap = true → ∃ x, exec (.lbctlArm g k h n) s = .next x ∧
        s.trapped { cause := 28, slot := 0 } false x = true ∧ s.sameData x = true)) ∧
    (c.resident = true → c.loading = false → c.stopped = false → c.exiting = false → c.gang = none → c.logMode = 2 →
      s.coreOff g = false →
      (c.logLeft = 0 → ∃ x, exec (.replayConsume g k) s = .next x ∧ x.here.logMode = 1 ∧ x.here.sregs = c.sregs ∧
        x.mem = s.mem) ∧
      (∀ l t f e i, c.logLeft ≠ 0 → c.inTrap = false →
        s.fetchBytes (clusterOf g) c.owner c.priv c.logPtr 16 .read = .ok (l, t) →
        (logRec l).kind = 3 → (logRec l).step = c.step % 2 ^ 48 → (logRec l).a = f → f ≠ 0 → f < 16 →
        (logRec l).data % 256 ≤ 63 → e = BitVec.ofNat 6 ((logRec l).data % 256) → i = BitVec.ofNat 8 ((logRec l).data / 256) →
        c.binds.get none f = some (e, i) → c.flag f = false → s.eventHolds w e i = true →
        ∃ x, exec (.replayConsume g k) s = .next x ∧ x.here.flag f = true ∧ x.here.logPtr = nextLog c.logPtr ∧
          x.here.logLeft = c.logLeft - 1 ∧ x.here.logMode = 2 ∧ x.mem = s.mem)) ∧
    (∀ i, c.gang = none → s.offerable w = true → s.coreOff g = false → decodeSlot c.bundle 3 = some i →
      (∃ d a b z n, i ∈ ([.vld d a b z, .vldle d a b z, .vst n a b z, .vpub a b, .vfloor a b, .vdrop a b,
        .vquery d a] : List Instr)) →
      exec (.versionUnitAnswer g k) s = .next (s.updCtx w (fun y => { y with waiting := false })))

/-! ## Vector slot (05_vector_instructions.md, 07_drain_and_bounds.md) -/

/-- 05 R109 to R112: the floating instructions of the V slots, lane by lane, each with its latency; only the active
lanes of vd are written (State.lanes). Names V_FADD, V_FSUB, V_FMUL, V_FMA, V_FMIN, V_FMAX, FABS, FNEG, RCP, RSQRT,
EXP2, LOG2, CVT. -/
def Obligations.VectorFloatResults : Prop :=
  (∀ (s : State) (p t : BitVec 4) (d a b : BitVec 6), s.can p [] [d, a, b] = true → t.toNat ≤ 2 →
    let w := laneWidth t
    let x := s.here.vreg a.toNat
    let y := s.here.vreg b.toNat
    exec (.vFadd p d a b t) s = .next (s.lanes 5 w d (map2 w (fAdd (fmtOf t)) x y)).advance ∧
    exec (.vFsub p d a b t) s = .next (s.lanes 5 w d (map2 w (fSub (fmtOf t)) x y)).advance ∧
    exec (.vFmul p d a b t) s = .next (s.lanes 5 w d (map2 w (fMul (fmtOf t)) x y)).advance ∧
    exec (.vFma p d a b t) s = .next (s.lanes 5 w d (map3 w (fMulAdd (fmtOf t)) x y (s.here.vreg d.toNat))).advance ∧
    exec (.vFmin p d a b t) s = .next (s.lanes 1 w d (map2 w (minNum (fmtOf t)) x y)).advance ∧
    exec (.vFmax p d a b t) s = .next (s.lanes 1 w d (map2 w (maxNum (fmtOf t)) x y)).advance ∧
    exec (.fabs p d a t) s = .next (s.lanes 1 w d (map1 w (fAbs (fmtOf t)) x)).advance ∧
    exec (.fneg p d a t) s = .next (s.lanes 1 w d (map1 w (fNeg (fmtOf t)) x)).advance) ∧
  (∀ (s : State) (p : BitVec 4) (d a : BitVec 6), s.can p [] [d, a] = true →
    let x := s.here.vreg a.toNat
    exec (.rcp p d a) s = .next (s.lanes 12 32 d (map1 32 (fun v => roundNE (exactRcp (fp32.read v)) fp32) x)).advance ∧
    exec (.rsqrt p d a) s =
      .next (s.lanes 12 32 d (map1 32 (fun v => roundNE (exactRsqrt (fp32.read v)) fp32) x)).advance ∧
    exec (.exp2 p d a) s = .next (s.lanes 12 32 d (map1 32 (fun v => roundNE (exactExp2 (fp32.read v)) fp32) x)).advance ∧
    exec (.log2 p d a) s = .next (s.lanes 12 32 d (map1 32 (fun v => roundNE (exactLog2 (fp32.read v)) fp32) x)).advance) ∧
  (∀ (s : State) (p st t : BitVec 4) (d a : BitVec 6) (h : BitVec 1), s.can p [] [d, a] = true → isCvt t st = true →
    exec (.cvt p d a h st t) s = .next (s.result 4 (if t.toNat ≤ 2 then 5 else 1) (.v d.toNat)
      (cvtResult t st h (s.here.vreg a.toNat)) (cvtBits st h s.here.top)).advance)

/-- 05 R113, R114: the integer instructions of the V slots, lane by lane at the width of the type. Names V_ADD, V_SUB,
V_MUL, V_MIN, V_MAX, V_AND, V_OR, V_XOR, V_SHL, V_SHR, V_SAR, V_SHLI, V_SHRI, V_SARI, V_FSHL, V_FSHR. -/
def Obligations.VectorIntegerResults : Prop :=
  ∀ (s : State) (p t : BitVec 4) (d a b i : BitVec 6), s.can p [] [d, a, b] = true → 3 ≤ t.toNat → t.toNat ≤ 8 →
    let w := laneWidth t
    let x := s.here.vreg a.toNat
    let y := s.here.vreg b.toNat
    let z := s.here.vreg d.toNat
    exec (.vAdd p d a b t) s = .next (s.lanes 1 w d (map2 w (fun m n => (m + n) % 2 ^ w) x y)).advance ∧
    exec (.vSub p d a b t) s = .next (s.lanes 1 w d (map2 w (fun m n => (m + 2 ^ w - n) % 2 ^ w) x y)).advance ∧
    exec (.vMul p d a b t) s = .next (s.lanes 1 w d (map2 w (fun m n => m * n % 2 ^ w) x y)).advance ∧
    exec (.vMin p d a b t) s =
      .next (s.lanes 1 w d (map2 w (fun m n => if laneVal t m ≤ laneVal t n then m else n) x y)).advance ∧
    exec (.vMax p d a b t) s =
      .next (s.lanes 1 w d (map2 w (fun m n => if laneVal t n ≤ laneVal t m then m else n) x y)).advance ∧
    exec (.vAnd p d a b t) s = .next (s.lanes 1 w d (map2 w (fun m n => m &&& n) x y)).advance ∧
    exec (.vOr p d a b t) s = .next (s.lanes 1 w d (map2 w (fun m n => m ||| n) x y)).advance ∧
    exec (.vXor p d a b t) s = .next (s.lanes 1 w d (map2 w (fun m n => m ^^^ n) x y)).advance ∧
    exec (.vShl p d a b t) s = .next (s.lanes 1 w d (map2 w (fun m n => m * 2 ^ (n % w) % 2 ^ w) x y)).advance ∧
    exec (.vShr p d a b t) s = .next (s.lanes 1 w d (map2 w (fun m n => m / 2 ^ (n % w)) x y)).advance ∧
    exec (.vSar p d a b t) s =
      .next (s.lanes 1 w d (map2 w (fun m n => toLane w (laneInt w m / 2 ^ (n % w))) x y)).advance ∧
    exec (.vFshl p d a b t) s =
      .next (s.lanes 1 w d (map3 w (fun m n k => (m * 2 ^ w + n) * 2 ^ (k % w) / 2 ^ w % 2 ^ w) x y z)).advance ∧
    exec (.vFshr p d a b t) s =
      .next (s.lanes 1 w d (map3 w (fun m n k => (m * 2 ^ w + n) / 2 ^ (k % w) % 2 ^ w) x y z)).advance ∧
    (i.toNat < w →
      exec (.vShli p d a i t) s = .next (s.lanes 1 w d (map1 w (fun m => m * 2 ^ i.toNat % 2 ^ w) x)).advance ∧
      exec (.vShri p d a i t) s = .next (s.lanes 1 w d (map1 w (fun m => m / 2 ^ i.toNat) x)).advance ∧
      exec (.vSari p d a i t) s =
        .next (s.lanes 1 w d (map1 w (fun m => toLane w (laneInt w m / 2 ^ i.toNat)) x)).advance)

/-- 05 R115 to R119: selects, moves, reductions and scans. SEL writes every lane, from va where the mask is set and
from vb elsewhere; ROTM writes every byte. Names V_SEL, BCAST, PERM, ROTM, RED, SCAN. -/
def Obligations.VectorMoves : Prop :=
  ∀ (s : State) (p t : BitVec 4) (d a b i : BitVec 6) (n : BitVec 7) (l k : BitVec 3),
    s.can p [] [d, a, b] = true → t.toNat ≤ 8 →
    let w := laneWidth t
    let x := s.here.vreg a.toNat
    let y := s.here.vreg b.toNat
    let bits := laneBits w s.here.top
    exec (.vSel p d a b t) s = .next (s.result 4 1 (.v d.toNat) ((x &&& bits) ||| (y &&& ~~~bits)) allOnes).advance ∧
    exec (.perm p d a b t) s =
      .next (s.lanes 1 w d (ofLanes w ((Sys2Proof.Machine.lanes w y).map (fun j => lane w x (j % (1024 / w)))))).advance ∧
    (i.toNat < 1024 / w →
      exec (.bcast p d a i t) s = .next (s.lanes 1 w d (ofLanes w (List.replicate (1024 / w) (lane w x i.toNat)))).advance) ∧
    exec (.rotm p d a n) s = .next (s.result 4 1 (.v d.toNat)
      (BitVec.ofNat 1024 (((s.here.vreg d.toNat).toNat + x.toNat * 2 ^ 1024) / 2 ^ (8 * n.toNat))) allOnes).advance ∧
    (1 ≤ l.toNat → l.toNat ≤ 6 → 2 ^ l.toNat ≤ laneCount t →
      (k.toNat ≤ 2 → exec (.red p d a l k t) s = .next (s.lanes 6 w d (redResult k l t s.here.top x)).advance) ∧
      (k.toNat ≤ 1 → exec (.scan p d a l k t) s = .next (s.lanes 6 w d (scanResult k l t s.here.top x)).advance))

/-- 05 R108: the mask stack. CMPM replaces the top by the parent and the condition, MPUSH pushes the top and the
condition, MINV takes the lanes of the parent that the top leaves out, MPOP drops the top. 05 R108: MPUSH on a full
stack and MPOP on its last entry trap with cause 32. Names CMPM, MPUSH, MINV, MPOP. -/
def Obligations.MaskStack : Prop :=
  (∀ (s : State) (p c t : BitVec 4) (a b : BitVec 6), s.can p [] [a, b] = true →
     let m := s.here.mask
     let cond := condMask c t (s.here.vreg a.toNat) (s.here.vreg b.toNat)
     let set (l : List Word) : State := s.setCtx s.focus { s.here with mask := l }
     (isLaneCond c t = true →
       exec (.cmpm p c a b t) s = .next (set ((s.here.parent &&& cond) :: m.tail)).advance ∧
       (m.length < 16 → exec (.mpush p c a b t) s = .next (set ((s.here.top &&& cond) :: m)).advance)) ∧
     exec (.minv p) s = .next (set ((s.here.parent &&& ~~~s.here.top) :: m.tail)).advance ∧
     (1 < m.length → exec (.mpop p) s = .next (set m.tail).advance)) ∧
  (∀ (s : State) (p c t : BitVec 4) (a b : BitVec 6), s.can p [] [a, b] = true → s.canTrap = true →
     (isLaneCond c t = true → 16 ≤ s.here.mask.length → s.traps (.mpush p c a b t) { cause := 32, slot := 4 }) ∧
     (s.here.mask.length ≤ 1 → s.traps (.mpop p) { cause := 32, slot := 4 }))

/-- 05 R125 to R129: a draw uses the context's key, stream and draw counter, lane by lane, writes the active lanes and
advances the counter by one. Names RNDB, RNDF, RNDI, SAMPC. -/
def Obligations.Draws : Prop :=
  ∀ (s : State) (p t : BitVec 4) (d a : BitVec 6) (r : BitVec 5), s.can p [r] [d, a] = true →
    let count (x : State) : State := x.updCtx s.focus (fun c => { c with drawCnt := c.drawCnt + 1 })
    let draw (j : Nat) : Nat :=
      (Sys2Proof.Machine.draw s.here.key s.here.stream s.here.drawCnt (BitVec.ofNat 32 j)).toNat
    exec (.rndb p d) s =
      .next (count (s.lanes 4 16 d (ofLanes 16 ((List.range 64).map (fun j => draw j % 2 ^ 16))))).advance ∧
    (t.toNat ≤ 2 → exec (.rndf p d t) s = .next (count (s.lanes 4 (laneWidth t) d (ofLanes (laneWidth t)
      ((List.range (1024 / laneWidth t)).map (fun j => roundNE
        (.num false (draw j % 2 ^ (if t = 0 then 24 else if t = 1 then 11 else 8))
          (-((if t = 0 then 24 else if t = 1 then 11 else 8 : Nat) : Int))) (fmtOf t)))))).advance) ∧
    (t.toNat = 7 ∨ t.toNat = 8 → exec (.rndi p d r t) s = .next (count (s.lanes 4 (laneWidth t) d
      (ofLanes (laneWidth t) ((List.range (1024 / laneWidth t)).map (fun j =>
        draw j % 2 ^ 64 * ((s.here.sreg r.toNat).toNat % 2 ^ laneWidth t) / 2 ^ 64))))).advance) ∧
    exec (.sampc p d a) s = .next (count (s.lanes 12 32 d (ofLanes 32 (List.replicate 32
      (sampleIndex (maskedLanes 32 s.here.top 0 (s.here.vreg a.toNat)) (draw 0 % 2 ^ 24)))))).advance

/-- 05 R120, 07 R163: CHKB counts the active lanes below the bound register's lower value, above its upper one, or not
a number. With policy flag vd takes va; with policy clamp it takes va with those lanes replaced; with policy trap any
such lane traps with cause 10, the bound register and the lowest lane in the address. Names CHKB. -/
def Obligations.Bounds : Prop :=
  ∀ (s : State) (p g t : BitVec 4) (d a : BitVec 6), s.can p [] [d, a] = true → t.toNat ≤ 4 →
    let w := laneWidth t
    let b := (s.hold s.focus.core).bounds.get {} g.toNat
    let low := fp32.read b.low.toNat
    let high := fp32.read b.high.toNat
    let x := s.here.vreg a.toNat
    let bad := (List.range (1024 / w)).filter (fun j => s.here.top.getLsbD j &&
      violates low high (laneFV t (lane w x j)))
    let count (y : State) : State := y.updHold s.focus.core
      (fun h => { h with bounds := h.bounds.put g.toNat (b.addCount bad.length) })
    (b.pol = 0 → exec (.chkb p d a g t) s = .next (count (s.lanes 1 w d x)).advance) ∧
    (b.pol = 1 → exec (.chkb p d a g t) s = .next (count (s.lanes 1 w d (map1 w (clampLane t low high) x))).advance) ∧
    (b.pol = 2 → bad = [] → exec (.chkb p d a g t) s = .next (count (s.lanes 1 w d x)).advance) ∧
    (b.pol = 2 → bad ≠ [] → s.canTrap = true → s.traps (.chkb p d a g t)
      { cause := 10, slot := 4, addr := BitVec.ofNat 64 (g.toNat + 256 * bad.headD 0) })

/-! ## Segments, traps, system registers and tasks (13, 14, 21) -/

/-- 14 R292, R281: SJMP, when its flag differs from the sense bit, enters bundle 0 of the segment at sa, held ready in
the half that does not execute; every course ends, an armed half is disarmed, the segment's engine image is written (02
R52), and neither registers nor memory change. With address 0 it enters the armed half; with none armed it traps with
cause 28. 14 R275, 02 R51, 21 R363: what follows a segment's last bundle. With a next segment, held ready in the half
that does not execute, its bundle 0; with none, a trap with cause 29 that is taken after the bundle. Names SJMP, NOP. -/
def Obligations.Segments : Prop :=
  (∀ (s : State) (n : BitVec 1) (f : BitVec 4) (a : BitVec 5),
     s.alive = true → s.here.freeS a.toNat = true → s.here.flag f.toNat ≠ n.getLsbD 0 → s.here.pend = [] →
     let va := s.here.sreg a.toNat
     let h := s.here.otherHalf
     (va >>> 5 ≠ 0 → h.valid = true → h.addr = segmentBase va → h.claim = none →
       s.here.priv = true ∨ h.priv = false → s.imageClash s.focus h = false →
       ∃ x, exec (.sjmp n f a) s = .next x ∧ x.here.half = 1 - s.here.half ∧ x.here.index = 0 ∧
         x.here.execHalf.addr = segmentBase va ∧ x.here.execHalf.bundles = h.bundles ∧ x.here.armed = none ∧
         (∀ k, (x.here.course k).active = false) ∧ x.here.sregs = s.here.sregs ∧ x.here.vregs = s.here.vregs ∧
         x.here.flags = s.here.flags ∧ x.here.mask = s.here.mask ∧ x.mem = s.mem ∧
         ∀ j, j < h.image.length → x.row s.focus.core (h.imageRow + j) = { data := h.image.getD j 0 }) ∧
     (∀ k m, va >>> 5 = 0 → s.here.armed = some (k, m) → k = 1 - s.here.half → k ≠ s.here.half →
       ∃ x, exec (.sjmp n f a) s = .next x ∧ x.here.half = k ∧ x.here.index = 0 ∧ x.here.execHalf.addr = 0 ∧
         x.here.execHalf.next = 0 ∧ x.here.execHalf.count = m.toNat + 1 ∧ x.here.execHalf.bundles = h.bundles ∧
         x.here.armed = none ∧ x.here.sregs = s.here.sregs ∧ x.mem = s.mem) ∧
     (va >>> 5 = 0 → s.here.armed = none → s.canTrap = true →
       s.traps (.sjmp n f a) { cause := 28, slot := 0, addr := 0 })) ∧
  (∀ (s : State), s.alive = true → s.here.index + 1 = s.here.execHalf.count →
     s.here.endingCourses s.here.index = [] → s.here.pend = [] →
     let n := s.here.execHalf.next
     let h := s.here.otherHalf
     (n >>> 5 ≠ 0 → h.valid = true → h.addr = segmentBase n → h.claim = none →
       s.here.priv = true ∨ h.priv = false → s.imageClash s.focus h = false →
       ∃ x, exec .nop s = .next x ∧ x.here.index = 0 ∧ x.here.half = 1 - s.here.half ∧
         x.here.execHalf.addr = segmentBase n ∧ x.here.sregs = s.here.sregs ∧ x.mem = s.mem ∧
         ∀ j, j < h.image.length → x.row s.focus.core (h.imageRow + j) = { data := h.image.getD j 0 }) ∧
     (n >>> 5 = 0 → s.canTrap = true → ∃ x, exec .nop s = .next x ∧ x.here.cause = BitVec.ofNat 64 (2 ^ 27 + 29) ∧
       x.here.tpc = tpcWord s.here.execHalf.addr s.here.half s.here.execHalf.count ∧ x.here.priv = true ∧
       x.here.index = 0 ∧ x.mem = s.mem))

/-- 21 R360, R363: TRAP takes its trap after its bundle: the cause word holds 47, the code and the after bit, CTX.TPC
the next bundle, the courses are saved, and the context is privileged, at bundle 0 of the handler's segment.
Registers, flags, mask and memory are as before. 21 R361, R362: ERET in a handler, with the interrupted segment in the
half that does not execute, resumes the program: the bundle and half of CTX.TPC, the saved courses, user mode, and the
program's own step count. Registers, mask and memory are as before, and so are the flags bound to no event: a view
update that fell due meanwhile comes then (R361), shown where none is to be recorded. While a load or a remote row is on
its way it waits: R362 speaks of the handler's results, and that any load counts is the model's choice (log 17). 02 R33, R34; 21 Table 21.1: a word that is not an instruction traps with cause 24; a privileged form in user
mode traps with cause 25; neither has any other effect. Names TRAP, ERET, ERET, HALT, SRR, SRW. -/
def Obligations.Traps : Prop :=
  (∀ (s : State) (c : BitVec 8), s.plain = true → s.canTrap = true → s.here.inTrap = false →
     ∃ x, exec (.trap c) s = .next x ∧
     x.here.cause = BitVec.ofNat 64 (2 ^ 27 + c.toNat * 2 ^ 16 + 47) ∧
     x.here.tpc = tpcWord s.here.execHalf.addr s.here.half (s.here.index + 1) ∧ x.here.taddr = 0 ∧
     x.here.savedCourses = s.here.courses ∧ x.here.priv = true ∧ x.here.inTrap = true ∧ x.here.handlerStep = 0 ∧
     x.here.index = 0 ∧ x.here.half = 1 - s.here.half ∧ x.here.step = s.here.step + 1 ∧
     x.here.execHalf.addr = segmentBase ((s.hold s.focus.core).tvec &&& 0x00FFFFFFFFFFFFE0#64) ∧
     x.here.sregs = s.here.sregs ∧ x.here.vregs = s.here.vregs ∧ x.here.flags = s.here.flags ∧
     x.here.mask = s.here.mask ∧ x.mem = s.mem) ∧
  (∀ (s : State), s.alive = true → s.here.priv = true → s.here.inTrap = true → s.here.pend = [] →
     let v := s.here.tpc
     let h := s.here.otherHalf
     let addr : Word := BitVec.ofNat 64 (v.toNat / 2 ^ 10 % 2 ^ 51 * 32)
     let index := v.toNat % 2 ^ 10
     (s.here.loadQ = [] → s.here.remoteQ = [] → s.here.logMode = 0 ∨ (∀ f, s.here.binds.get none f = none) → addr ≠ 0 → h.valid = true → h.addr = addr → h.claim = none →
       index < h.count →
       ∃ x, exec .eret s = .next x ∧ x.here.priv = false ∧ x.here.inTrap = false ∧ x.here.courses = s.here.savedCourses ∧
         x.here.index = index ∧ x.here.half = 1 - s.here.half ∧ x.here.execHalf.addr = addr ∧ x.here.step = s.here.step ∧
         x.here.sregs = s.here.sregs ∧ x.here.vregs = s.here.vregs ∧
         (∀ f, s.here.binds.get none f = none → x.here.flag f = s.here.flag f) ∧
         x.here.mask = s.here.mask ∧ x.mem = s.mem) ∧
     (s.plain = true → s.here.loadQ ≠ [] ∨ s.here.remoteQ ≠ [] → exec .eret s = .next s.waits)) ∧
  (∀ (s : State) (i : Instr) (k : Nat) (d : BitVec 5) (n : BitVec 12), s.canTrap = true →
     (homeSlot i = some k → i.wf = false → s.traps i { cause := 24, slot := k }) ∧
     s.traps .eret { cause := 25, slot := 0 } ∧ s.traps .halt { cause := 25, slot := 0 } ∧
     (privSys.contains n.toNat = true → s.traps (.srr d n) { cause := 25, slot := 0 } ∧
       s.traps (.srw d n) { cause := 25, slot := 0 }))

/-- 21 R374, Table 21.10: SRR reads a system register after one step, SRW writes one at issue; the registers of
privileged mode need it. CTX.MDRAW waits for the context's matrix commands; CORE.RETSTAT is an observer. 00 R9, Table
0.2; 21 Table 21.10: what a context's system registers hold, what a write of one leaves in it, and that it leaves
every other as it was. Names SRR, SRW. -/
def Obligations.SystemRegisters : Prop :=
  (∀ (s : State) (d : BitVec 5) (n : BitVec 12), s.clear [d] [] = true →
     userSys.contains n.toNat = true ∨ (privSys.contains n.toNat = true ∧ s.here.priv = true) →
     let w := s.focus
     let v := s.here.sreg d.toNat
     (n ≠ 0x006 → n ≠ 0x103 → n.toNat < 0x100 →
       exec (.srr d n) s = .next (s.scalar 0 1 d (s.here.sysReg n.toNat)).advance) ∧
     (n ≠ 0x103 → 0x100 ≤ n.toNat → exec (.srr d n) s = .next (s.scalar 0 1 d (s.coreReg w.core n.toNat)).advance) ∧
     (n = 0x103 → s.here.logMode = 0 →
       exec (.srr d n) s = .next (s.scalar 0 1 d (s.coreReg w.core 0x103)).advance) ∧
     (n = 0x006 → s.mdrawBusy w = false →
       exec (.srr d n) s = .next (s.scalar 0 1 d s.here.mdraw).advance ∧
       exec (.srw d n) s = .next (s.updCtx w (fun c => { c with mdraw := v })).advance) ∧
     (n = 0x006 → s.mdrawBusy w = true → exec (.srr d n) s = .next s.waits ∧ exec (.srw d n) s = .next s.waits) ∧
     (n = 0x00B → v.getLsbD 63 = false → exec (.srw d n) s = .next (s.updCtx w (fun c =>
       { c with armed := none, lbHalf := v.toNat / 2 ^ 9 % 2, lbCount := v.setWidth 9 })).advance) ∧
     (n = 0x00B → v.getLsbD 63 = true → v.toNat / 2 ^ 9 % 2 ≠ s.here.half →
       (s.here.halves.get {} (v.toNat / 2 ^ 9 % 2)).claim = none → exec (.srw d n) s = .next (s.updCtx w (fun c =>
         { c with armed := some (v.toNat / 2 ^ 9 % 2, v.setWidth 9), lbHalf := v.toNat / 2 ^ 9 % 2
                  lbCount := v.setWidth 9 })).advance) ∧
     (n = 0x102 → s.groupOwned w.core (v.toNat % 512) = true → (s.hold w.core).groupDeclared (v.toNat % 512) = false →
       exec (.srw d n) s =
         .next (s.gctl w.core (v.toNat % 512) (v.getLsbD 15) (v.getLsbD 14) ((v >>> 11).setWidth 3)).advance) ∧
     (n ≠ 0x006 → n ≠ 0x00B → n.toNat < 0x100 →
       exec (.srw d n) s = .next (s.updCtx w (fun c => c.setSysReg n.toNat v)).advance) ∧
     (n ≠ 0x102 → 0x100 ≤ n.toNat → exec (.srw d n) s = .next (s.setCoreReg w.core n.toNat v).advance)) ∧
  (∀ (c : Ctx) (v : Word),
     c.sysReg 0x001 = c.key.setWidth 64 ∧ c.sysReg 0x002 = (c.key >>> 64).setWidth 64 ∧ c.sysReg 0x003 = c.stream ∧
     c.sysReg 0x004 = c.drawCnt ∧ c.sysReg 0x005 = c.spawnIx.setWidth 64 ∧ c.sysReg 0x006 = c.mdraw ∧
     c.sysReg 0x007 = c.mseq.setWidth 64 ∧ c.sysReg 0x008 = c.cseq.setWidth 64 ∧ c.sysReg 0x00A = c.ovfp ∧
     c.sysReg 0x01A = c.logPtr ∧ c.sysReg 0x020 = c.cause ∧ c.sysReg 0x021 = c.tpc ∧ c.sysReg 0x022 = c.taddr ∧
     c.sysReg 0x024 = c.scr0 ∧ c.sysReg 0x025 = c.scr1 ∧
     (∀ k, k < 6 → c.sysReg (0x010 + k) = (c.course k).trip ++ (c.course k).index) ∧
     (∀ n ∈ [0x001, 0x002, 0x003, 0x004, 0x006, 0x024, 0x025], (c.setSysReg n v).sysReg n = v) ∧
     (c.setSysReg 0x005 v).sysReg 0x005 = (v.setWidth 32).setWidth 64 ∧
     (c.setSysReg 0x00A v).sysReg 0x00A = v &&& ~~~7#64 ∧
     (c.setSysReg 0x01A v).sysReg 0x01A = v &&& 0x00FFFFFFFFFFFFF0#64 ∧
     (c.setSysReg 0x021 v).sysReg 0x021 = v &&& 0x3FFFFFFFFFFFFFFF#64 ∧
     (c.setSysReg 0x01B v).logLeft = (v >>> 16).setWidth 24 ∧ (c.setSysReg 0x01B v).logOvf = v.getLsbD 2 ∧
     (c.setSysReg 0x01B v).logCap = c.logCap ∧
     (c.setSysReg 0x01B v).logMode = (if v.setWidth 2 = 3#2 then c.logMode else v.setWidth 2) ∧
     (∀ n ∈ [0x007, 0x008, 0x009, 0x010, 0x011, 0x012, 0x013, 0x014, 0x015, 0x020, 0x022], c.setSysReg n v = c) ∧
     (∀ n m, n < 0x100 → m < 0x100 → n ≠ m → (c.setSysReg n v).sysReg m = c.sysReg m))

/-- 13 R267 to R273: SPAWN, whose record is read once no load, no MARK and no store into the record is queued (log 92),
enqueues the record's entries under a split stream and counts the launch, and waits until then; SPAWNS launches a
pair and returns its handle; DECIDE settles one: a context of its loser stops, and its slot is free at once if every
access that it issued has been performed, and otherwise once they have (the model's choice, log 57); no register and no
byte of memory changes. EXIT, with nothing of the context's left to end and no bond lent
out, retires it: its slot becomes free, the core selects next, and no byte of memory changes; with a bond lent out it squashes its pairs, releases what it has borrowed (08 R194) and waits; with
something left to end it waits; a held cause of a ringless copy, and then of a refused store, is its trap. SPAWN, SPAWNS
and DECIDE of a speculative task trap with cause 43. Names SPAWN, SPAWNS, DECIDE, EXIT. -/
def Obligations.Tasks : Prop :=
  ∀ (s : State) (d a b : BitVec 5) (r : BitVec 2), s.clear [d, a, b] [] = true →
    let c := s.here
    let w := s.focus
    let x := c.sreg a.toNat
    let y := c.sreg b.toNat
    (∀ l t, c.spec = none → s.readLaunch w x = .good l t → t.queuesTake [l] = true →
      exec (.spawn a r) s = .next (((t.insertRecord c.owner l r.toNat c.key (splitStream c.key c.stream c.spawnIx)
        c.logMode none).updCtx w (fun z => { z with spawnIx := z.spawnIx + 1 })).selectSoon l).advance) ∧
    (c.spec = none → s.readLaunch w x = .wait → exec (.spawn a r) s = .next s.waits) ∧
    (∀ pa t, s.translate (clusterOf w.core) c.owner c.priv (aligned x 128) .fetch = .ok (pa, t) →
      t.placeCause c.owner (aligned x 128) pa .fetch false = none →
      c.loadQ ≠ [] ∨ (∃ e ∈ c.storeQ, e.kind ≠ .plain ∨ rangesMeet e.pa e.n pa 128 = true) → s.readLaunch w x = .wait) ∧
    (∀ la lb t u, c.spec = none → c.pairs.length < 8 → s.readLaunch w x = .good la t → t.readLaunch w y = .good lb u →
      u.queuesTake [la, lb] = true →
      let n := c.spawnIx
      let one := u.insertRecord c.owner la r.toNat c.key (splitStream c.key c.stream n) c.logMode
        (some { parent := c.task, index := n, side := false, pair := u.nextTask })
      let two := one.insertRecord c.owner lb r.toNat c.key (splitStream c.key c.stream (n + 1)) c.logMode
        (some { parent := c.task, index := n, side := true, pair := u.nextTask })
      let paired := two.updCtx w (fun z => { z with spawnIx := n + 2
                                                    pairs := z.pairs ++ [⟨n, u.nextTask, u.tasksNext la, one.tasksNext lb⟩] })
      exec (.spawns d a b r) s =
        .next (((paired.scalar 0 1 d (BitVec.ofNat 64 (2 ^ 63 + n.toNat))).selectSoon lb).selectSoon la).advance) ∧
    (∀ p, c.spec = none → x.getLsbD 63 = true → x.toNat / 2 ^ 32 % 2 ^ 31 = 0 → y.toNat ≤ 1 →
      c.pairs.find? (fun q => decide (q.index = x.setWidth 32)) = some p → c.task ∉ p.a ++ p.b →
      let loser := if y = 0 then p.b else p.a
      ∃ t, exec (.decide a b) s = .next t ∧ t.here.pairs = c.pairs.filter (fun q => !decide (q.uid = p.uid)) ∧
        (∀ q ∈ loser, ∀ v ∈ s.taskContexts q (s.coresFor c.owner),
          ((s.ctx v).loadQ = [] → (s.ctx v).storeQ = [] → (s.ctx v).remoteQ = [] → (t.ctx v).resident = false) ∧
          ((s.ctx v).loadQ ≠ [] ∨ (s.ctx v).storeQ ≠ [] ∨ (s.ctx v).remoteQ ≠ [] →
            (t.ctx v).resident = true ∧ (t.ctx v).stopped = true ∧ (t.ctx v).squashed = true ∧
            (t.ctx v).loadQ = (s.ctx v).loadQ ∧ (t.ctx v).storeQ = (s.ctx v).storeQ ∧
            (t.ctx v).remoteQ = (s.ctx v).remoteQ)) ∧
        (∀ n, t.here.sreg n = (s.advance).here.sreg n) ∧ t.mem = s.mem) ∧
    (s.commandsLeft w = false → c.loadQ = [] → c.storeQ = [] → c.remoteQ = [] → (s.hold w.core).restoring = false →
      (∀ p ∈ c.pairs, c.task ∉ p.a ++ p.b) →
      (c.ringless = none → c.heldStore = none → s.lendsBeyond w [] = false →
        ∃ t, exec .exit s = .next t ∧ (t.ctx w).resident = false ∧
          t.agenda.head? = some (.event (.launchBind w.core)) ∧ t.mem = s.mem) ∧
      (c.ringless = none → c.heldStore = none → s.lendsBeyond w [w] = true →
        ∃ t, exec .exit s = .next t ∧ (t.ctx w).resident = true ∧ (t.ctx w).exiting = false ∧ (t.ctx w).pairs = [] ∧
          (t.ctx w).index = c.index ∧ (t.ctx w).step = c.step ∧ (∀ j, ((t.ctx w).handle j).st ≠ .borrowed ∨ 16 ≤ j) ∧
          t.mem = s.mem) ∧
      (∀ h, c.ringless = some h → h.cause ≠ 50 → s.canTrap = true → ∃ t, exec .exit s = .next t ∧
        s.trapped { cause := h.cause, sub := h.cause, slot := 0, addr := h.addr } false t = true ∧ t.here.ringless = none ∧
        t.mem = s.mem) ∧
      (∀ h, c.ringless = none → c.heldStore = some h → s.canTrap = true →
        s.traps .exit { cause := 34, sub := h.cause, slot := 0 })) ∧
    (c.loadQ ≠ [] ∨ c.storeQ ≠ [] ∨ c.remoteQ ≠ [] ∨ s.commandsLeft w = true → exec .exit s = .next s.waits) ∧
    (c.spec ≠ none → s.canTrap = true → s.traps (.spawn a r) { cause := 43, slot := 0 } ∧
      s.traps (.spawns d a b r) { cause := 43, slot := 0 } ∧ s.traps (.decide a b) { cause := 43, slot := 0 })

/-! ## Rows, rings and bonds (09_memory_instructions.md, 08_memory_spaces.md) -/

/-- 09 R203, R204, R207, R209: which row of its own core each form names, when the checks of the access pass: row sa +
imm; row imm of a ring's read slot; the generator's row, which then advances; row sa of a bond of this core. A VLDR's
value is due four steps later. A row of a bond whose home is another core is read or written there: the access joins the
context's remote accesses, a load as the last writer of its register (log 75). A generator that holds no pattern or is
past its end traps with cause 33. 09 R203, R204; 08 Table 8.7; 02 R46: a VSTR replaces the bytes that its mask enables
(all of them with sm 0, else bit j of s(sm+1):s(sm) for byte j) of the row its form names, at issue; the row becomes
valid, and the bytes it does not enable of an invalid row become 0. No other row and no byte of global memory changes.
09 R203, R211; 08 R191, Table 8.7: when an access by row number passes its checks: the row is the core's (else cause
7), no other context's bond covers it (else 9), no active command declares it (else 6), and, for a load, it is valid
(else 11) and carries no poison (else 12); CTX.TADDR is the row. Names VLDR_ROW, VLDR_RING, VLDR_GENERATOR, VLDR_BOND,
VSTR_ROW, VSTR_RING, VSTR_GENERATOR, VSTR_BOND, VLDR_ROW, VSTR_ROW. -/
def Obligations.Rows : Prop :=
  (∀ (s : State) (v : BitVec 6) (a : BitVec 5) (i : BitVec 8) (q k : BitVec 4) (g : BitVec 2) (n : Nat),
     s.clear [a] [v] = true →
     let w := s.focus
     let c := s.here
     let x := c.sreg a.toNat
     let due : State := s.result 6 4 (.v v.toNat) (s.row w.core n).data allOnes
     (s.rowByNumber w ((x.toNat : Int) + i.toInt) false = .here n → exec (.vldrRow v a i) s = .next due.advance) ∧
     (∀ r, c.ringOf q.toNat = some r →
       let ring := (s.hold w.core).ring r
       n = ring.first + ring.rp % ring.slots * ring.rows + i.toNat → i.toNat < ring.rows → 0 < ring.filled →
       (s.row w.core n).valid = true → (s.row w.core n).poison = false →
       exec (.vldrRing v q i) s = .next (due.updCtx w Ctx.meet).advance) ∧
     (∀ r, c.ringOf q.toNat = some r → ((s.hold w.core).ring r).filled = 0 →
       i.toNat < ((s.hold w.core).ring r).rows → exec (.vldrRing v q i) s = .next s.waits) ∧
     (let y := c.gen g.toNat
      ∀ r, s.genRow w g.toNat y = .ok r → s.rowByNumber w r false = .here n →
       exec (.vldrGenerator v g) s = .next (due.updCtx w (fun z =>
         { z with gens := z.gens.put g.toNat { y with p := if y.p + 1 = y.total ∧ y.wrap = true then 0 else y.p + 1 } })).advance) ∧
     (s.canTrap = true → (c.gen g.toNat).set = false ∨ (c.gen g.toNat).p = (c.gen g.toNat).total →
       s.traps (.vldrGenerator v g) { cause := 33, slot := 6, addr := BitVec.ofNat 64 g.toNat }) ∧
     (s.rowByBond w k.toNat x false = .here n → exec (.vldrBond v a k) s = .next due.advance) ∧
     (∀ h, s.rowByBond w k.toNat x false = .there h n → exec (.vldrBond v a k) s = .next (s.updCtx w (fun z =>
       { z.supersede (.v v.toNat) with
         remoteQ := z.remoteQ ++ [{ home := h, row := n, load := true, v := v.toNat, data := 0, bytes := 0, ord := z.order }] })).advance) ∧
     (s.rowByBond w k.toNat x false = .block [] → exec (.vldrBond v a k) s = .next s.waits)) ∧
  (∀ (s : State) (v : BitVec 6) (a m : BitVec 5) (i : BitVec 8) (q k : BitVec 4) (g : BitVec 2) (n : Nat),
     s.clear [a] [v] = true → m.toNat % 2 = 0 → (m ≠ 0 → s.here.freeS m.toNat = true ∧ s.here.freeS (m.toNat + 1) = true) →
     let w := s.focus
     let c := s.here
     let x := c.sreg a.toNat
     let old := s.row w.core n
     let on (j : Nat) : Bool := m = 0 ∨ (c.sreg (m.toNat + 1) ++ c.sreg m.toNat : BitVec 128).getLsbD j = true
     let stored (t : State) : Prop :=
       (t.row w.core n).valid = true ∧
       (∀ j, j < 128 → (t.row w.core n).data.toNat / 256 ^ j % 256 =
         if on j then (c.vreg v.toNat).toNat / 256 ^ j % 256 else if old.valid then old.data.toNat / 256 ^ j % 256 else 0) ∧
       (∀ r, r ≠ n → t.row w.core r = s.row w.core r) ∧ t.mem = s.mem ∧
       (∀ r, t.here.sreg r = s.advance.here.sreg r)
     (s.rowByNumber w ((x.toNat : Int) + i.toInt) true = .here n → ∃ t, exec (.vstrRow v a m i) s = .next t ∧ stored t) ∧
     (∀ r, c.ringOf q.toNat = some r →
       let ring := (s.hold w.core).ring r
       n = ring.first + ring.wp % ring.slots * ring.rows + i.toNat → i.toNat < ring.rows → 0 < ring.free →
       ∃ t, exec (.vstrRing v q m i) s = .next t ∧ stored t) ∧
     (∀ r, c.ringOf q.toNat = some r → ((s.hold w.core).ring r).free = 0 →
       i.toNat < ((s.hold w.core).ring r).rows → exec (.vstrRing v q m i) s = .next s.waits) ∧
     (let y := c.gen g.toNat
      ∀ r, s.genRow w g.toNat y = .ok r → s.rowByNumber w r true = .here n →
       ∃ t, exec (.vstrGenerator v g m) s = .next t ∧ stored t ∧
         t.here.gen g.toNat = { y with p := if y.p + 1 = y.total ∧ y.wrap = true then 0 else y.p + 1 }) ∧
     (s.rowByBond w k.toNat x true = .here n → ∃ t, exec (.vstrBond v a m k) s = .next t ∧ stored t) ∧
     (∀ h, s.rowByBond w k.toNat x true = .there h n → ∃ t, exec (.vstrBond v a m k) s = .next t ∧
       (∃ bytes, t.here.remoteQ = c.remoteQ ++ [{ home := h, row := n, load := false, v := v.toNat,
                                                  data := c.vreg v.toNat, bytes := bytes, ord := c.order }] ∧
         ∀ j, j < 128 → bytes.getLsbD j = on j) ∧
       t.mem = s.mem ∧ ∀ q r, t.row q r = s.row q r)) ∧
  (∀ (s : State) (v : BitVec 6) (a : BitVec 5) (i : BitVec 8), s.clear [a] [v] = true →
     let w := s.focus
     let r := (s.here.sreg a.toNat).toNat + i.toInt
     let n := r.toNat
     let load (c : Nat) : Prop := s.traps (.vldrRow v a i) { cause := c, slot := 6, addr := BitVec.ofInt 64 r }
     let store (c : Nat) : Prop := s.traps (.vstrRow v a 0 i) { cause := c, slot := 6, addr := BitVec.ofInt 64 r }
     let inside := 0 ≤ r ∧ s.rowOk w.core n = true
     (inside → (s.hold w.core).bondAt n = none →
       ((s.hold w.core).phaseClash n true = false → s.rowByNumber w r true = .here n) ∧
       ((s.hold w.core).phaseClash n false = false → (s.row w.core n).valid = true → (s.row w.core n).poison = false →
         s.rowByNumber w r false = .here n)) ∧
     (s.canTrap = true →
       (¬ inside → load 7 ∧ store 7) ∧
       (inside → s.rowRight w n false = false → load 9) ∧ (inside → s.rowRight w n true = false → store 9) ∧
       (inside → s.rowRight w n false = true → (s.hold w.core).phaseClash n false = true → load 6) ∧
       (inside → s.rowRight w n true = true → (s.hold w.core).phaseClash n true = true → store 6) ∧
       (inside → s.rowRight w n false = true → (s.hold w.core).phaseClash n false = false →
         ((s.row w.core n).valid = false → load 11) ∧
         ((s.row w.core n).valid = true → (s.row w.core n).poison = true → load 12))))

/-- 09 R206, R207; 10 R222: RCFG configures a ring over free rows and maps a handle to it, or unmaps one; RADVR and
RADVW advance a pointer by n + 1 slots and count them; past the filled or free slots, or on an unmapped handle, they
trap with cause 8; a RADVR that passes a slot with a failed command's mark traps with the cause of the lowest such slot.
09 R208, R209: ASET loads the pattern record of a fast-store row into a generator, at position 0; a row beyond the fast
store or a record that is not one traps with cause 33; a row that another context's bond covers traps with cause 9, which R208
does not say (08 R191; the model's choice, log 24). The row of
position p is the base plus, for each dimension, its index in mixed radix times its stride, or the list's entry of that
number. Names RCFG, RADVR, RADVW, ASET. -/
def Obligations.Rings : Prop :=
  (∀ (s : State) (q : BitVec 4) (a : BitVec 5) (n : BitVec 8), s.clear [a] [] = true →
     let w := s.focus
     let c := s.here
     let d := s.here.sreg a.toNat
     let m := n.toNat + 1
     let id := (d.toNat / 2 ^ 56) % 64
     let slots := (d.toNat / 2 ^ 32) % 256 + 1
     let rows := (d.toNat / 2 ^ 40) % 256 + 1
     let first := d.toNat % 2 ^ 16
     let h := s.hold w.core
     (d &&& 0x40FF0000FFFF0000#64 = 0 → d.getLsbD 63 = true → c.ringOf q.toNat = none → (h.ring id).conf = false →
       s.rowOk w.core (first + slots * rows - 1) = true → h.meetsBond first (slots * rows) = false →
       h.meetsRing first (slots * rows) = false → h.meetsCarve first (slots * rows) = false →
       ∃ t, exec (.rcfg q a) s = .next t ∧ t.here.ringOf q.toNat = some id ∧
         (t.hold w.core).ring id = { conf := true, first := first, slots := slots, rows := rows, free := slots } ∧
         (∀ r, r ≠ id → (t.hold w.core).ring r = h.ring r) ∧ (∀ p, p ≠ q.toNat → t.here.ringOf p = c.ringOf p) ∧
         t.mem = s.mem) ∧
     (d &&& 0x40FF0000FFFF0000#64 = 0 → d.getLsbD 63 = false → c.ringOf q.toNat ≠ none →
       h.handleCaptured w.slot q.toNat = false → ∃ t, exec (.rcfg q a) s = .next t ∧ t.here.ringOf q.toNat = none ∧
         (∀ p, p ≠ q.toNat → t.here.ringOf p = c.ringOf p) ∧ t.mem = s.mem) ∧
     (∀ k, c.ringOf q.toNat = some k →
       let r := h.ring k
       (∀ x, m ≤ r.filled → r.passed m = some x → x.cause ≠ 50 → s.canTrap = true →
         s.traps (.radvr q n) { cause := x.cause, slot := 6 } ∧ x ∈ r.marks ∧ (∃ i, i < m ∧ x.slot = (r.rp + i) % r.slots) ∧
         ∀ y ∈ r.marks, ∀ i, i < m → y.slot = (r.rp + i) % r.slots → x.slot ≤ y.slot) ∧
       (m ≤ r.filled → (∀ i, i < m → ∀ x ∈ r.marks, x.slot ≠ (r.rp + i) % r.slots) →
         ∃ t, exec (.radvr q n) s = .next t ∧
           (t.hold w.core).ring k = { r with rp := (r.rp + m) % r.slots, filled := r.filled - m, free := r.free + m } ∧
           (∀ p, p ≠ k → (t.hold w.core).ring p = h.ring p) ∧ t.mem = s.mem) ∧
       (m ≤ r.free → ∃ t, exec (.radvw q n) s = .next t ∧
           (t.hold w.core).ring k = { r with wp := (r.wp + m) % r.slots, free := r.free - m, filled := r.filled + m } ∧
           (∀ p, p ≠ k → (t.hold w.core).ring p = h.ring p) ∧ t.mem = s.mem) ∧
       (r.filled < m → s.canTrap = true →
         s.traps (.radvr q n) { cause := 8, slot := 6, addr := BitVec.ofNat 64 q.toNat }) ∧
       (r.free < m → s.canTrap = true →
         s.traps (.radvw q n) { cause := 8, slot := 6, addr := BitVec.ofNat 64 q.toNat })) ∧
     (c.ringOf q.toNat = none → s.canTrap = true →
       s.traps (.radvr q n) { cause := 8, slot := 6, addr := BitVec.ofNat 64 q.toNat } ∧
       s.traps (.radvw q n) { cause := 8, slot := 6, addr := BitVec.ofNat 64 q.toNat })) ∧
  ((∀ (s : State) (g : BitVec 2) (a : BitVec 5), s.clear [a] [] = true →
     let r := (s.here.sreg a.toNat).toNat
     (∀ x, r ≤ 2047 → s.rowRight s.focus r false = true → (s.row s.focus.core r).poison = false →
       parseGen (rowBytes (s.row s.focus.core r).data) = some x → x.p = 0 ∧ x.set = true ∧
       exec (.aset g a) s = .next (s.updCtx s.focus (fun c => { c with gens := c.gens.put g.toNat x })).advance) ∧
     (s.canTrap = true → r ≤ 2047 → s.rowRight s.focus r false = false →
       s.traps (.aset g a) { cause := 9, slot := 6, addr := BitVec.ofNat 64 r }) ∧
     (s.canTrap = true → 2047 < r ∨ (s.rowRight s.focus r false = true ∧ (s.row s.focus.core r).poison = false ∧
         parseGen (rowBytes (s.row s.focus.core r).data) = none) →
       s.traps (.aset g a) { cause := 33, slot := 6, addr := BitVec.ofNat 64 g.toNat })) ∧
   (∀ (s : State) (w : Who) (k : Nat) (x : Gen), x.set = true → x.p ≠ x.total →
     let o := genOffset x.counts x.strides x.p
     let row := x.listFirst + o.toNat / 64
     (x.indirect = false → s.genRow w k x = .ok (x.base + o)) ∧
     (x.indirect = true → 0 ≤ o → o.toNat < x.listLen → s.rowRight w row false = true → (s.row w.core row).poison = false →
       s.genRow w k x = .ok (x.base + fieldAt (rowBytes (s.row w.core row).data) (2 * (o.toNat % 64)) 2))) ∧
   (∀ (c0 c1 c2 c3 p0 p1 p2 p3 : Nat) (t0 t1 t2 t3 : Int), p0 < c0 → p1 < c1 → p2 < c2 → p3 < c3 →
     genOffset [c0, c1, c2, c3] [t0, t1, t2, t3] (p0 + c0 * (p1 + c1 * (p2 + c2 * p3))) =
       p0 * t0 + p1 * t1 + p2 * t2 + p3 * t3))

/-- 08 R190 to R194; 09 R210: BOND makes a bond over free rows of the core and holds it; GIVE and LEND start
transfers, leaving the handle given or lent; RECALL, once every borrower has released, holds the bond again, and waits
before that; UNBOND dissolves a held bond and releases a borrowed one, leaving the handle empty. A handle in another
state traps with cause 9. 08 R192, R193: a transfer of a bond reaches the empty handle of its resident target, which
holds it, or borrows it for a lend; until then it waits. Names BOND, GIVE, LEND, RECALL, UNBOND,
BOND_TRANSFER_ARRIVAL, LEND_ARRIVAL. -/
def Obligations.Bonds : Prop :=
  (∀ (s : State) (k : BitVec 4) (a b : BitVec 5), s.clear [a, b] [] = true →
     let w := s.focus
     let c := s.here
     let h := s.hold w.core
     let e := c.handle k.toNat
     let x := c.sreg a.toNat
     let first := x.toNat
     let n := (c.sreg b.toNat).toNat
     let base := clusterOf w.core * 16
     (n ≠ 0 → s.rowOk w.core (first + n - 1) = true → h.meetsBond first n = false → h.meetsRing first n = false →
       h.meetsCarve first n = false → e.st = .empty → h.bonds.length < 64 →
       ∃ t, exec (.bond k a b) s = .next t ∧ t.here.handle k.toNat = ⟨.held, w.core, h.nextBond⟩ ∧
         (t.hold w.core).bonds = h.bonds ++ [{ id := h.nextBond, first := first, count := n }] ∧ t.mem = s.mem) ∧
     (let tgt : Who := ⟨base + x.toNat % 16, x.toNat / 16 % 4⟩
      c.spec = none → x.toNat < 64 → e.st = .held → tgt ≠ w → s.bondBusy w e = false →
       ∃ t, exec (.give k a) s = .next t ∧ t.here.handle k.toNat = { e with st := .given } ∧
         t.transfers = s.transfers ++ [⟨tgt, k.toNat, e.home, e.bond, false, h.part⟩] ∧ t.mem = s.mem) ∧
     (let ts : List Who := ((List.range 16).filter (fun i => x.getLsbD i)).map (fun i => ⟨base + i, x.toNat / 2 ^ 16 % 4⟩)
      c.spec = none → x.toNat < 2 ^ 18 → e.st = .held → ts ≠ [] → w ∉ ts → s.bondBusy w e = false →
       ∃ t, exec (.lend k a) s = .next t ∧ t.here.handle k.toNat = { e with st := .lent } ∧
         t.transfers = s.transfers ++ ts.map (fun u => ⟨u, k.toNat, e.home, e.bond, true, h.part⟩) ∧ t.mem = s.mem) ∧
     (∀ y, e.st = .lent → s.bondOf e = some y → s.bondCaptured w e.home e.bond = false →
       (y.borrowers = [] → ∃ t, exec (.recall k) s = .next t ∧ t.here.handle k.toNat = { e with st := .held } ∧
         t.mem = s.mem) ∧
       (y.borrowers ≠ [] → exec (.recall k) s = .next s.waits)) ∧
     (e.st = .held ∨ e.st = .borrowed → s.bondCaptured w e.home e.bond = false →
       ∃ t, exec (.unbond k) s = .next t ∧ t.here.handle k.toNat = {} ∧ t.mem = s.mem ∧
         (e.st = .held → ∀ y ∈ (t.hold e.home).bonds, y.id ≠ e.bond) ∧
         (e.st = .borrowed → ∀ y ∈ (t.hold e.home).bonds, y.id = e.bond → w ∉ y.borrowers)) ∧
     (s.canTrap = true →
       (e.st ≠ .held → c.spec = none → s.traps (.give k a) { cause := 9, slot := 6 } ∧
         s.traps (.lend k a) { cause := 9, slot := 6 }) ∧
       (e.st ≠ .lent → s.traps (.recall k) { cause := 9, slot := 6 }) ∧
       (e.st ≠ .held → e.st ≠ .borrowed → s.traps (.unbond k) { cause := 9, slot := 6 }))) ∧
  (∀ (s : State) (t : Transfer),
     let w := t.target
     let arrived (x : State) (st : HandleState) : Prop :=
       (x.ctx w).handle t.k = { st := st, home := t.home, bond := t.bond } ∧
       (∀ k, k ≠ t.k → (x.ctx w).handle k = (s.ctx w).handle k) ∧ x.transfers = s.transfers.erase t ∧
       (∀ n, (x.ctx w).sreg n = (s.ctx w).sreg n) ∧ x.mem = s.mem
     (s.arrival w t.k t.lend = some t → s.sec.diesStopped = false →
       (t.lend = false → ∃ x, exec (.bondTransferArrival w.core w.slot t.k) s = .next x ∧ arrived x .held) ∧
       (t.lend = true → ∃ x, exec (.lendArrival w.core w.slot t.k) s = .next x ∧ arrived x .borrowed)) ∧
     ((s.ctx w).resident = false ∨ ((s.ctx w).handle t.k).st ≠ .empty →
       exec (.bondTransferArrival w.core w.slot t.k) s = .next s ∧ exec (.lendArrival w.core w.slot t.k) s = .next s))

/-! ## Engines (06, 07, 10, 11) -/

/-- 06 R130 to R134, R162; 07 R163 to R165: on a context that holds the matrix unit, MPSET writes a shadow parameter,
MPGO copies the shadows, MCALL captures the committed parameters, the key, the stream and a sequence number into a
command at the end of the queue, FMTSET joins the queue with its entry; a context that does not hold the unit traps
with cause 30. BNDSET, with bounds in order, sets a bound register with count 0, and BNDGET reads one, both once the
matrix queue is empty, of format entries too (the model's choice, log 43); bounds out of order or NaN are cause 10. 06 R134,
R148, R152: a matrix command at the head of the queue, with nothing that it follows left, starts at its routine's first
microword, or fails with cause 1, and with maddr 0 in its element (the model's choice, log 87), where the entry is not
valid; an FMTSET entry at the head writes its format; an ended command writes its element to its
completion ring and leaves the unit. Names MPSET, MPGO, MCALL, FMTSET, BNDSET, BNDGET, MATRIX_COMMAND_START,
FORMAT_ENTRY_WRITE, MATRIX_COMPLETION. -/
def Obligations.MatrixCommands : Prop :=
  (∀ (s : State) (p : BitVec 3) (f g : BitVec 4) (r : BitVec 8) (pol : BitVec 2) (d a b : BitVec 5),
     s.clear [d, a, b] [] = true → pol ≠ 3 →
     let w := s.focus
     let c := s.here
     let h := s.hold w.core
     let v := c.sreg a.toNat
     let cmd := c.matrixCommand w.slot r.toNat
     let lo : BitVec 32 := v.setWidth 32
     let hi : BitVec 32 := (c.sreg b.toNat).setWidth 32
     let bad := (fp32.read lo.toNat).isNan = true ∨ (fp32.read hi.toNat).isNan = true ∨
       (fp32.read lo.toNat).cmp (fp32.read hi.toNat) = 1
     (c.holdsMatrix = true → h.restoring = false →
       exec (.mpset p a) s = .next (s.updCtx w (fun y => { y with pShadow := y.pShadow.put p.toNat v })).advance ∧
       exec .mpgo s = .next (s.updCtx w (fun y => { y with pCommit := y.pShadow })).advance) ∧
     (c.holdsMatrix = true → h.restoring = false → h.tableWriter = false → h.matrixEntries < 8 →
       (∃ t, exec (.fmtset f a) s = .next t ∧ (t.hold w.core).matrix.queue = h.matrix.queue ++ [.fmt f.toNat v w.slot] ∧
         t.mem = s.mem ∧ ∀ n, t.row w.core n = s.row w.core n) ∧
       (let p5 := c.pCommit.get 0 5
        p5.getLsbD 4 = true → c.ringOf (p5.toNat % 16) ≠ none →
        (∀ x ∈ cmd.rd.ranges ++ cmd.wr.ranges, s.rowOk w.core x.2 = true) → h.clashRow cmd.rd cmd.wr = none →
         ∃ t, exec (.mcall r) s = .next t ∧ (t.hold w.core).matrix.queue = h.matrix.queue ++ [.cmd cmd] ∧
           t.here.mseq = c.mseq + 1 ∧ cmd.p = c.pCommit ∧ cmd.seq = c.mseq ∧ cmd.key = c.key ∧ cmd.stream = c.stream ∧
           cmd.routine = r.toNat ∧ t.mem = s.mem ∧ ∀ n, t.row w.core n = s.row w.core n)) ∧
     (h.restoring = false → h.matrixEntries = 0 →
       (¬ bad → exec (.bndset g a b pol) s = .next (s.updHold w.core (fun y =>
         { y with bounds := y.bounds.put g.toNat { low := lo, high := hi, count := 0, pol := pol } })).advance) ∧
       exec (.bndget d g) s = .next (s.scalar 7 1 d
         (BitVec.ofNat 64 ((h.bounds.get {} g.toNat).pol.toNat * 2 ^ 32 + (h.bounds.get {} g.toNat).count.toNat))).advance) ∧
     (¬ bad → 0 < h.matrixEntries → exec (.bndset g a b pol) s = .next s.waits ∧ exec (.bndget d g) s = .next s.waits) ∧
     (s.canTrap = true → (bad → s.traps (.bndset g a b pol) { cause := 10, slot := 7, addr := BitVec.ofNat 64 g.toNat }) ∧
       (c.holdsMatrix = false → s.traps (.mpset p a) { cause := 30, slot := 7 } ∧ s.traps .mpgo { cause := 30, slot := 7 } ∧
         s.traps (.mcall r) { cause := 30, slot := 7 } ∧ s.traps (.fmtset f a) { cause := 30, slot := 7 }))) ∧
  (∀ (s : State) (g : Nat), s.coreOff g = false →
     let m := s.matrix g
     (∀ c t, m.run = none → m.queue = .cmd c :: t → (s.hold g).restoring = false → s.matrixHeldBack g c = false →
       let e := m.entries.get 0 c.routine
       ∃ x, exec (.matrixCommandStart g) s = .next x ∧ (x.matrix g).queue = t ∧ (∀ w, { x.ctx w with older := (s.ctx w).older } = s.ctx w) ∧ x.mem = s.mem ∧
         (e.getLsbD 63 = true ∧ e.toNat % 2 ^ 63 < 4096 → (x.matrix g).run = some { cmd := c, pc := e.toNat % 4096 }) ∧
         (¬ (e.getLsbD 63 = true ∧ e.toNat % 2 ^ 63 < 4096) →
           (x.matrix g).run = some { cmd := c, pc := 0, ended := some (2, 1, 0) })) ∧
     (∀ e v k t, m.run = none → m.queue = .fmt e v k :: t → (s.hold g).restoring = false →
       ∃ x, exec (.formatEntryWrite g) s = .next x ∧ (x.matrix g).queue = t ∧ (x.matrix g).formats.get 0 e = v ∧
         (∀ i, i ≠ e → (x.matrix g).formats.get 0 i = m.formats.get 0 i) ∧ (x.matrix g).words = m.words ∧
         (∀ w n, (x.ctx w).sreg n = (s.ctx w).sreg n) ∧ x.mem = s.mem) ∧
     (∀ r kind cause at_, m.run = some r → r.ended = some (kind, cause, at_) →
       let q := r.cmd.ring
       let ring := (s.hold g).ring q
       ring.free ≠ 0 → (s.hold g).ringMapped q = true → (s.core g).gctlWait = [] →
       ∃ x, exec (.matrixCompletion g) s = .next x ∧ (x.matrix g).run = none ∧ (x.matrix g).queue = m.queue ∧
         (x.row g (ring.writeRow 0)).data = bytesRow (padTo 128
           (toBytes 8 (at_ * 2 ^ 36 + r.cmd.routine * 2 ^ 28 + cause * 2 ^ 20 + kind * 2 ^ 16) ++
             toBytes 8 (r.cmd.seq.toNat * 2 ^ 32 + (m.t0.poisonCount + m.t1.poisonCount) * 2 ^ 16 + m.t0.satCount +
               m.t1.satCount))) ∧
         ((x.hold g).ring q).filled = ring.filled + 1 ∧ ((x.hold g).ring q).free = ring.free - 1 ∧ x.mem = s.mem))

/-- 10 R213, R215, R225; 09 R211; 15 R308: CPY, with its record in two rows that it may read, pushes the command with
its ring, scope, deadline and sequence number; a command whose declared rows meet those of an active command is cause
6; PREF adds requests, with its deadline, to promote exactly those pallets of the job's tiered ranges that the bytes sa to
sa + sb - 1 meet and that translate, whatever lines the host may hold (the model's choice, log 59). 10 R217 to R221: a copy
command's next tuple moves a row to a row with its poison, or a row to 8 bytes of memory; the last tuple ends the
command; an ended command with a ring writes its element of tag, cause, kind, sequence, iterations and bytes to the
ring's write slot and leaves; an expiry marks a command with a deadline. Names CPY, CPY_NO_RING, PREF, COPY_TUPLE,
COPY_COMPLETION, COPY_DEADLINE_EXPIRY. -/
def Obligations.CopyCommands : Prop :=
  (∀ (s : State) (a b x : BitVec 5) (q : BitVec 4) (sc : BitVec 3), s.clear [a, b, x] [] = true → isScope sc = true →
     let w := s.focus
     let c := s.here
     let h := s.hold w.core
     let n := (c.sreg a.toNat).toNat
     let r := parseCopy (rowBytes (s.row w.core n).data ++ rowBytes (s.row w.core (n + 1)).data)
     let push (y : CCmd) : State := ((s.updCtx w (fun z =>
         (({ z with cseq := z.cseq + 1 } : Ctx).claimHalf r h.nextUid).pushed.clearCopyIdle)).updHold w.core
           (fun z => { z with copies := z.copies ++ [y], nextUid := z.nextUid + 1 })).advance
     (n ≤ 2046 → s.rowByNumber w n false = .here n → s.rowByNumber w (n + 1) false = .here (n + 1) →
       h.clashRow r.rd r.wr = none → h.matrixCmds = [] → h.restoring = false → h.copies.length < 256 →
       exec (.cpyNoRing a b) s = .next (push (c.copyCommand h.nextUid w.slot r none 0 0 (s.pushCause w r))) ∧
       (∀ k, c.ringOf q.toNat = some k → exec (.cpy a b q sc) s = .next (push
         (c.copyCommand h.nextUid w.slot r (some (q.toNat, k)) sc ((c.sreg b.toNat).toNat % 2 ^ 32) (s.pushCause w r))))) ∧
     (∀ m, n ≤ 2046 → s.rowByNumber w n false = .here n → s.rowByNumber w (n + 1) false = .here (n + 1) →
       h.clashRow r.rd r.wr = some m → s.canTrap = true →
       s.traps (.cpyNoRing a b) { cause := 6, slot := 7, addr := BitVec.ofNat 64 m }) ∧
     (s.canTrap = true → 2046 < n → n ≤ 34815 → s.traps (.cpyNoRing a b) { cause := 13, slot := 7 }) ∧
     (c.owner.boot = true → exec (.pref a b x) s = .next s.advance) ∧
     (c.owner.boot = false →
       let first := (c.sreg a.toNat).toNat
       let size := (c.sreg b.toNat).toNat % 2 ^ 40
       let translates (va : Nat) : Prop := ∃ r, ({ s with hostLines := [] } : State).translate (clusterOf w.core) c.owner
         c.priv (BitVec.ofNat 64 va) .read = .ok r
       ∃ l : List MoveReq, exec (.pref a b x) s = .next (s.updPart c.owner.part (fun p =>
         { p with moves := p.moves ++ l, moveCount := p.moveCount + l.length })).advance ∧
         (∀ y ∈ l, y.job = c.owner.job ∧ y.up = true ∧ y.deadline = decide ((c.sreg x.toNat).toNat % 2 ^ 32 ≠ 0)) ∧
         ∀ va, va ∈ l.map (fun y => y.va) ↔ translates va ∧ ∃ t ∈ (s.job c.owner.job).tiered, ∃ k,
           first ≤ k ∧ k < first + max size 1 ∧ t.base ≤ k ∧ k < t.base + t.size ∧
           va = t.base + (k - t.base) / 65536 * 65536)) ∧
  (∀ (s : State) (g u : Nat) (c : CCmd), s.coreOff g = false → s.copy? g u = some c → (s.core g).gctlWait = [] →
     let r := c.desc
     let is := tupleIndices r.counts c.tuple
     (c.ended = none → s.copyHeldBack g c = false → (s.hold g).restoring = false → c.moved = 0 →
       c.refused = none → c.lateHere = false → r.level = 0 → r.sind = false →
       r.dind = false → r.sspace = 1 → c.ring ≠ none → c.deadline = 0 →
       (∀ a b : Nat, r.dspace = 1 → r.run = 128 → (a : Int) = r.src.toNat + strideSum is r.sstrides →
         (b : Int) = r.dst.toNat + strideSum is r.dstrides → (s.row g a).valid = true →
         ∃ x, exec (.copyTuple g u) s = .next x ∧ (x.row g b).data = (s.row g a).data ∧
           (x.row g b).poison = (s.row g a).poison ∧ (x.row g b).valid = true ∧
           (∀ n, n ≠ b → x.row g n = s.row g n) ∧ x.mem = s.mem ∧
           ∃ y, x.copy? g u = some y ∧ y.tuple = c.tuple + 1 ∧ y.bytes = c.bytes + 128 ∧
             y.ended = (if c.tuple + 1 = r.tuples then some (0, 0) else none)) ∧
       (∀ (a : Nat) (va : Word) (pa : Nat) (t : State), r.dspace = 0 → r.run = 8 → va.toNat % 8 = 0 →
         (a : Int) = r.src.toNat + strideSum is r.sstrides →
         (va.toNat : Int) = r.dst.toNat + strideSum is r.dstrides → (s.row g a).valid = true →
         (s.row g a).poison = false → s.copyTranslate g c true va .write = .ok (pa, t) → s.place pa = .hbm →
         s.snoopingRange pa 8 = false → s.palletHolds c.owner va.toNat = false → s.retired pa = false →
         ∃ x, exec (.copyTuple g u) s = .next x ∧ x.readMem pa 8 = (s.row g a).data.toNat % 2 ^ 64 ∧
           (∀ p, s.key p < s.key pa ∨ s.key pa + 8 ≤ s.key p → x.byte p = s.byte p) ∧
           ∃ y, x.copy? g u = some y ∧ y.tuple = c.tuple + 1 ∧ y.bytes = c.bytes + 8)) ∧
     (∀ kind cause q, c.ended = some (kind, cause) → c.ring = some q → ((s.hold g).ring q).free ≠ 0 →
       (((s.hold g).copies.find? (fun x => decide (x.ring = some q))).map (fun x => x.uid)) = some u →
       (s.hold g).ringMapped q = true →
       let ring := (s.hold g).ring q
       ∃ x, exec (.copyCompletion g u) s = .next x ∧ x.copy? g u = none ∧
         (x.row g (ring.writeRow 0)).data = bytesRow (padTo 128
           (toBytes 8 (r.tag.toNat * 2 ^ 32 + cause * 2 ^ 20 + kind * 2 ^ 16 + 2 ^ 12) ++
             toBytes 8 (c.seq.toNat * 2 ^ 32 + c.iters) ++ toBytes 8 c.bytes)) ∧
         ((x.hold g).ring q).filled = ring.filled + 1 ∧ ((x.hold g).ring q).free = ring.free - 1 ∧
         ((x.hold g).ring q).wp = (ring.wp + 1) % ring.slots ∧ x.mem = s.mem) ∧
     (c.ring ≠ none → c.deadline ≠ 0 → (s.hold g).halting = false →
       ∃ x, exec (.copyDeadlineExpiry g u) s = .next x ∧ x.copy? g u = some { c with expired := true } ∧
         (∀ w, x.ctx w = s.ctx w) ∧ x.mem = s.mem))

/-- 06 R149, R150, R152, R147: the microwords that move work registers, the place in the microprogram, the format and
the tiles. Each takes the running command of its core one microword on, but where it branches, ends or fails the
command. 06 R150, 09 R207, 10 R222: the microwords on rings, where the command captured the handle. MWAITR waits, the
unit alone, until the ring has the slots; MRADV advances a pointer, and fails the command with cause 8 past the slots
there are; MPOST waits for a free slot and writes an element with the word's code. On a handle that the command did
not capture each fails it with cause 8, which Table 6.9 does not say (the model's choice, log 85). Names MEND, MLOOP, MBR, MSET, MADD, MFMT, MSWAP, MCLR, MWAITR, MRADV, MPOST.
-/
def Obligations.Microwords : Prop :=
  (∀ (s : State) (g : Nat) (r : MRun) (more : List Act) (x : BitVec 4) (wa wb : BitVec 3) (imm : BitVec 24),
     s.running g r more →
     let t : State := { s with agenda := more }
     let a := r.w.get 0 wa.toNat
     let b := r.w.get 0 wb.toNat
     let on (r' : MRun) : State := t.setRun g { r' with pc := r.pc + 1 }
     let jump (r' : MRun) : State := t.setRun g { r' with pc := imm.toNat }
     let put (v : BitVec 32) : MRun := { r with w := r.w.put wa.toNat v }
     let f := (s.matrix g).formats.get 0 ((r.cmd.c.getD x.toNat 0).toNat % 16)
     exec .mend s = .next (t.setRun g { r with ended := some (0, 0, r.pc) }) ∧
     (imm.toNat < 4096 →
       (1 < a.toNat → exec (.mloop wa imm) s = .next (jump (put (a - 1)))) ∧
       (a.toNat ≤ 1 → exec (.mloop wa imm) s = .next (on (put 0))) ∧
       exec (.mbr 0 0 0 imm) s = .next (jump r) ∧
       exec (.mbr 1 wa 0 imm) s = .next (if a = 0 then jump r else on r) ∧
       exec (.mbr 2 wa 0 imm) s = .next (if a ≠ 0 then jump r else on r) ∧
       exec (.mbr 3 wa wb imm) s = .next (if a.toNat < b.toNat then jump r else on r)) ∧
     exec (.mset 0 0 wa imm) s = .next (on (put (imm.signExtend 32))) ∧
     (x.toNat ≤ 7 → exec (.mset x 1 wa 0) s = .next (on (put ((r.cmd.p.get 0 x.toNat).setWidth 32))) ∧
       exec (.mset x 2 wa 0) s = .next (on (put ((r.cmd.p.get 0 x.toNat >>> 32).setWidth 32)))) ∧
     (x.toNat ≤ 5 → exec (.mset x 3 wa 0) s = .next (on (put (r.cmd.c.getD x.toNat 0)))) ∧
     exec (.madd 0 wa 0 imm) s = .next (on (put (a + imm.signExtend 32))) ∧
     exec (.madd 1 wa wb imm) s = .next (on (put (a + b + imm.signExtend 32))) ∧
     (x.toNat ≤ 5 →
       (fmtValid f = true → exec (.mfmt x) s = .next (on { r with fmt := some f, a := none, b0 := none, b1 := none })) ∧
       (fmtValid f = false → exec (.mfmt x) s = .next (t.setRun g { r with ended := some (2, 3, r.pc) }))) ∧
     exec .mswap s = .next ((t.updMatrix g (fun m => { m with t0 := m.t1, t1 := m.t0 })).setRun g { r with pc := r.pc + 1 }) ∧
     (∀ e, x.toNat ≤ 1 → r.fmt = some e → exec (.mclr x wa) s =
       .next ((t.updMatrix g (fun m => m.setTile x { halfMode := fmtHalf e, base := (a.setWidth 16).toInt })).setRun g
         { r with pc := r.pc + 1 })) ∧
     (x.toNat ≤ 1 → r.fmt = none → exec (.mclr x wa) s = .next (t.setRun g { r with ended := some (2, 3, r.pc) }))) ∧
  (∀ (s : State) (g : Nat) (r : MRun) (more : List Act) (h : BitVec 4) (imm : BitVec 24), s.running g r more →
     let t : State := { s with agenda := more }
     let on (u : State) : State := u.setRun g { r with pc := r.pc + 1 }
     let bad : State := t.setRun g { r with ended := some (2, 8, r.pc) }
     (∀ q, r.cmd.rings.get none h.toNat = some q →
       let x := (s.hold g).ring q
       let n := imm.toNat
       (1 ≤ n → n ≤ 256 →
         exec (.mwaitr 0 h imm) s = .next (if n ≤ x.filled then on t else t) ∧
         exec (.mwaitr 1 h imm) s = .next (if n ≤ x.free then on t else t) ∧
         (x.filled < n → exec (.mradv 0 h imm) s = .next bad) ∧
         (x.free < n → exec (.mradv 1 h imm) s = .next bad) ∧
         (n ≤ x.filled → x.marks = [] → exec (.mradv 0 h imm) s = .next (on ((t.updHold g (fun k => k.setRing q
           { x with rp := (x.rp + n) % x.slots, filled := x.filled - n, free := x.free + n })).wake g))) ∧
         (n ≤ x.free → exec (.mradv 1 h imm) s = .next (on ((t.updHold g (fun k => k.setRing q
           { x with wp := (x.wp + n) % x.slots, free := x.free - n, filled := x.filled + n })).wake g)))) ∧
       (x.free = 0 → exec (.mpost h imm) s = .next t) ∧
       (0 < x.free → ∃ u, exec (.mpost h imm) s = .next u ∧
         (u.row g (x.first + x.wp % x.slots * x.rows)).data.toNat % 2 ^ 64 =
           (imm.toNat % 2 ^ 16 * 2 ^ 48 + r.pc * 2 ^ 36 + r.cmd.routine * 2 ^ 28 + 2 ^ 16) % 2 ^ 64 ∧
         (u.hold g).ring q = { x with wp := (x.wp + 1) % x.slots, free := x.free - 1, filled := x.filled + 1
                                      marks := x.marks.filter (fun m => !decide (m.slot = x.wp)) } ∧ u.mem = s.mem)) ∧
     (r.cmd.rings.get none h.toNat = none → exec (.mpost h imm) s = .next bad ∧
       (1 ≤ imm.toNat → imm.toNat ≤ 256 → exec (.mwaitr 0 h imm) s = .next bad ∧ exec (.mradv 0 h imm) s = .next bad)))

/-- 06 R139, R141 to R144, R150, R151; 07 R156 to R159: the microwords on buffers and tiles, where the rows they name
pass their checks: MLDA and MLDB load the rows of the current format into a buffer; MSTEP and MPCOR, whose buffers were
loaded under it, add to one tile, MPCOR under a sparse format for either half of B; MDRAIN writes the converted tile to
its rows. A check that fails ends the command with its cause. Names MLDA, MLDB, MSTEP, MPCOR, MDRAIN. -/
def Obligations.MicrowordTiles : Prop :=
  ∀ (s : State) (g : Nat) (r : MRun) (more : List Act) (x y h : BitVec 4) (am : BitVec 2) (wa wb : BitVec 3)
    (off : BitVec 16) (f : Word), s.running g r more → r.fmt = some f → isAddr am h = true →
    let t : State := { s with agenda := more }
    let on (u : State) (r' : MRun) : State := u.setRun g { r' with pc := r.pc + 1 }
    let fails (c : Nat) : State := t.setRun g { r with ended := some (2, c, r.pc) }
    let p := (r.w.get 0 wb.toNat).toNat
    let k := (r.w.get 0 wa.toNat).toNat
    let aOffs := if fmtHalf f then List.range 32 else aRows f p
    let bOffs := List.range (if fmtHalf f then 32 else 33)
    let tile := if x = 0 then (s.matrix g).t0 else (s.matrix g).t1
    let set (u : State) (z : Tile) : State := u.updMatrix g (fun m => m.setTile x z)
    let b (n : Nat) : Buffer := (if n = 0 then r.b0 else r.b1).getD ⟨0, 0, []⟩
    (fmtHalf f = true ∨ p < fmtAPlanes f →
      (∀ z, t.runRows g r am wa h off aOffs false = .ok z → exec (.mlda am wa h off wb) s =
        .next (on t { r with a := some ⟨f, p, aOffs.map (fun n => bufRow (s.row z.1 (z.2 + n)))⟩ })) ∧
      (∀ c, t.runRows g r am wa h off aOffs false = .error c → exec (.mlda am wa h off wb) s = .next (fails c))) ∧
    (fmtHalf f = false → fmtAPlanes f ≤ p → exec (.mlda am wa h off wb) s = .next (fails 3)) ∧
    (∀ z, t.runRows g r am wa h off bOffs false = .ok z →
      exec (.mldb 0 am wa h off) s =
        .next (on t { r with b0 := some ⟨f, 0, bOffs.map (fun n => bufRow (s.row z.1 (z.2 + n)))⟩ }) ∧
      exec (.mldb 1 am wa h off) s =
        .next (on t { r with b1 := some ⟨f, 0, bOffs.map (fun n => bufRow (s.row z.1 (z.2 + n)))⟩ })) ∧
    (∀ e, x.toNat ≤ 1 → y.toNat ≤ 1 → r.a = some e → e.fmt = f → tile.halfMode = fmtHalf f →
      (fmtSparsity f = 0 ∨ y = 0) → r.operandsOk f y.toNat = true →
      (fmtHalf f = false → exec (.mstep x y) s =
        .next (on (set (t.updCore g (fun c => c.planeSteps 32)) (tile.planeStep e b y.toNat)) r)) ∧
      (fmtHalf f = true → exec (.mstep x y) s =
        .next (on (set (t.updCore g (fun c => c.planeSteps 256)) (tile.halfStep e (b y.toNat))) r))) ∧
    (∀ e, x.toNat ≤ 1 → y.toNat ≤ 1 → r.a = some e → e.fmt = f → tile.halfMode = fmtHalf f →
      r.operandsOk f y.toNat = true →
      (fmtHalf f = false → fmtMinPlanes f ≤ k → k ≤ fmtAPlanes f → exec (.mpcor x y wa) s =
        .next (on (set (t.updCore g (fun c => c.planeSteps (if fmtSparsity f = 0 then 1 else 32)))
          (tile.correct e b y.toNat k)) r)) ∧
      (fmtHalf f = false → k < fmtMinPlanes f ∨ fmtAPlanes f < k → exec (.mpcor x y wa) s = .next (fails 4))) ∧
    (x.toNat ≤ 1 → y.toNat ≤ 1 → fmtSparsity f = 0 → tile.halfMode = fmtHalf f → r.operandsOk f y.toNat = false →
      exec (.mstep x y) s = .next (fails 5)) ∧
    (x.toNat ≤ 1 → y = 1 → fmtSparsity f ≠ 0 → exec (.mstep x y) s = .next (fails 2)) ∧
    (let cv := if y = 0 then fmtDrain f else y.toNat
     let d : Drain := { cv := cv, fmt := f, bound := (s.hold g).bounds.get {} (fmtBound f)
                        draw := fun i => (draw r.cmd.key r.cmd.stream (s.ctx ⟨g, r.cmd.slot⟩).mdraw
                          (BitVec.ofNat 32 i)).toNat % 2 ^ 32 }
     x.toNat ≤ 1 → y.toNat ≤ 4 → (cv = 4 → fmtOutPlanes f ≠ 0) →
     (∀ z, t.runRows g r am wa h off (List.range (drainRows cv)) true = .ok z →
       (fmtBoundEn f = true → (d.bound.pol = 2 → d.badCount tile = 0)) → ∃ u, exec (.mdrain x y am wa h off) s = .next u ∧
        (z.1 = g → z.2 + drainRows cv ≤ 2048 → ∀ n, n < drainRows cv →
          (u.row g (z.2 + n)).data = ((d.rows tile).getD n {}).data ∧
          (u.row g (z.2 + n)).poison = ((d.rows tile).getD n {}).poison) ∧
        (∀ q n, q ≠ z.1 → u.row q n = s.row q n) ∧ u.mem = s.mem ∧ (u.matrix g).t0 = (s.matrix g).t0 ∧
        (u.matrix g).t1 = (s.matrix g).t1 ∧
        (fmtRound f = 1 → (u.ctx ⟨g, r.cmd.slot⟩).mdraw = (s.ctx ⟨g, r.cmd.slot⟩).mdraw + 1)) ∧
     (fmtBoundEn f = true → d.bound.pol = 2 → 0 < d.badCount tile →
       ∀ z, t.runRows g r am wa h off (List.range (drainRows cv)) true = .ok z →
         exec (.mdrain x y am wa h off) s = .next (fails 10)))

/-- 06 R140, R141: the arithmetic of a step in plane mode with a dense A: cell (i, j) becomes its sum, saturated at 64
bits, with the exact sum of A bit times B value over the 32 elements, scaled by the plane's weight and rounded at the
tile's base; a row's saturation bit stays set once it is. -/
def Obligations.PlaneStepValue : Prop :=
  ∀ (t : Tile) (a : Buffer) (b : Nat → Buffer) (h i j : Nat), i < 128 → j < 128 → fmtSparsity a.fmt = 0 →
    let sum : Int := ((List.range 32).map (fun n => a.planeBit i n * (b h).bval n j)).sum
    let x := rshiftNE (2 ^ (fmtAPlanes a.fmt - a.plane) * sum) (t.base - (a.ea i + (b h).eb j))
    let y := (t.cell i j).toInt + x
    ((t.planeStep a b h).cell i j).toInt =
      (if y < -(2 ^ 63) then -(2 ^ 63) else if 2 ^ 63 - 1 < y then 2 ^ 63 - 1 else y) ∧
    (t.sat.getLsbD i = true ∨ y < -(2 ^ 63) ∨ 2 ^ 63 - 1 < y → (t.planeStep a b h).sat.getLsbD i = true) ∧
    (t.planeStep a b h).halfMode = t.halfMode ∧ (t.planeStep a b h).base = t.base ∧
    (t.poison.get 0 i ≠ 0 → (t.planeStep a b h).poison.get 0 i = t.poison.get 0 i)

/-! ## The core cycle and launching (13, 14, 15) -/

/-- 15 R294, R296, R299, R300: an issue cycle of a core goes to the first of its candidates whose bundle issues or
traps, which becomes current and uses one of its slot's quota; one that blocks, or leaves, passes the cycle to the next;
while its weight would exceed the limit of the last 64 cycles nothing issues and the limiter counts; a core frozen by a
transition counts its cycle, and so it does, whatever waits there, until the transition settles (R303); with no candidate
the cycle is idle. 13 R273: a context whose EXIT has issued leaves
once what it began has ended. A waiting context is no candidate, nor a gang of which every member waits (R295);
candidates with quota left come first, and the gang before the others (R294). At a budget boundary every quota is restored and the written values come into force. Names
ISSUE_CYCLE, BUDGET_PERIOD_BOUNDARY. -/
def Obligations.CoreCycle : Prop :=
  ∀ (s : State) (g : Nat),
    let s0 := s.updCore g (fun c => { c with yielded := false })
    (s.coreOff g = true → exec (.issueCycle g) s = .next s) ∧
    (s.coreOff g = false →
      (∀ w more, s.candidates g = w :: more → (s.ctx w).gang = none →
        let r := s0.offer w
        let weight := ((s0.fetched w).getD s0).bundleWeight w
        (r.2 = .issued → (s0.core g).limited weight = false → ∃ x, exec (.issueCycle g) s = .next x ∧
          (∀ v, x.ctx v = r.1.ctx v) ∧ (x.core g).current = w.slot ∧
          (x.core g).used.get 0 w.slot = (r.1.core g).used.get 0 w.slot + 1 ∧
          (x.core g).window = (weight :: (r.1.core g).window).take 64 ∧ x.mem = r.1.mem) ∧
        (r.2 = .issued → (s0.core g).limited weight = true → ∃ x, exec (.issueCycle g) s = .next x ∧
          (∀ v, x.ctx v = s.ctx v) ∧ (x.core g).freezeLimiter = (s.core g).freezeLimiter + 1 ∧
          (x.core g).window = (0 :: (s.core g).window).take 64 ∧ x.mem = s.mem) ∧
        (r.2 = .frozen → ∃ x, exec (.issueCycle g) s = .next x ∧
          (∀ v, x.ctx v = s.ctx v) ∧ (x.core g).freezeTransition = (s.core g).freezeTransition + 1 ∧
          (x.core g).window = (0 :: (s.core g).window).take 64 ∧ x.mem = s.mem) ∧
        (r.2 = .trapped → ∃ x, exec (.issueCycle g) s = .next x ∧ (∀ v, x.ctx v = r.1.ctx v) ∧
          (x.core g).current = w.slot ∧ (x.core g).used.get 0 w.slot = (r.1.core g).used.get 0 w.slot + 1 ∧
          x.mem = r.1.mem)) ∧
      (∀ w more, (s0.offer w).2 = .blocked ∨ (s0.offer w).2 = .left →
        s0.offerEach (w :: more) = (s0.offer w).1.offerEach more) ∧
      (s.candidates g = [] → ∃ x, exec (.issueCycle g) s = .next x ∧ (∀ v, x.ctx v = s.ctx v) ∧
        (x.core g).window = (0 :: (s.core g).window).take 64 ∧ x.mem = s.mem) ∧
      ((s.core g).opWait = true → ∃ x, exec (.issueCycle g) s = .next x ∧ (∀ v, x.ctx v = s.ctx v) ∧
        (x.core g).freezeTransition = (s.core g).freezeTransition + 1 ∧
        (x.core g).window = (0 :: (s.core g).window).take 64 ∧ x.mem = s.mem)) ∧
    (∀ w, (s.ctx w).gang = none → (s.ctx w).exiting = true → (s.ctx w).logMode ≠ 2 →
      (s.unfinished w = false → s.lendsBeyond w [] = false → (s.ctx w).pairs = [] → (s.offer w).2 = .left ∧
        ((s.offer w).1.ctx w).resident = false ∧ (s.offer w).1.mem = s.mem) ∧
      (s.unfinished w = true → (s.ctx w).resident = true → (s.offer w).2 = .blocked ∧
        ((s.offer w).1.ctx w).resident = true ∧ ((s.offer w).1.ctx w).exiting = true ∧ (s.offer w).1.mem = s.mem)) ∧
    (∀ l a w more, s.candidates g = l ++ [a] ++ w :: more → (s.core g).quotaLeft w.slot = true →
      (s.core g).quotaLeft a.slot = true) ∧
    (∀ w ∈ s.candidates g, w.core = g ∧ (s.ctx w).resident = true ∧ ((s.ctx w).gang = none → (s.ctx w).waiting = false) ∧
      (∃ m ∈ s.team w, (s.ctx m).waiting = false) ∧
      ∀ m ∈ s.team w, (s.ctx m).loaded = true ∧ (s.core m.core).opWait = false) ∧
    (∀ l a w more, s.candidates g = l ++ [a] ++ w :: more → s.outOfQuota a = s.outOfQuota w →
      (s.ctx w).gang ≠ none → (s.ctx a).gang ≠ none) ∧
    (s.sec.diesStopped = false → ∃ x, exec (.budgetPeriodBoundary g) s = .next x ∧ (x.core g).period = (s.core g).iperiod ∧
      (∀ k, (x.core g).quota k = (s.core g).nextQuota k ∧ (x.core g).used.get 0 k = 0) ∧
      (∀ v, x.ctx v = s.ctx v) ∧ x.mem = s.mem)

/-- 13 R262 to R266, Table 13.4; 15 R295, R297; 14 R292: a core's selection takes the most urgent eligible entry, and where
its queue was full the contexts that wait may try again; a bound
context starts with the registers, allotment, key, stream and mode of its record and everything else as at launch; its
loader puts the first segment in half 0 and starts at bundle 0, and a segment that cannot be read is a precise trap; a
prefetch puts the next segment in the half that does not execute. Names LAUNCH_BIND, OVERLAY_LOAD, SEGMENT_PREFETCH.
-/
def Obligations.Launching : Prop :=
  (∀ (s : State) (g : Nat) (l : Launch), s.coreOff g = false → s.selection g = some l →
    l ∈ (s.hold g).queue ∧ s.eligible g l = true ∧ (∀ m ∈ (s.hold g).queue, s.eligible g m = true → l.cls ≤ m.cls) ∧
    (l.gang = none → ∃ x, exec (.launchBind g) s = .next x ∧ x.ctx ⟨g, placeSlot l.image⟩ = Ctx.launched l ∧
      (∀ w, w ≠ ⟨g, placeSlot l.image⟩ → ({ x.ctx w with waiting := (s.ctx w).waiting } : Ctx) = s.ctx w ∧
        ((s.hold g).queue.length < 32 → x.ctx w = s.ctx w)) ∧ (∀ e ∈ (x.hold g).queue, e.task ≠ l.task) ∧
      x.mem = s.mem)) ∧
  (∀ l : Launch,
    let c := Ctx.launched l
    c.resident = true ∧ c.loading = true ∧ c.sreg 1 = recWord l.image 8 ∧ c.sreg 2 = BitVec.ofNat 64 l.member ∧
    c.sreg 3 = BitVec.ofNat 64 l.members ∧ (∀ n, 3 < n → c.sreg n = 0) ∧ c.allot = 8 * placeAlloc l.image ∧
    (∀ n, c.vreg n = 0) ∧ (∀ n, n ≠ 0 → c.flag n = false) ∧ c.top = BitVec.allOnes 64 ∧ c.key = l.key ∧
    c.stream = l.stream ∧ c.priv = l.owner.boot ∧ c.logMode = l.logMode ∧ c.step = 0 ∧
    (∀ n, (c.course n).active = false) ∧ (∀ q, c.ringOf q = none) ∧ (∀ k, (c.handle k).st = .empty) ∧ c.loadQ = [] ∧
    c.storeQ = [] ∧ c.drawCnt = 0 ∧ c.spawnIx = 0) ∧
  (∀ (s : State),
    let w := s.focus
    let g := s.focus.core
    let c := s.here
    (c.resident = true → c.loading = true → c.stopped = false → s.coreOff g = false → c.logMode = 0 →
      fieldAt c.record 72 1 = 0 → fieldAt c.record 88 2 = 0 → c.gang = none →
      (∀ seg t, s.readSegment (clusterOf g) c.owner c.priv (recWord c.record 0) = .ok (seg, t) →
        t.imageClash w (seg.half (recWord c.record 0) c.priv) = false → c.loadFault = none →
        seg.imageRow + seg.image.length ≤ 2048 → ∃ x, exec (.overlayLoad g w.slot) s = .next x ∧ x.here.loading = false ∧ x.here.half = 0 ∧ x.here.index = 0 ∧
          x.here.execHalf.bundles = seg.bundles ∧ x.here.execHalf.next = seg.next ∧
          x.here.execHalf.count = seg.bundles.length ∧ x.here.execHalf.addr = segmentBase (recWord c.record 0) ∧
          (∀ n, n < seg.image.length → x.row g (seg.imageRow + n) = { data := seg.image.getD n 0, valid := true }) ∧
          x.here.sregs = c.sregs ∧ x.mem = s.mem) ∧
      (∀ e, s.readSegment (clusterOf g) c.owner c.priv (recWord c.record 0) = .error e → e.cause ≠ Cause.later →
        s.canTrap = true → ∃ x, exec (.overlayLoad g w.slot) s = .next x ∧
          s.trapped { cause := e.cause, addr := e.addr } false x = true ∧ x.here.loading = false ∧ x.mem = s.mem)) ∧
    (c.resident = true → c.loading = false → c.stopped = false → s.coreOff g = false → c.gang = none →
      c.execHalf.last = false → c.incoming = none → c.otherHalf.claim = none → c.armed = none → c.otherHalf.valid = false →
      ∀ seg t, s.readSegment (clusterOf g) c.owner c.priv c.execHalf.next = .ok (seg, t) →
        ∃ x, exec (.segmentPrefetch g w.slot) s = .next x ∧ x.here.otherHalf.valid = true ∧
          x.here.otherHalf.addr = segmentBase c.execHalf.next ∧ x.here.otherHalf.bundles = seg.bundles ∧
          x.here.otherHalf.next = seg.next ∧ x.here.half = c.half ∧ x.here.index = c.index ∧
          x.here.execHalf = c.execHalf ∧ x.here.sregs = c.sregs ∧ x.mem = s.mem))

/-- 13 R263, R265, R266: the boot doorbell. The direct path binds the record's context at once, result 0, or answers 1 where
the context, the core or its resources are not free; the other puts the record's entries, one for each core it names, at
the end of the queues of their cores, of the partition's swapped-out holders too, each with its member's stream (R263),
or answers 1 where one is full. No job for the function that holds the mailbox's cluster is result 3 (by that cluster: the
model's choice, log 107), a record that is not valid result 2, a job being lost result 1. Names BOOT_DOORBELL_DIRECT, BOOT_DOORBELL_ENQUEUE. -/
def Obligations.Doorbells : Prop :=
  ∀ (s : State) (f g : Nat) (pr : BitVec 2),
    let answered (x : State) (r : BitVec 8) : Prop :=
      (x.core g).bootResult = r ∧
      (x.core g).bootAccepted = (if r = 0 then (s.core g).bootAccepted + 1 else (s.core g).bootAccepted) ∧ x.mem = s.mem
    (s.doorbellJob f (clusterOf g) = none → ∀ b, s.doorbell f g b = .error 3) ∧
    (s.doorbellJob f (clusterOf g) = none ↔ ∀ e ∈ s.jobs, ¬ (e.2.en = true ∧ e.2.fv = true ∧ e.2.func.toNat = f ∧
      (s.part e.2.part.toNat).en = true ∧ (s.part e.2.part.toNat).clusters.getLsbD (clusterOf g) = true)) ∧
    (∀ j p b, s.doorbellJob f (clusterOf g) = some (j, p) →
      let l := padTo 128 (padTo 64 (s.core g).bootRec)
      let invalid := recordInvalid l (fun k => (s.part p).clusters.getLsbD k) = true ∨ placeCluster l ≠ clusterOf g ∨
        (b = true ∧ (placeGang l = true ∨ placeCores l ≠ [g]))
      (invalid → s.doorbell f g b = .error 2) ∧
      (¬ invalid → (s.job j).losing = true → s.doorbell f g b = .error 1) ∧
      (¬ invalid → (s.job j).losing = false → s.doorbell f g b = .ok (l, j, p))) ∧
    (∀ l j p b, s.doorbell f g b = .ok (l, j, p) → (s.job j).losing = false ∧
      (∃ y, (j, y) ∈ s.jobs ∧ y.en = true ∧ y.fv = true ∧ y.func.toNat = f ∧ y.part.toNat = p) ∧
      (s.part p).en = true ∧ (s.part p).clusters.getLsbD (clusterOf g) = true ∧
      (b = true → placeCores l = [g] ∧ placeGang l = false)) ∧
    (∀ r, r ≠ 0 → r < 256 → s.doorbell f g true = .error r → ∃ x, exec (.bootDoorbellDirect f g) s = .next x ∧
      answered x (BitVec.ofNat 8 r) ∧ ∀ w, x.ctx w = s.ctx w) ∧
    (∀ l j p, s.doorbell f g true = .ok (l, j, p) →
      ((s.hold g).part = some p → s.coreOff g = false → s.canBind g l = true →
        ∃ x, exec (.bootDoorbellDirect f g) s = .next x ∧ answered x 0 ∧ x.nextTask = s.nextTask + 1 ∧
          x.ctx ⟨g, placeSlot l⟩ = Ctx.launched
            { image := l, prio := 0, cls := 0, key := recKey l, stream := recWord l 32, logMode := placeLog l, member := 0,
              members := 1, owner := { part := p, job := j }, task := s.nextTask } ∧
          ∀ w, w ≠ ⟨g, placeSlot l⟩ → x.ctx w = s.ctx w) ∧
      ((s.hold g).part ≠ some p ∨ s.coreOff g = true ∨ s.canBind g l = false →
        ∃ x, exec (.bootDoorbellDirect f g) s = .next x ∧ answered x 1 ∧ ∀ w, x.ctx w = s.ctx w)) ∧
    (∀ l j p, s.doorbell f g false = .ok (l, j, p) →
      (∀ c ∈ placeCores l, (s.core c).cur.part = some p ∨ (s.core c).out.part = some p) →
      ((∀ c ∈ placeCores l, (s.partHold p c).queue.length < 32) →
        ∃ x, exec (.bootDoorbellEnqueue f g pr) s = .next x ∧ answered x 0 ∧
          x.nextTask = s.nextTask + (placeCores l).length ∧
          (∀ i c, (placeCores l)[i]? = some c → (x.partHold p c).queue = (s.partHold p c).queue ++
            [{ image := l, prio := pr.toNat, cls := pr.toNat, key := recKey l
               stream := if i = 0 then recWord l 32
                 else splitStream (recKey l) (recWord l 32) (BitVec.ofNat 32 (2 ^ 31 + i))
               logMode := placeLog l, member := i, members := (placeCores l).length
               owner := { part := p, job := j }, task := s.nextTask + i
               gang := if placeGang l then
                   some { lead := (placeCores l).headD 0, members := placeCores l, skew := placeSkew l }
                 else none }]) ∧
          x.agenda = (placeCores l).map (fun c => .event (.launchBind c)) ++ s.agenda ∧ ∀ w, x.ctx w = s.ctx w) ∧
      ((∃ c ∈ placeCores l, 32 ≤ (s.partHold p c).queue.length) →
        ∃ x, exec (.bootDoorbellEnqueue f g pr) s = .next x ∧ answered x 1 ∧ ∀ w, x.ctx w = s.ctx w)) ∧
    (∀ r, r ≠ 0 → r < 256 → s.doorbell f g false = .error r → ∃ x, exec (.bootDoorbellEnqueue f g pr) s = .next x ∧
      answered x (BitVec.ofNat 8 r) ∧ ∀ w, x.ctx w = s.ctx w)

/-! ## Jobs and partitions (12, 13, 15, 18, 19, 21) -/

/-- 18 R333: an invalidation request is counted and queued, while fewer than 64 of the job are pending; the oldest one
removes the job's translations of its range from every cluster TLB and walk cache, and no others, and completes once the
accesses that were on their way in that range then have been performed; one that started later does not hold it up.
Names JOB_INVAL, INVALIDATION_COMPLETE. -/
def Obligations.Invalidation : Prop :=
  ∀ (s : State) (j : Nat) (v : BitVec 64),
    (s.invalBusy (.jobInval j) = true → exec (.jobInval j v) s = .next s) ∧
    (s.invalBusy (.jobInval j) = true ↔ 64 ≤ (s.invalidations.filter (fun i => decide (i.job = j))).length) ∧
    (s.invalBusy (.jobInval j) = false → ∃ x, exec (.jobInval j v) s = .next x ∧ x.invalidations = s.invalidations ++ [{ job := j, v := v }] ∧
      x.job j = { s.job j with invReq := (s.job j).invReq + 1 } ∧ x.clusters = s.clusters ∧ x.mem = s.mem) ∧
    (∀ i t, s.invalidations = i :: t → i.dropped = false →
      let r := invalRange i.v
      ∃ x, exec .invalidationComplete s = .next x ∧
        (∀ c l, l ∈ (x.cluster c).tlb ↔ l ∈ (s.cluster c).tlb ∧ ¬ (l.job = i.job ∧ inRange r l.va (2 ^ l.bits) = true)) ∧
        (∀ c e, e ∈ x.walks.get [] c ↔
          e ∈ s.walks.get [] c ∧ ¬ (e.job = i.job ∧ inRange r e.va (2 ^ levelBits e.level) = true)) ∧
        ((s.accessesIn i.job r).any s.inFlight = false →
          x.invalidations = t ∧ (x.job i.job).invDone = (s.job i.job).invDone + 1) ∧
        ((s.accessesIn i.job r).any s.inFlight = true →
          x.invalidations = { i with dropped := true, waits := s.accessesIn i.job r } :: t ∧ x.jobs = s.jobs) ∧
        x.mem = s.mem) ∧
    (∀ i t, s.invalidations = i :: t → i.dropped = true →
      (i.waits.any s.inFlight = true → exec .invalidationComplete s = .next s) ∧
      (i.waits.any s.inFlight = false → ∃ x, exec .invalidationComplete s = .next x ∧ x.invalidations = t ∧
        (x.job i.job).invDone = (s.job i.job).invDone + 1 ∧ x.clusters = s.clusters ∧ x.mem = s.mem)) ∧
    (s.invalidations = [] → exec .invalidationComplete s = .next s)

/-- 12 R244, R248; 15 R307; 18 R334: a registration reads the descriptor in the HBM of the job's partition, once the
host holds none of its lines and no earlier command of the job waits for one (19 R341; the order among a job's commands
is the model's choice, log 78); where a snoop fails the result is 1 (the model's choice, log 94). Bytes outside that HBM,
poisoned or retired are no descriptor (log 88). A window homed here lies with its status words and its loss record in the
HBM of the job's partition (the model's choice, log 99). A well-formed one that overlaps nothing and finds room is added, result 0; otherwise nothing is, and the result is 1 for
a bad descriptor, 2 for an overlap, 3 for a full table. A window's status words at its home read zero; a tiered
range's pallets start low. 18 R334: a drop removes what it names, result 0, while no task of the job is resident or
queued, else result 4; what is not registered is result 1. Names REGISTER_REGION, REGISTER_WINDOW,
REGISTER_TIERED_RANGE, DROP_REGION, DROP_WINDOW, DROP_TIERED_RANGE. -/
def Obligations.Registrations : Prop :=
  (∀ (s : State) (j desc : Nat),
     let p := (s.job j).part.toNat
     let answer (x : State) (r : Nat) : Prop :=
       (x.job j).regSeq = (s.job j).regSeq + 1 ∧ (x.job j).regResult.toNat = r
     let nothing (i : Instr) (r : Nat) : Prop := ∃ x, exec i s = .next x ∧ answer x r ∧ x.mem = s.mem ∧
       (x.job j).regions = (s.job j).regions ∧ (x.job j).tiered = (s.job j).tiered ∧ x.parts = s.parts
     let behind := s.later.any (fun x => decide (commandJob x = some j))
     (behind = false → s.inHbm p desc = false ∨ s.inHbm p (desc + 127) = false ∨
         s.snoopingRange desc 128 = true ∧ s.snoopLost = true ∨
         s.snoopingRange desc 128 = false ∧ (s.retired desc = true ∨ s.poisonedRange desc 128 = true) →
       nothing (.registerRegion j desc) 1 ∧ nothing (.registerWindow j desc) 1 ∧ nothing (.registerTieredRange j desc) 1 ∧
       nothing (.dropRegion j desc) 1 ∧ nothing (.dropWindow j desc) 1 ∧ nothing (.dropTieredRange j desc) 1) ∧
     (behind = true ∨ s.inHbm p desc = true ∧ s.inHbm p (desc + 127) = true ∧ s.snoopingRange desc 128 = true ∧
         s.snoopLost = false →
       ∀ i ∈ [Instr.registerRegion j desc, .registerWindow j desc, .registerTieredRange j desc, .dropRegion j desc,
         .dropWindow j desc, .dropTieredRange j desc], exec i s = .next { s with later := s.later ++ [i] }) ∧
     (s.hasDescriptor j desc = true →
       let l := s.readBytes desc 128
       let b := fieldAt l 0 8
       let n := fieldAt l 8 8
       let w := parseWindow j l
       let t := parseTiered l
       (rangeOk b n = true → s.walksWait j b n = true →
         (s.snoopLost = false → exec (.registerRegion j desc) s = .next (s.putOff (.registerRegion j desc)) ∧
           exec (.registerTieredRange j desc) s = .next (s.putOff (.registerTieredRange j desc))) ∧
         (s.snoopLost = true → nothing (.registerRegion j desc) 1 ∧ nothing (.registerTieredRange j desc) 1)) ∧
       (rangeOk b n = false ∨ s.walksWait j b n = false → s.regionOk j l = false → nothing (.registerRegion j desc) 1) ∧
       (s.walksWait j b n = false → s.regionOk j l = true →
         let meets := (s.job j).meetsRegion b n = true ∨ (s.job j).meetsTiered b n = true
         (meets → nothing (.registerRegion j desc) 2) ∧
         (¬ meets → 64 ≤ (s.job j).regions.length → nothing (.registerRegion j desc) 3) ∧
         (¬ meets → (s.job j).regions.length < 64 → ∃ x, exec (.registerRegion j desc) s = .next x ∧ answer x 0 ∧
           (x.job j).regions = (s.job j).regions ++
             [{ base := b, size := n, span := fieldAt l 16 8, pool := fieldAt l 24 8, poolSize := fieldAt l 32 8 }] ∧
           x.mem = s.mem)) ∧
       (s.windowOk p w l = false → nothing (.registerWindow j desc) 1) ∧
       (s.windowOk p w l = true → s.windowWaits w = true →
         (s.snoopLost = false → exec (.registerWindow j desc) s = .next (s.putOff (.registerWindow j desc))) ∧
         (s.snoopLost = true → nothing (.registerWindow j desc) 1)) ∧
       (s.windowOk p w l = true → s.windowWaits w = false → s.windowMeets p w = true → nothing (.registerWindow j desc) 2) ∧
       (s.windowOk p w l = true → s.windowWaits w = false → s.windowMeets p w = false → 64 ≤ (s.part p).windows.length →
         nothing (.registerWindow j desc) 3) ∧
       (s.windowOk p w l = true → deviceOf w.base = s.difIndex.toNat → s.runInHbm p w.base w.span = true ∧
         s.runInHbm p w.status (8 * w.elements) = true ∧ s.runInHbm p w.loss 128 = true) ∧
       (s.windowOk p w l = true → s.windowWaits w = false → s.windowMeets p w = false → (s.part p).windows.length < 64 →
         ∃ x, exec (.registerWindow j desc) s = .next x ∧ answer x 0 ∧
           (x.part p).windows = (s.part p).windows ++ [w] ∧
           (∀ a, x.byte a = if deviceOf w.base = s.difIndex.toNat ∧ s.key w.status ≤ s.key a ∧
             s.key a < s.key w.status + 8 * w.elements then 0 else s.byte a)) ∧
       (rangeOk b n = false ∨ s.walksWait j b n = false → s.tieredOk j t l = false →
         nothing (.registerTieredRange j desc) 1) ∧
       (s.walksWait j b n = false → s.tieredOk j t l = true → s.tieredMeets j t = true →
         nothing (.registerTieredRange j desc) 2) ∧
       (s.walksWait j b n = false → s.tieredOk j t l = true → s.tieredMeets j t = false → ∃ x, exec (.registerTieredRange j desc) s = .next x ∧
         answer x 0 ∧ (x.job j).tiered = (s.job j).tiered ++ [t] ∧ (∀ k, (t.pallet k).st = .low) ∧
         (∀ a, t.size = 65536 → s.leafEntry j t.base = some a →
           x.readMem a 8 = s.readMem a 8 / 2 ^ 52 * 2 ^ 52 + t.low / 256 % 2 ^ 44 * 256 + s.readMem a 8 % 256)))) ∧
  (∀ (s : State) (j desc : Nat), s.hasDescriptor j desc = true →
     let p := (s.job j).part.toNat
     let b := fieldAt (s.readBytes desc 128) 0 8
     let answer (i : Instr) (r : Nat) (f : State → Prop) : Prop := ∃ x, exec i s = .next x ∧
       (x.job j).regSeq = (s.job j).regSeq + 1 ∧ (x.job j).regResult.toNat = r ∧ x.mem = s.mem ∧ f x
     let same (x : State) : Prop := (x.job j).regions = (s.job j).regions ∧ (x.job j).tiered = (s.job j).tiered ∧
       x.parts = s.parts
     (s.jobBusy j = true → answer (.dropRegion j desc) 4 same ∧ answer (.dropWindow j desc) 4 same ∧
       answer (.dropTieredRange j desc) 4 same) ∧
     (s.jobBusy j = false →
       ((∃ r ∈ (s.job j).regions, r.base = b) → answer (.dropRegion j desc) 0 (fun x =>
         (x.job j).regions = (s.job j).regions.filter (fun r => decide (r.base ≠ b)) ∧ x.parts = s.parts)) ∧
       ((∀ r ∈ (s.job j).regions, r.base ≠ b) → answer (.dropRegion j desc) 1 same) ∧
       ((∃ w ∈ (s.part p).windows, w.base = b) → answer (.dropWindow j desc) 0 (fun x =>
         (x.part p).windows = (s.part p).windows.filter (fun w => decide (w.base ≠ b)))) ∧
       ((∀ w ∈ (s.part p).windows, w.base ≠ b) → answer (.dropWindow j desc) 1 same) ∧
       ((∃ t ∈ (s.job j).tiered, t.base = b) → answer (.dropTieredRange j desc) 0 (fun x =>
         (x.job j).tiered = (s.job j).tiered.filter (fun t => decide (t.base ≠ b)))) ∧
       ((∀ t ∈ (s.job j).tiered, t.base ≠ b) → answer (.dropTieredRange j desc) 1 same)))

/-- 18 R326, R327; 19 R343, R348; 00 R8: writes of device registers. A write that its requester may not make changes
nothing; a partition's configuration changes only while it is disabled, else rej is set; a job's control fields change
only while it is disabled and idle; a write that starts an action puts that action next. Before stage 5 has ended the host
writes nothing but BOOT.CTL (24 R396). An export entry is taken when
it is not valid or lies in one enabled partition's HBM. An attestation request writes the report of the job with its
nonce to the buffer, once the host holds none of its lines; it is busy while an earlier one of the job waits; where the
snoop fails, or bytes of a nonce are poisoned or retired, the result is 1, the model's choice (logs 94 and 88). Names REGISTER_WRITE, JOB_CTL_WRITE,
DIF_EXPORT_WRITE, ATTESTATION_REQUEST. -/
def Obligations.RegisterWrites : Prop :=
  ∀ (s : State) (who : Requester) (off : Nat) (v : BitVec 64),
    (∀ r e, regAt off = some r → s.regRefusal who r true = some e → exec (.registerWrite who off v) s = .next s) ∧
    (∀ r, regAt off = some r → s.tooEarly who r true = true → exec (.registerWrite who off v) s = .next s) ∧
    (∀ r f, who = .host f → (s.tooEarly who r true = true ↔ s.sec.stage ≠ 5 ∧ r ≠ .bootCtl)) ∧
    (∀ r, regAt off = some r → s.regRefusal who r true = none → s.tooEarly who r true = false →
      ∃ x, exec (.registerWrite who off v) s = .next x ∧
      x.mem = s.mem ∧
      (∀ n, r = .partClusters n → x.part n = if (s.part n).en then { s.part n with rej := true }
        else { s.part n with clusters := v }) ∧
      (∀ n, r = .partHbm n → x.part n = if (s.part n).en then { s.part n with rej := true }
        else { s.part n with hbmCount := (v >>> 16).setWidth 10, hbmBase := v.setWidth 9 }) ∧
      (∀ n, r = .partCtl n → v.getLsbD 8 = true → (s.part n).en = false →
        x.agenda = .event (.partitionEnable n) :: s.agenda) ∧
      (∀ n, r = .partCtl n → v.getLsbD 8 = false → (s.part n).en = true →
        x.agenda = .event (.partitionDisable n) :: s.agenda) ∧
      (∀ j, r = .jobInval j → x = { s with agenda := .event (.jobInval j v) :: s.agenda }) ∧
      (∀ n, r = .rcv n .evRp → (x.part n) = { s.part n with evRp := v.setWidth 32 }) ∧
      (∀ g, r = .sys g 0x110 → (x.hold g).tvec = v &&& 0x80FFFFFFFFFFFFE0#64) ∧
      (∀ c n, r = .phy c (.lane n) → x = { s with agenda := .event (.phyLaneWrite c n v) :: s.agenda })) ∧
    (∀ j root, (s.job j).en = true ∨ s.jobBusy j = true → exec (.jobCtlWrite j root v) s =
      .next (s.updPart (s.job j).part.toNat (fun x => { x with rej := true }))) ∧
    (∀ j, (s.job j).en = false → s.jobBusy j = false →
      (∃ x, exec (.jobCtlWrite j true v) s = .next x ∧ x.job j = { s.job j with root := v.toNat % 2 ^ 52 / 2 ^ 20 * 2 ^ 20 } ∧
        x.parts = s.parts ∧ x.mem = s.mem) ∧
      (let set := s.updJob j (fun y => { y with fv := v.getLsbD 24, func := (v >>> 16).setWidth 8, en := v.getLsbD 8
                                                part := v.setWidth 6 })
       (set.funcClash = false → exec (.jobCtlWrite j false v) s = .next set) ∧
       (set.funcClash = true → ∃ x, exec (.jobCtlWrite j false v) s = .next x ∧ x.jobs = s.jobs ∧
         (x.part (v.toNat % 64)).rej = true))) ∧
    (∀ e : Nat,
      let x : Export := { v := v.getLsbD 63, w := v.getLsbD 62, tag := (v >>> 32).setWidth 16
                          count := (v >>> 16).setWidth 10, base := v.setWidth 9 }
      (x.v = false ∨ (s.exporter x).isSome = true →
        exec (.difExportWrite e v) s = .next { s with exports := s.exports.put e x }) ∧
      (x.v = true → s.exporter x = none → ∃ y, exec (.difExportWrite e v) s = .next y ∧ y.exports = s.exports ∧
        y.mem = s.mem)) ∧
    (∀ j,
      let buf := v.toNat % 2 ^ 52 / 4096 * 4096
      let ends (r : BitVec 8) (x : State) : Prop := (x.job j).attSeq = (s.job j).attSeq + 1 ∧ (x.job j).attResult = r
      (s.sec.erased = true → ∃ x, exec (.attestationRequest j v) s = .next x ∧ ends 3 x ∧ x.mem = s.mem) ∧
      let pending := s.later.any (fun x => decide (attestingJob x = some j))
      let here := s.runInHbm (s.job j).part.toNat buf 4096
      (s.sec.erased = false → pending = true →
        ∃ x, exec (.attestationRequest j v) s = .next x ∧ ends 2 x ∧ x.mem = s.mem) ∧
      (s.sec.erased = false → pending = false → here = false →
        ∃ x, exec (.attestationRequest j v) s = .next x ∧ ends 1 x ∧ x.mem = s.mem) ∧
      (s.sec.erased = false → pending = false → here = true → s.snoopingRange buf 2304 = true →
        (s.snoopLost = false →
          exec (.attestationRequest j v) s = .next { s with later := s.later ++ [.attestationRequest j v] }) ∧
        (s.snoopLost = true → ∃ x, exec (.attestationRequest j v) s = .next x ∧ ends 1 x ∧ x.mem = s.mem)) ∧
      (s.sec.erased = false → pending = false → here = true → s.snoopingRange buf 2304 = false →
        s.retired buf = true ∨ s.poisonedRange buf 64 = true →
        ∃ x, exec (.attestationRequest j v) s = .next x ∧ ends 1 x ∧ x.mem = s.mem) ∧
      (s.sec.erased = false → pending = false → here = true → s.snoopingRange buf 2304 = false → s.retired buf = false →
        s.poisonedRange buf 64 = false → ∃ x, exec (.attestationRequest j v) s = .next x ∧ ends 0 x ∧
          x.readBytes buf 2304 = (s.report j (s.readBytes buf 64)).take 2304))

/-- 18 R324, R327; 19 R346: enabling a partition whose configuration is acceptable gives it fresh keys, its cores beside
their other holder, whose counts of freezes leave with it (R322; the model's choice, log 98), leaves its HBM unreadable
and cuts the TLBs of its clusters to the shares; it runs where no other partition stands against it; otherwise nothing
changes but rej. Disabling one whose jobs have no task left takes it off its cores, with its keys and exports, and with
its windows, moves, losses, transfers and translations (the model's choice, log 32); with tasks left only rej is set. The contents of
its HBM afterwards are the model's choice (log 2). Names PARTITION_ENABLE, PARTITION_DISABLE. -/
def Obligations.PartitionEnabling : Prop :=
  ∀ (s : State) (p : Nat),
    let y := s.part p
    let forgotten (x : State) : Prop := ∀ a, x.byte a = if s.inHbm p a = true then 0 else s.byte a
    (y.en = true → exec (.partitionEnable p) s = .next s) ∧
    (y.en = false → s.canEnable p = false → exec (.partitionEnable p) s =
      .next (s.updPart p (fun z => { z with rej := true }))) ∧
    (y.en = false → s.canEnable p = true → ∃ x, exec (.partitionEnable p) s = .next x ∧ forgotten x ∧
      x.part p = { y with en := true, state := if s.mayRun p then 1 else 2, eventNo := 0, keyGen := y.keyGen + 1
                          keyLive := true } ∧
      (∀ q, q ≠ p → x.part q = s.part q) ∧
      (∀ g ∈ s.partCores p,
        ((s.hold g).part = none → (x.hold g).part = some p ∧ (x.hold g).halting = !(s.mayRun p)) ∧
        ((s.hold g).part ≠ none → s.mayRun p = true → (x.hold g).part = some p ∧
          (x.core g).out = { s.hold g with meters := (s.core g).meters }) ∧
        ((s.hold g).part ≠ none → s.mayRun p = false → x.hold g = s.hold g ∧ (x.core g).out.part = some p)) ∧
      (∀ g, g ∉ s.partCores p → x.hold g = s.hold g) ∧
      (∀ c ∈ clustersIn y.clusters, (x.cluster c).tlb.length ≤ x.tlbShare c)) ∧
    (y.en = true → s.partTasks p ≠ [] → exec (.partitionDisable p) s =
      .next (s.updPart p (fun z => { z with rej := true }))) ∧
    (y.en = true → s.partTasks p = [] → ∃ x, exec (.partitionDisable p) s = .next x ∧ forgotten x ∧
      x.part p = { y with en := false, state := 0, keyLive := false, windows := [], moves := [], losses := [] } ∧
      (∀ g ∈ s.partCores p, (s.core g).out.part ≠ some p → (x.hold g).part ≠ some p) ∧
      (∀ t ∈ x.transfers, t.part ≠ some p) ∧ (∀ c, ∀ l ∈ (x.cluster c).tlb, l.part ≠ p) ∧ x.walks.get [] p = [] ∧
      (∀ e, s.exporter (s.exports.get {} e) = some p → (x.exports.get {} e).v = false)) ∧
    (y.en = false → exec (.partitionDisable p) s = .next s)

/-- 21 R371 to R373: a swap-out stops issue on every core of a running partition, and completes at once for one that
does not run; a core whose accesses, and those of other cores to its rows, are settled halts, its engines' state goes to
its save slot and to no other byte of memory (the bytes of the slot are open, log 89), once the host holds none of its
lines (19 R341), and it changes places with the core's other holder; the last core's halt ends the command; once the engines are restored the instructions that waited
may issue. Names SWAP_OUT, CORE_HALTED, ENGINE_RESTORE_COMPLETE. -/
def Obligations.Swapping : Prop :=
  ∀ (s : State) (p g : Nat),
    let y := s.part p
    (y.state = 1 → ∃ x, exec (.swapOut p) s = .next x ∧ x.part p = { y with cmdBusy := true } ∧
      (∀ k ∈ s.partCores p, x.hold k = { s.hold k with halting := true, halted := false }) ∧ x.mem = s.mem) ∧
    (y.state ≠ 1 → exec (.swapOut p) s =
      .next (s.updPart p (fun z => { z with cmdBusy := false, cmdDone := z.cmdDone + 1 }))) ∧
    (let h := s.hold g
     let slot := y.mSave.toNat + 524288 * ((s.partCores p).filter (fun k => decide (k < g))).length
     h.part = some p → h.halting = true → h.halted = false → y.cmdBusy = true → y.state = 1 → s.quiet g = true →
      (s.core g).out.part ≠ some p → (s.saveWaits p g = true → exec (.coreHalted g) s = .next s) ∧
      (s.saveWaits p g = false → ∃ x, exec (.coreHalted g) s = .next x ∧
        (s.runInHbm p slot 524288 = false → x.mem = s.mem) ∧
        (∀ a, s.runInHbm p slot 524288 = true → s.key a < s.key slot ∨ s.key slot + 524288 ≤ s.key a →
          x.byte a = s.byte a) ∧
        ((s.core g).out.part = none → (x.hold g).part = some p ∧ (x.hold g).halted = true ∧
          (x.hold g).ctxs = h.ctxs ∧ (x.hold g).fast = h.fast) ∧
        ((s.core g).out.part ≠ none → (x.hold g).part = (s.core g).out.part ∧ (x.hold g).restoring = true ∧
          (x.core g).out.part = some p ∧ (x.core g).out.halted = true ∧ (x.core g).out.ctxs = h.ctxs) ∧
        ((∀ k ∈ s.partCores p, k ≠ g → (s.partHold p k).halted = true) →
          x.part p = { y with state := 2, cmdBusy := false, cmdDone := y.cmdDone + 1 }) ∧
        ((∃ k ∈ s.partCores p, k ≠ g ∧ (s.partHold p k).halted = false) → x.parts = s.parts))) ∧
    (∀ q, (s.hold g).part = some q → s.quiet g = false → exec (.coreHalted g) s = .next s) ∧
    (∃ x, exec (.engineRestoreComplete g) s = .next x ∧ (x.hold g).restoring = false ∧
      (∀ k, (x.ctx ⟨g, k⟩).waiting = false ∧ (x.ctx ⟨g, k⟩).sregs = (s.ctx ⟨g, k⟩).sregs) ∧
      (∀ k, k ≠ g → x.hold k = s.hold k) ∧ x.mem = s.mem)

/-- 21 R364 to R369; 13 R258: KILL_JOB and a handler's HALT lose a job: its contexts stop, its queued tasks leave, and a
record of its cause waits for the report; its contexts are freed and its unpublished versions leave at once where every
access that they issued has been performed, and otherwise, with the report, once they have. The report is written to the
event ring once there is room and the host holds no line of its place (19 R341), advances the write pointer, raises the
interrupt and ends the command; where the snoop fails the record is counted as lost (the model's choice, log 94). A
partition that issued nothing for the monitor's time gets one event of kind 3. The event codes are the model's choice (log 35). 21 R370, Table
21.7c; 08 R403: an uncorrectable error poisons the row or the 64-byte block it is in, or loses the job of the context
it is in (the shadow store of a swapped-out holder and the matrix unit's state included), or the job of the version list,
or, for state of no job, every enabled job of the partition that runs on the core, or of the swapped-out one; a corrected
error changes nothing but its count. Names KILL_JOB, HALT, LOSS_REPORT, PROGRESS_MONITOR_EXPIRY, UNCORRECTABLE_ERROR, CORRECTED_ERROR. -/
def Obligations.JobLoss : Prop :=
  (∀ (s : State) (p j : Nat),
     let y := s.part p
     let settled (w : Who) : Prop := (s.ctx w).loadQ = [] ∧ (s.ctx w).storeQ = [] ∧ (s.ctx w).remoteQ = []
     let lost (x : State) (cause : Nat) (sub : BitVec 8) : Prop :=
       (x.job j).losing = true ∧ x.agenda.head? = some (.event (.lossReport p)) ∧
       (∃ l, (x.part p).losses = y.losses ++ [l] ∧ l.job = j ∧ l.record.length = 256 ∧
         l.record.getD 1 0 = BitVec.ofNat 8 cause ∧ l.record.getD 2 0 = sub ∧
         (l.draining = true ↔ ∃ w ∈ s.jobContexts p j, ¬ settled w)) ∧
       (∀ g ∈ s.partCores p, ∀ e ∈ (x.hold g).queue, e.owner.boot = false → e.owner.job ≠ j) ∧
       ((∀ w ∈ s.jobContexts p j, settled w) → (∀ w ∈ s.jobContexts p j, (x.ctx w).resident = false) ∧
         ∀ r ∈ (x.job j).regions, ∀ v ∈ r.versions, v.published = true) ∧
       ((∃ w ∈ s.jobContexts p j, ¬ settled w) → ∀ w ∈ s.jobContexts p j, (x.ctx w).resident = true ∧
         (x.ctx w).stopped = true ∧ (x.ctx w).loadQ = (s.ctx w).loadQ ∧ (x.ctx w).storeQ = (s.ctx w).storeQ ∧
         (x.ctx w).remoteQ = (s.ctx w).remoteQ)
     let fresh : Prop := (s.job j).losing = false ∧ s.outCores p = [] ∧ ∀ q ∈ y.losses, q.job ≠ j
     (y.en = true → (s.job j).en = true → (s.job j).part.toNat = p → fresh →
       ∃ x, exec (.killJob p j) s = .next x ∧ lost x 53 0 ∧ (x.part p).cmdBusy = true) ∧
     ((s.job j).en = false ∨ (s.job j).part.toNat ≠ p ∨ (s.job j).losing = true → exec (.killJob p j) s =
       .next (s.updPart p (fun z => { z with cmdBusy := false, cmdDone := z.cmdDone + 1 }))) ∧
     (s.alive = true → s.here.priv = true → s.here.owner = { boot := false, part := p, job := j } →
       fresh → ∃ x, exec .halt s = .next x ∧ lost x 50 (s.here.cause.setWidth 8)) ∧
     (∀ l, y.losses = [l] → l.draining = true → s.outCores p = [] →
       ((∃ w ∈ s.jobContexts p l.job, ¬ settled w) → exec (.lossReport p) s = .next s) ∧
       ((∀ w ∈ s.jobContexts p l.job, settled w) → ∃ x, exec (.lossReport p) s = .next x ∧
         ∀ w ∈ s.jobContexts p l.job, (x.ctx w).resident = false)) ∧
     (∀ l more, y.losses = l :: more → (∀ q ∈ y.losses, q.draining = false) →
       let rest := y.losses.filter (fun q => decide (q.job ≠ l.job))
       let place (i : Nat) : Nat := y.pBase.toNat + 32 * ((y.pWp.toNat + i) % y.pEntries.toNat)
       let held := s.eventWaits p = true ∨ ∃ i, i < l.progress.length ∧ i < y.pEntries.toNat ∧
         s.snoopingRange (place i) 32 = true
       (y.eventRoom = false → exec (.lossReport p) s = .next s) ∧
       (y.eventRoom = true → held → s.snoopLost = false → exec (.lossReport p) s = .next s) ∧
       (y.eventRoom = true → held → s.snoopLost = true → ∃ x, exec (.lossReport p) s = .next x ∧
         (x.part p).losses = rest ∧ (x.part p).evLost = y.evLost + 1 ∧ (x.job l.job).losing = false ∧ x.mem = s.mem) ∧
       (y.eventRoom = true → ¬ held → l.record.length = 256 → ∃ x, exec (.lossReport p) s = .next x ∧
         (x.part p).losses = rest ∧ (x.part p).eventNo = y.eventNo + 1 ∧ (x.part p).evWp = y.evWp + 1 ∧
         x.msix = s.msix ++ [p] ∧ (x.job l.job).losing = false ∧
         (let r := x.readBytes (y.evBase.toNat + 256 * (y.evWp.toNat % y.evSlots.toNat)) 256
          r.take 3 = l.record.take 3 ∧ r.drop 64 = l.record.drop 64 ∧
            leNat ((r.drop 12).take 4) = (y.eventNo + 1).toNat ∧ leNat ((r.drop 60).take 4) = l.progress.length % 2 ^ 32) ∧
         (l.record.getD 1 0 = 53 → (x.part p).cmdBusy = false ∧ (x.part p).cmdDone = y.cmdDone + 1))) ∧
     (y.en = true → y.state = 1 → y.progmon ≠ 0 → y.idleReported = false → s.eventWaits p = false →
       ∃ x, exec (.progressMonitorExpiry p) s = .next x ∧ (x.part p).idleReported = true ∧
         (x.part p).eventNo = y.eventNo + 1 ∧ (y.eventRoom = false → (x.part p).evLost = y.evLost + 1 ∧ x.mem = s.mem) ∧
         (y.eventRoom = true → (x.part p).evWp = y.evWp + 1 ∧ x.msix = s.msix ++ [p] ∧
           (x.readBytes (y.evBase.toNat + 256 * (y.evWp.toNat % y.evSlots.toNat)) 256).take 2 = [3, 65])) ∧
     (y.en = false ∨ y.state ≠ 1 ∨ y.progmon = 0 ∨ y.idleReported = true → exec (.progressMonitorExpiry p) s = .next s)) ∧
  (∀ (s : State) (g r a k : Nat),
     let every (p : Nat) (x : State) : Prop :=
       (∀ j, (s.job j).en = true → (s.job j).part.toNat = p → (x.job j).losing = true ∧
         ((s.job j).losing = false → ∃ l ∈ (x.part p).losses, l.job = j ∧ l.record.getD 1 0 = 51)) ∧
       (∀ j, (s.job j).part.toNat ≠ p → x.job j = s.job j) ∧ (x.core g).eccState = (s.core g).eccState + 1 ∧ x.mem = s.mem
     (2048 ≤ r → r < 34816 → ∃ x, exec (.uncorrectableError (.bulk g r)) s = .next x ∧
       (x.core g).bulk.get invalidRow r = { (s.core g).bulk.get invalidRow r with poison := true } ∧
       (∀ n, n ≠ r → (x.core g).bulk.get invalidRow n = (s.core g).bulk.get invalidRow n) ∧
       (x.core g).eccRows = (s.core g).eccRows + 1 ∧ (∀ w, x.ctx w = s.ctx w) ∧ x.mem = s.mem) ∧
     (s.rowOk g r = true → ∃ x, exec (.uncorrectableError (.row g r)) s = .next x ∧
       x.row g r = { s.row g r with poison := true } ∧ (∀ n, n ≠ r → x.row g n = s.row g n) ∧
       (x.core g).eccRows = (s.core g).eccRows + 1 ∧ (∀ w, x.ctx w = s.ctx w) ∧ x.mem = s.mem) ∧
     (a < 2 ^ 39 → ∃ x, exec (.uncorrectableError (.hbm a)) s = .next x ∧ x.poisonedAt (s.physical a) = true ∧
       (∀ b, s.key b / 64 ≠ s.key (s.physical a) / 64 → x.poisonedAt b = s.poisonedAt b) ∧ x.mem = s.mem) ∧
     (let c := s.ctx ⟨g, k⟩
      let p := c.owner.part
      let j := c.owner.job
      (c.resident = false → exec (.uncorrectableError (.context g k)) s = exec (.uncorrectableError (.coreState g)) s) ∧
      (c.resident = true → c.owner.boot = false → (s.job j).losing = false → s.outCores p = [] →
        (∀ q ∈ (s.part p).losses, q.job ≠ j) → ∃ x, exec (.uncorrectableError (.context g k)) s = .next x ∧ (x.core g).eccState = (s.core g).eccState + 1 ∧
          (x.job j).losing = true ∧ x.agenda.head? = some (.event (.lossReport p)) ∧
          (∃ l, (x.part p).losses = (s.part p).losses ++ [l] ∧ l.job = j ∧ l.record.getD 1 0 = 51) ∧
          ∀ w ∈ s.jobContexts p j, (x.ctx w).resident = false ∨ (x.ctx w).stopped = true)) ∧
     ((s.hold g).part = none → exec (.uncorrectableError (.coreState g)) s =
       .next (s.updCore g (fun c => { c with eccState := c.eccState + 1 }))) ∧
     (∀ p, (s.hold g).part = some p → ∃ x, exec (.uncorrectableError (.coreState g)) s = .next x ∧ every p x) ∧
     (∀ p, (s.core g).out.part = some p → ∃ x, exec (.uncorrectableError (.shadow g none)) s = .next x ∧ every p x) ∧
     (∀ m, (s.matrix g).run = some m →
       exec (.uncorrectableError (.engine g)) s = exec (.uncorrectableError (.context g m.cmd.slot)) s) ∧
     (∀ e t, (s.matrix g).run = none → (s.matrix g).queue = e :: t →
       exec (.uncorrectableError (.engine g)) s = exec (.uncorrectableError (.context g e.slot)) s) ∧
     ((s.matrix g).run = none → (s.matrix g).queue = [] → (s.hold g).matrixHeld = false →
       exec (.uncorrectableError (.engine g)) s = exec (.uncorrectableError (.coreState g)) s) ∧
     ((s.core g).out.part = none → exec (.uncorrectableError (.shadow g none)) s =
       .next (s.updCore g (fun c => { c with eccState := c.eccState + 1 }))) ∧
     (let c := (s.core g).out.ctxs.get {} k
      c.resident = true → c.owner.boot = false → (s.job c.owner.job).losing = false →
        (∀ q ∈ (s.part c.owner.part).losses, q.job ≠ c.owner.job) → ∃ x, exec (.uncorrectableError (.shadow g (some k))) s = .next x ∧ (x.job c.owner.job).losing = true ∧
          ∃ l, (x.part c.owner.part).losses = (s.part c.owner.part).losses ++ [l] ∧ l.job = c.owner.job ∧
            l.record.getD 1 0 = 51) ∧
     ((s.job k).en = true → (s.job k).losing = false → ∃ x, exec (.uncorrectableError (.jobState k)) s = .next x ∧
       (x.job k).losing = true) ∧
     ((s.job k).en = false → exec (.uncorrectableError (.jobState k)) s = .next s) ∧
     exec (.correctedError g) s = .next (s.updCore g (fun c => { c with eccCorrected := c.eccCorrected + 1 })))

/-- 15 R308 to R311: a request to evict a high pallet joins the head of the partition's queue; the oldest request
begins its move, into a free frame of the pool for a promote, which keeps its place while a frame is being freed (that
policy 0 drops one without a frame is the model's choice, log 34); a move that completes puts the pallet's bytes at the
destination, changes its tier and its page's leaf; one whose source meets uncorrectable data is abandoned, in either
direction, and the low copy of an abandoned promote keeps poison (which of its blocks: the model's choice, log 95); one
that the host port or a line of the host holds up waits, and one whose snoop fails is abandoned (the model's choice, log
94). 19 R345: a low copy is stored under the partition's keys and the pallet's virtual address: the engine reads its
blocks under them on the way up and stores them so on the way down. The request with a deadline that has passed
is withdrawn while its move has not begun.
Names PALLET_EVICT, PALLET_MOVE_START, PALLET_MOVE_COMPLETE, PREF_DEADLINE_EXPIRY. -/
def Obligations.Pallets : Prop :=
  ∀ (s : State) (j va : Nat) (t : Tiered) (n : Nat), (s.job j).palletAt va = some (t, n) →
    let p := (s.job j).part.toNat
    let y := t.pallet n
    let now (x : State) (q : Pallet) : Prop := ∃ u, (x.job j).palletAt va = some (u, n) ∧ u.pallet n = q ∧
      ∀ m, m ≠ n → u.pallet m = t.pallet m
    (y.st = .high → ∃ x, exec (.palletEvict j va) s = .next x ∧
      (x.part p).moves = { id := (s.part p).moveCount, job := j, va := va, up := false, deadline := false } ::
        (s.part p).moves ∧ (x.part p).moveCount = (s.part p).moveCount + 1 ∧ x.jobs = s.jobs ∧ x.mem = s.mem) ∧
    (y.st = .movingUp → ∃ x, exec (.palletEvict j va) s = .next x ∧ now x { y with deferred := true } ∧ x.mem = s.mem) ∧
    (y.st = .low → exec (.palletEvict j va) s = .next s) ∧
    (∀ m more, (s.part p).moves = m :: more → m.job = j → m.va = va →
      (m.up = true → y.st = .low → ∀ f, t.freeFrame = some f → f < t.frames ∧
        ∃ x, exec (.palletMoveStart p) s = .next x ∧ (x.part p).moves = more ∧ x.mem = s.mem ∧
          now x { y with st := .movingUp, frame := f, restarts := 0, deferred := false, waiting := [] }) ∧
      (m.up = true → y.st = .low → t.freeFrame = none →
        (t.pallets.any (fun q => decide (q.2.st = .movingDown)) = true → ∃ x, exec (.palletMoveStart p) s = .next x ∧
          (x.part p).moves = m :: more ∧ x.jobs = s.jobs ∧ x.mem = s.mem) ∧
        (t.pallets.any (fun q => decide (q.2.st = .movingDown)) = false → t.policy = 0 →
          exec (.palletMoveStart p) s = .next (s.updPart p (fun q => { q with moves := more })))) ∧
      (m.up = false → y.st = .high → ∃ x, exec (.palletMoveStart p) s = .next x ∧ (x.part p).moves = more ∧
        x.mem = s.mem ∧ now x { y with st := .movingDown, restarts := 0, deferred := false, waiting := [] })) ∧
    (let low := t.low + 65536 * n
     let high := t.pool + 65536 * y.frame
     let tier (i : Nat) : Option Seal := some (s.tierSeal j (va / 65536 * 65536 + 64 * i))
     let opened := s.openLow j va low
     let moved (o x : State) (src dst : Nat) : Prop :=
       let z := o.copyPallet src dst
       (src % 65536 = 0 → dst % 65536 = 0 → ∀ i, i < 65536 → z.byte (dst + i) = o.byte (src + i)) ∧
       ∀ a, (∀ e, z.leafEntry j (va / 65536 * 65536) = some e → s.key a < s.key e ∨ s.key e + 8 ≤ s.key a) →
         x.byte a = z.byte a
     let free := s.hostUp = true ∧ s.moveSnoops j va high = false
     y.waiting = [] →
     (low % 65536 = 0 → ∀ i, i < 1024 → opened.readBytes (low + 64 * i) 64 = s.lineAs (tier i) (low + 64 * i)) ∧
     (∀ a, (∀ i, i < 65536 → s.key a ≠ s.key (low + i)) → low % 65536 = 0 → opened.byte a = s.byte a) ∧
     (y.st = .movingUp → free → s.poisonedRange low 65536 = false →
       ∃ x, exec (.palletMoveComplete j ⟨va, false⟩) s = .next x ∧ moved opened x low high ∧
       now x { y with st := .high, restarts := 0, deferred := false, promoted := t.clock }) ∧
     (y.st = .movingUp → free → ∃ x, exec (.palletMoveComplete j ⟨va, true⟩) s = .next x ∧
       now x { y with st := .low, frame := 0, restarts := 0, deferred := false } ∧ x.mem = s.mem ∧
       ∃ i, i < 65536 ∧ x.poisonedAt (low + i) = true) ∧
     (y.st = .movingUp → free → s.poisonedRange low 65536 = true →
       ∃ x, exec (.palletMoveComplete j ⟨va, false⟩) s = .next x ∧
         now x { y with st := .low, frame := 0, restarts := 0, deferred := false } ∧ x.mem = s.mem) ∧
     (∀ bad, s.moveSnoops j va high = true → s.snoopLost = true →
       (y.st = .movingUp → ∃ x, exec (.palletMoveComplete j ⟨va, bad⟩) s = .next x ∧
         now x { y with st := .low, frame := 0, restarts := 0, deferred := false } ∧ x.mem = s.mem) ∧
       (y.st = .movingDown → ∃ x, exec (.palletMoveComplete j ⟨va, bad⟩) s = .next x ∧
         now x { y with st := .high, restarts := 0, deferred := false } ∧ x.mem = s.mem)) ∧
     (∀ bad, (y.st = .movingUp ∨ y.st = .movingDown ∧ s.poisonedRange high 65536 = false ∧ s.retired high = false) →
       ¬ free → s.snoopLost = false → exec (.palletMoveComplete j ⟨va, bad⟩) s = .next s) ∧
     (∀ bad, y.st = .movingDown → free → s.poisonedRange high 65536 = false → s.retired high = false →
       ∃ x, exec (.palletMoveComplete j ⟨va, bad⟩) s = .next x ∧ moved s x high low ∧
         (low % 65536 = 0 → ∀ i, i < 1024 → x.sealAt (low + 64 * i) = tier i) ∧
         now x { y with st := .low, frame := 0, restarts := 0, deferred := false }) ∧
     (∀ bad, y.st = .movingDown → s.poisonedRange high 65536 = true ∨ s.retired high = true →
       ∃ x, exec (.palletMoveComplete j ⟨va, bad⟩) s = .next x ∧
         now x { y with st := .high, restarts := 0, deferred := false } ∧ x.mem = s.mem)) ∧
    (∀ k, ∃ x, exec (.prefDeadlineExpiry j k) s = .next x ∧ (x.part p).moves = (s.part p).moves.filter (fun m =>
      !(decide (m.job = j) && decide (m.id = k) && m.up && m.deadline)) ∧ x.jobs = s.jobs ∧ x.mem = s.mem)

/-! ## Heat, ageing, the host, links, PHYs and reset (08, 12, 15, 19, 22, 24) -/

/-- 08 R178, R182 to R185: a tick of a cluster's clock ages every group of its cores by one, up to 255; a group of an
expire class whose age reaches the class threshold, and any group at age 255, becomes invalid with age 0; under a
refresh class a group at its threshold requests a refresh, and a request stays but after a change of class; a written
class table comes into force at the tick; the refresh of the 64 rows of a group ends with its age the ticks it took and
counts one served, the running and the swapped-out holder each in a slot of its own (18 R328); invalidation and class
setting act on one group of the holder, an invalidation of rows that a command declares waits, and a class written
behind it waits with it. Names
RETENTION_TICK, REFRESH_ROW_REWRITE, GCTL_INVALIDATE, GCTL_SET_CLASS. -/
def Obligations.Ageing : Prop :=
  ∀ (s : State) (c g n : Nat) (k : BitVec 3),
    ((s.cluster c).band = 15 → exec (.retentionTick c) s = .next s) ∧
    (s.sec.diesStopped = true → exec (.retentionTick c) s = .next s ∧ exec (.refreshRowRewrite g) s = .next s ∧
      exec (.gctlInvalidate g n) s = .next s ∧ exec (.gctlSetClass g n k) s = .next s) ∧
    ((s.cluster c).band ≠ 15 → s.sec.diesStopped = false → clusterOf g = c → ∃ x, exec (.retentionTick c) s = .next x ∧ x.mem = s.mem ∧
      (∀ w, x.ctx w = s.ctx w) ∧ (x.hold g).forceA = (s.hold g).lclassA ∧ (x.hold g).forceB = (s.hold g).lclassB ∧
      (∀ p, p < 512 → s.outOwns g p = false → ((s.core g).groups.get {} p).age ≤ 255 →
        let old := (s.core g).groups.get {} p
        let age := min 255 (old.age + 1)
        let cls := (s.hold g).takeClasses.cls old.cls
        let new := (x.core g).groups.get {} p
        ((cls.2 = false ∧ cls.1 ≤ age) ∨ age = 255 → new.age = 0 ∧ new.mask = 0 ∧ new.req = false ∧
          ∀ r, (r - 2048) / 64 = p → (x.core g).bulk.get invalidRow r = invalidRow) ∧
        (¬ ((cls.2 = false ∧ cls.1 ≤ age) ∨ age = 255) → new = { old with
            age := age, req := cls.2 && decide (cls.1 ≤ age) || old.req && !old.reclassed, reclassed := false } ∧
          ∀ r, (r - 2048) / 64 = p → (x.core g).bulk.get invalidRow r = (s.core g).bulk.get invalidRow r))) ∧
    (∀ r, (s.hold g).refresh = some r → s.sec.diesStopped = false →
      (r.row < 63 → ∃ x, exec (.refreshRowRewrite g) s = .next x ∧
        x.hold g = { s.hold g with refresh := some { r with row := r.row + 1 } } ∧
        (∀ m, x.row g m = s.row g m) ∧ x.mem = s.mem) ∧
      (r.row = 63 → (∀ q, (s.core g).out.refresh = some q → q.group ≠ r.group) →
        ∃ x, exec (.refreshRowRewrite g) s = .next x ∧
        x.hold g = { s.hold g with refresh := none, retServed := (s.hold g).retServed + 1 } ∧
        (x.core g).groups.get {} r.group =
          { (s.core g).groups.get {} r.group with age := r.ticks, mask := 0, req := false } ∧
        (∀ m, x.row g m = s.row g m) ∧ x.mem = s.mem)) ∧
    (∀ r, (s.core g).out.refresh = some r → r.row < 63 → s.sec.diesStopped = false →
      ∃ x, exec (.refreshRowRewrite g) s = .next x ∧
        (x.core g).out = { (s.core g).out with refresh := some { r with row := r.row + 1 } }) ∧
    (s.groupOwned g n = true → s.sec.diesStopped = false →
      let p := s.physGroup g n
      ((∀ e ∈ (s.core g).gctlWait, e.1 ≠ p) → ∃ x, exec (.gctlSetClass g n k) s = .next x ∧
        (x.core g).groups.get {} p = { (s.core g).groups.get {} p with cls := k, reclassed := true } ∧
        (∀ m, x.row g m = s.row g m) ∧ x.mem = s.mem) ∧
      (∀ o, (p, o) ∈ (s.core g).gctlWait → ∃ x, exec (.gctlSetClass g n k) s = .next x ∧
        (p, some k) ∈ (x.core g).gctlWait ∧ (x.core g).groups = (s.core g).groups ∧ x.mem = s.mem) ∧
      ((s.hold g).groupDeclared n = true → (s.core g).gctlWait = [] → ∃ x, exec (.gctlInvalidate g n) s = .next x ∧
        (x.core g).gctlWait = [(p, none)] ∧ (x.core g).groups = (s.core g).groups ∧ (x.core g).bulk = (s.core g).bulk) ∧
      ((s.hold g).groupDeclared n = false → s.groupUsed (s.core g).out p = false → ∃ x, exec (.gctlInvalidate g n) s = .next x ∧
        (∀ i, i < 64 → (x.row g (2048 + 64 * n + i)).valid = false) ∧ ((x.core g).groups.get {} p).age = 0 ∧
        (∀ m, m < 2048 → x.row g m = s.row g m) ∧ x.mem = s.mem))

/-- 08 R178; 15 R302 to R306: a temperature sample puts a cluster into a warmer band at once; a thermal interval above
the hot threshold lowers the cluster's cap below the greatest effective point of its islands, and one 5 degrees below
it raises the cap by one; a reading below -25 or above 125 degrees raises the alarm of sensor 2 (19 Table 19.6); a
transition that settles leaves its islands ready for the next, and its clock switch, first on the way down and last on
the way up, freezes the core for 16 cycles, in which its current window slides (R300), and a core that waited for it does
so no more; nothing settles while the dies are stopped; the package trip stops the compute dies and loses the bulk store. Names TEMPERATURE_SAMPLE, THERMAL_INTERVAL, OP_TRANSITION_SETTLE, PACKAGE_TRIP.
-/
def Obligations.Heat : Prop :=
  ∀ (s : State) (c g : Nat) (t : Int),
    (bandOf 40000 = 0 ∧ bandOf 40001 = 1 ∧ bandOf 45000 = 1 ∧ bandOf 110000 = 14 ∧ bandOf 110001 = 15) ∧
    (t < -25000 ∨ 125000 < t →
      (∃ x, exec (.temperatureSample c t) s = .next x ∧ x.sec.active = true ∧ x.sec.sensors = s.sec.sensors ||| 4) ∧
      (∃ x, exec (.thermalInterval c t) s = .next x ∧ x.sec.active = true ∧ x.sec.sensors = s.sec.sensors ||| 4)) ∧
    (-25000 ≤ t → t ≤ 125000 → ∃ x, exec (.temperatureSample c t) s = .next x ∧ x.mem = s.mem ∧ x.cores = s.cores ∧
      ((s.cluster c).band < bandOf t → (x.cluster c).band = bandOf t) ∧
      ((s.cluster c).band = bandOf t → (x.cluster c).band = (s.cluster c).band) ∧
      (bandOf t = 15 → x.agenda = .event .packageTrip :: s.agenda) ∧ (bandOf t ≠ 15 → x.agenda = s.agenda)) ∧
    (let cl := s.cluster c
     let hot : Int := 1000 * cl.hot.toNat
     (-25000 ≤ t ∧ t ≤ 125000) →
     (hot < t → 0 < s.maxPoint c → s.maxPoint c ≤ 7 → ∃ x, exec (.thermalInterval c t) s = .next x ∧
       (x.cluster c).tcap.toNat = s.maxPoint c - 1 ∧ x.mem = s.mem ∧ ∀ w, x.ctx w = s.ctx w) ∧
     (hot < t → s.maxPoint c = 0 → cl.hotwait = false → ∃ x, exec (.thermalInterval c t) s = .next x ∧
       (x.cluster c).events = cl.events + 1 ∧ (x.cluster c).hotwait = true ∧
       ∀ p, s.runningOn c = some p → (x.part p).eventNo = (s.part p).eventNo + 1) ∧
     (t < hot - 5000 → cl.tcap.toNat < 7 → ∃ x, exec (.thermalInterval c t) s = .next x ∧
       (x.cluster c).tcap = cl.tcap + 1 ∧ x.mem = s.mem ∧ ∀ w, x.ctx w = s.ctx w) ∧
     (hot - 5000 ≤ t → t ≤ hot → exec (.thermalInterval c t) s = .next s)) ∧
    (s.sec.diesStopped = true → exec (.opTransitionSettle g) s = .next s) ∧
    ((s.core g).opBusy = true → s.gangOn g = none → s.sec.diesStopped = false → ∃ x, exec (.opTransitionSettle g) s = .next x ∧
      (x.core g).opWait = false ∧
      ((s.core g).opEff.toNat = s.effectivePoint g → (x.core g).opBusy = false ∧ (x.core g).opEff = (s.core g).opEff ∧
        (x.core g).freezeTransition = (s.core g).freezeTransition + (if (s.core g).opUp then 16 else 0) ∧
        (x.core g).window = (if (s.core g).opUp then (List.replicate 16 0 ++ (s.core g).window).take 64
          else (s.core g).window)) ∧
      ((s.core g).opEff.toNat ≠ s.effectivePoint g → (x.core g).opBusy = true ∧
        (x.core g).opEff = BitVec.ofNat 3 (s.effectivePoint g) ∧
        (x.core g).freezeTransition = (s.core g).freezeTransition + (if (s.core g).opUp then 16 else 0) +
          (if (s.core g).opEff.toNat < s.effectivePoint g then 0 else 16)) ∧
      (∀ w, x.ctx w = s.ctx w) ∧ x.mem = s.mem) ∧
    ((s.core g).opBusy = false → exec (.opTransitionSettle g) s = .next s) ∧
    (∃ x, exec .packageTrip s = .next x ∧ x.sec.diesStopped = true ∧ x.sec.result = 4 ∧ (∀ h, x.coreOff h = true) ∧
      (∀ h m, 2048 ≤ m → (x.row h m).valid = false) ∧ (∀ w, x.ctx w = s.ctx w) ∧ x.mem = s.mem)

/-- 19 R336 to R341; 08 R403: host accesses of local HBM that the function may make, or, with 256 for it, that come through
a decoder (the model's choice, log 90), once stage 5 has ended: a write
leaves its bytes and no other change of memory, poisoned data poisons its blocks; a read is answered with the bytes,
one of poisoned or retired bytes with a poisoned completion of the same length; an atomic writes the new value and is
answered with the old one. A register write is performed whether or not its data are marked poisoned (the model's choice,
log 47). What the function may not reach is answered Unsupported Request, or, for a write, dropped.
A back-invalidation response takes the line out of the host's cache and writes it back, no read gives its older bytes any
more (20 R353), and the job commands that waited come next, shown where nothing else waits for a line; a decoder is committed in CXL
mode for a range in one enabled partition's HBM. Names HOST_POSTED_WRITE, HOST_READ, HOST_ATOMIC_OP,
BACK_INVALIDATION_RESPONSE, HDM_DECODER_COMMIT. -/
def Obligations.HostAccesses : Prop :=
  ∀ (s : State) (f a n : Nat), s.hostUp = true →
    let reached := s.booted = true ∧ s.hostHbm f a n = true
    let pa := s.physical a
    let replied (x : State) (d : Option (List Byte)) (poison : Bool) : Prop :=
      x.replies = s.replies ++ [⟨f, d, poison⟩] ∧ x.mem = s.mem ∧ x.cores = s.cores
    (∀ d poison, d.length = n → n ≠ 0 → regOf a n = none → reached → s.retiredRun a n = false →
      ∃ x, exec (.hostPostedWrite f a d poison) s = .next x ∧ x.readBytes pa n = d ∧
        (∀ b, s.key b < s.key pa ∨ s.key pa + n ≤ s.key b → x.byte b = s.byte b) ∧
        (poison = true → ∀ b ∈ blocksOf a n, x.poisonedAt (s.physical (64 * b)) = true) ∧ x.cores = s.cores) ∧
    (∀ d poison, d.length = n → n ≠ 0 → regOf a n = none → ¬ reached →
      ∃ x, exec (.hostPostedWrite f a d poison) s = .next x ∧ x.mem = s.mem ∧ x.cores = s.cores) ∧
    (n ≠ 0 → regOf a n = none →
      (reached → s.retiredRun a n = false → s.poisonedRange pa n = false →
        ∃ x, exec (.hostRead f a n) s = .next x ∧ replied x (some (s.readBytes pa n)) false) ∧
      (reached → s.retiredRun a n = true ∨ s.poisonedRange pa n = true →
        ∃ x d, exec (.hostRead f a n) s = .next x ∧ d.length = n ∧ replied x (some d) true) ∧
      (¬ reached → ∃ x, exec (.hostRead f a n) s = .next x ∧ replied x none false)) ∧
    (∀ r, regOf a n = some r →
      (s.hostReg f r false = true → ∃ x, exec (.hostRead f a n) s = .next x ∧
        replied x (some (toBytes 8 (s.regValue r).toNat)) false) ∧
      (s.hostReg f r false = false → n ≠ 0 → ∃ x, exec (.hostRead f a n) s = .next x ∧ replied x none false) ∧
      (∀ d poison, d.length = n →
        (s.hostReg f r true = true → s.invalBusy r = false → exec (.hostPostedWrite f a d poison) s =
          .next (s.regWrite (.host f) r (BitVec.ofNat 64 (leNat d)))) ∧
        (s.hostReg f r true = false ∨ s.invalBusy r = true → exec (.hostPostedWrite f a d poison) s = .next s))) ∧
    (∀ (op : HostAtomic) (v w : BitVec 64), n = 4 ∨ n = 8 → a % n = 0 → reached → s.retiredRun a n = false →
      s.poisonedRange pa n = false →
      let old := s.readMem pa n
      let m := 2 ^ (8 * n)
      ∃ x, exec (.hostAtomicOp f op a n v w) s = .next x ∧ x.replies = s.replies ++ [⟨f, some (toBytes n old), false⟩] ∧
        x.readMem pa n = (match op with
          | .fetchAdd => (old + v.toNat) % m
          | .swap => v.toNat % m
          | .cas => if old = v.toNat % m then w.toNat % m else old) ∧
        (∀ b, s.key b < s.key pa ∨ s.key pa + n ≤ s.key b → x.byte b = s.byte b)) ∧
    (∀ (op : HostAtomic) (v w : BitVec 64), n = 4 ∨ n = 8 → a % n = 0 → reached →
      s.retiredRun a n = true ∨ s.poisonedRange pa n = true →
      ∃ x d, exec (.hostAtomicOp f op a n v w) s = .next x ∧ d.length = n ∧ replied x (some d) true) ∧
    (∀ (op : HostAtomic) (v w : BitVec 64), ¬ reached ∨ (n ≠ 4 ∧ n ≠ 8) ∨ a % n ≠ 0 →
      ∃ x, exec (.hostAtomicOp f op a n v w) s = .next x ∧ replied x none false) ∧
    (∀ (k : Nat) (l : List Byte), s.hostLines.contains k = true → l.length = 64 →
      ∃ x, exec (.backInvalidationResponse k l) s = .next x ∧ x.hostLines.contains k = false ∧
        (s.openRounds = [] → s.difWaiting = [] → (∀ p ∈ s.parts, p.2.evWaiting = []) →
          x.readBytes (s.physical (64 * k)) 64 = l ∧ x.later = [] ∧ x.agenda = s.later.map Act.event ++ s.agenda ∧
          ∀ w i m, i < 64 → (x.ctx w).past (s.key (s.physical (64 * k)) + i) m = none) ∧ (∀ h, h ≠ k → x.hostLines.contains h = s.hostLines.contains h)) ∧
    (∀ (d b : Nat), exec (.hdmDecoderCommit d b n) s = .next (if s.sec.hmode = true ∧ 0 < n ∧
      (∃ p ∈ s.parts, p.2.en = true ∧ p.2.holds b n = true) then { s with hdm := s.hdm.put d (some (b, n)) } else s))

/-- 19 R342, R344; 12 R245 to R247; 22 R386 to R389: requests of other devices, while a port is up: one that no valid
export entry with its tag covers is answered "permission"; a read, a write and an atomic are performed and answered; one
that meets a line that the host may hold waits (19 R341), and where its snoop fails is answered "link lost" (the model's
choice, log 94); a contribution that some export entry with w = 1 covers (it carries no tag, log 91) opens its round, one
to a round that is closed is answered "link lost", and one into a retired frame "poisoned" (08 R403). Ports come up and
die, each with an update on the ports that are up, the port's epochs counting from 0 (the model's choice, log 48) and its
first coming up none; a flit retry changes nothing; an update is sent on once, on the ports that are up; that of a dead
port cuts devices off at once and takes effect after three rounds, on the requests that no later update covers, and that
of a live one brings its participants back. Names
DIFOSAL_REQUEST, WINDOW_CONTRIBUTION, PORT_UP, PORT_DEAD, FLIT_RETRY, LINK_STATE_UPDATE, TIMEOUT_ROUND. -/
def Obligations.Links : Prop :=
  ∀ (s : State) (src : Nat) (tag : BitVec 16),
    (s.difEn = true → s.difUp ≠ 0 →
      (∀ r, s.exported tag (s.difTarget r).1 (s.difTarget r).2.1 (s.difTarget r).2.2 = false →
        exec (.difosalRequest src tag r) s = .next { s with difReplies := s.difReplies ++ [⟨src, 23, []⟩] }) ∧
      (∀ r, s.exported tag (s.difTarget r).1 (s.difTarget r).2.1 (s.difTarget r).2.2 = true →
        s.snoopingRange (s.physical (s.difTarget r).1) (s.difTarget r).2.1 = true →
        (s.snoopLost = false → exec (.difosalRequest src tag r) s =
          .next { s with difWaiting := s.difWaiting ++ [(src, tag, r)] }) ∧
        (s.snoopLost = true → exec (.difosalRequest src tag r) s =
          .next { s with difReplies := s.difReplies ++ [⟨src, 20, []⟩], foreign := [] })) ∧
      (∀ a n, s.exported tag a n false = true → (∀ b ∈ blocksOf a n, s.hostLines.contains b = false) →
        s.retiredRun a n = false → s.poisonedRange (s.physical a) n = false →
        exec (.difosalRequest src tag (.read a n)) s =
          .next { s with difReplies := s.difReplies ++ [⟨src, 0, s.readBytes (s.physical a) n⟩] }) ∧
      (∀ a l, s.exported tag a l.length true = true → (∀ b ∈ blocksOf a l.length, s.hostLines.contains b = false) →
        s.retiredRun a l.length = false → ∃ x, exec (.difosalRequest src tag (.write a l)) s = .next x ∧
          x.readBytes (s.physical a) l.length = l ∧ x.difReplies = s.difReplies ++ [⟨src, 0, []⟩] ∧
          (∀ b, s.key b < s.key (s.physical a) ∨ s.key (s.physical a) + l.length ≤ s.key b → x.byte b = s.byte b)) ∧
      (∀ a (v w : Word), s.exported tag a 8 true = true → (∀ b ∈ blocksOf a 8, s.hostLines.contains b = false) →
        s.retiredRun a 8 = false → s.poisonedRange (s.physical a) 8 = false →
        let old := s.readMem (s.physical a) 8
        ∃ x, exec (.difosalRequest src tag (.atomic 0x08 a 8 v w)) s = .next x ∧
          x.readMem (s.physical a) 8 = (old + v.toNat) % 2 ^ 64 ∧
          x.difReplies = s.difReplies ++ [⟨src, 0, toBytes 8 old⟩])) ∧
    (∀ p e k w (v : BitVec 64), s.homeWindow p w.wid src e = some w → s.difEn = true → s.difUp ≠ 0 →
      s.exports.any (fun z => s.exported z.2.tag (localOf w.base + e * w.width) w.width true) = false →
      exec (.windowContribution p w.wid src e k v) s = .next { s with difReplies := s.difReplies ++ [⟨src, 23, []⟩] }) ∧
    (∀ p e k w (v : BitVec 64), s.homeWindow p w.wid src e = some w → s.difEn = true → s.difUp ≠ 0 →
      s.exports.any (fun z => s.exported z.2.tag (localOf w.base + e * w.width) w.width true) = true →
      s.retired (w.base + e * w.width) = true →
      exec (.windowContribution p w.wid src e k v) s = .next { s with difReplies := s.difReplies ++ [⟨src, 12, []⟩] }) ∧
    (∀ p e k w (v : BitVec 64), s.homeWindow p w.wid src e = some w → s.difEn = true → s.difUp ≠ 0 →
      s.exports.any (fun z => s.exported z.2.tag (localOf w.base + e * w.width) w.width true) = true →
      s.retired (w.base + e * w.width) = false → w.rounds = [] → w.closed.get 0 e = k → (∃ d ∈ w.members, d ≠ src ∧ s.cutOff.contains d = false) →
      ∃ x u, exec (.windowContribution p w.wid src e k v) s = .next x ∧ u ∈ (x.part p).windows ∧ u.wid = w.wid ∧
        u.rounds = [⟨e, k, [(src, v)], []⟩] ∧ x.mem = s.mem ∧
        x.difReplies = s.difReplies ++ [⟨src, 0, toBytes 8 (k % 2 ^ 32)⟩]) ∧
    (∀ p e k w (v : BitVec 64), s.homeWindow p w.wid src e = some w → s.difEn = true → s.difUp ≠ 0 →
      s.exports.any (fun z => s.exported z.2.tag (localOf w.base + e * w.width) w.width true) = true →
      s.retired (w.base + e * w.width) = false → k < w.closed.get 0 e →
      exec (.windowContribution p w.wid src e k v) s = .next { s with difReplies := s.difReplies ++ [⟨src, 20, []⟩] }) ∧
    (∀ port, port < 18 →
      (s.difUp.getLsbD port = true → exec (.portUp port) s = .next s) ∧
      (s.difUp.getLsbD port = false → ∃ x, exec (.portUp port) s = .next x ∧
        x.difUp = s.difUp ||| BitVec.ofNat 18 (2 ^ port) ∧ x.cores = s.cores ∧ x.mem = s.mem ∧
        (s.portEpochs.get 0 port = 0 → x.sentUpdates = s.sentUpdates ∧ x.portEpochs = s.portEpochs) ∧
        (s.portEpochs.get 0 port ≠ 0 → x.portEpochs.get 0 port = s.portEpochs.get 0 port + 1 ∧
          x.sentUpdates = s.sentUpdates ++
            [⟨s.difIndex.toNat, port, BitVec.ofNat 16 (s.portEpochs.get 0 port), true, x.difUp⟩])) ∧
      (s.difUp.getLsbD port = true → ∃ x, exec (.portDead port) s = .next x ∧
        x.difUp = s.difUp &&& ~~~(BitVec.ofNat 18 (2 ^ port)) ∧
        (x.difUp ≠ 0 → x.sentUpdates = s.sentUpdates ++
          [⟨s.difIndex.toNat, port, BitVec.ofNat 16 (s.portEpochs.get 0 port), false, x.difUp⟩]) ∧
        (x.difUp = 0 → x.sentUpdates = s.sentUpdates) ∧
        x.portEpochs.get 0 port = s.portEpochs.get 0 port + 1 ∧ x.cores = s.cores ∧ x.mem = s.mem) ∧
      exec (.flitRetry port) s = .next s) ∧
    (∀ party port ep affected cut, s.seenUpdates.contains (party, port, ep) = false →
      (∃ x u, exec (.linkStateUpdate party port ep false affected cut) s = .next x ∧ x.updates = s.updates ++ [u] ∧
        u.affected = affected ∧ u.round = 0 ∧ u.sent = s.sentRequests ∧ u.rounds = s.openRounds ∧
        x.cutOff = s.cutOff ++ cut.filter (fun d => !(s.cutOff.contains d)) ∧
        (s.difUp ≠ 0 → x.sentUpdates = s.sentUpdates ++ [⟨party, port, ep, false, s.difUp⟩]) ∧
        (s.difUp = 0 → x.sentUpdates = s.sentUpdates) ∧ x.seenUpdates = s.seenUpdates ++ [(party, port, ep)] ∧
        x.cores = s.cores ∧ x.mem = s.mem) ∧
      (∃ x, exec (.linkStateUpdate party port ep true affected cut) s = .next x ∧
        x.seenUpdates = s.seenUpdates ++ [(party, port, ep)] ∧ x.cutOff = s.cutOff.filter cut.contains ∧
        (s.difUp ≠ 0 → x.sentUpdates = s.sentUpdates ++ [⟨party, port, ep, true, s.difUp⟩]) ∧
        (s.difUp = 0 → x.sentUpdates = s.sentUpdates) ∧ x.updates = s.updates ∧ x.parts = s.parts ∧ x.cores = s.cores ∧
        x.mem = s.mem)) ∧
    (∀ party port ep up affected cut, s.seenUpdates.contains (party, port, ep) = true →
      exec (.linkStateUpdate party port ep up affected cut) s = .next s) ∧
    (∀ n u, s.updates[n]? = some u →
      (u.round < 2 → exec (.timeoutRound n) s = .next { s with updates := s.updates.set n { u with round := u.round + 1 } }) ∧
      (2 ≤ u.round → u.sent = [] → u.rounds = [] → s.openRounds = [] → exec (.timeoutRound n) s =
        .next { s with updates := s.updates.eraseIdx n }) ∧
      (∀ w o l more, 2 ≤ u.round → u.sent = [⟨w, (s.ctx w).task, o, true⟩] → u.rounds = [] → s.openRounds = [] →
        (s.ctx w).loadQ = l :: more → l.ord = o → l.kind = .plain → l.dst ≠ 0 → s.place l.pa = .remote →
        ((s.ctx w).owner.boot = true ∨ (s.job (s.ctx w).owner.job).palletAt l.va.toNat = none) →
        (∀ z ∈ s.updates.eraseIdx n, ⟨w, (s.ctx w).task, o, true⟩ ∉ z.sent) → ∃ x, exec (.timeoutRound n) s = .next x ∧ ⟨false, l.dst, 20, none⟩ ∈ (x.ctx w).marks ∧
          x.updates = s.updates.eraseIdx n ∧ x.mem = s.mem))

/-- 24 R399, R400, Table 24.5: a test of a channel starts, is held while another runs, or is ignored while one is
held; its end gives the pass bits (none of lanes 64 and 65 for a confirm test) and the count, leaves no write deferred
and starts the held test; a repair or lane write outside a test is in force at once, with the reserved bits zero, and
a repair that names a lane outside its spare's half changes nothing. Names PHY_READ_TEST, PHY_WRITE_TEST,
PHY_CONFIRM_TEST, PHY_TEST_COMPLETE, PHY_REPAIR_WRITE, PHY_LANE_WRITE. -/
def Obligations.Channels : Prop :=
  ∀ (s : State) (c n : Nat) (v : BitVec 64) (pass : BitVec 66),
    let y := s.phy c
    let set (q : Phy) : State := { s with phys := s.phys.put c q }
    (y.running = none → exec (.phyReadTest c) s = .next (set { y with running := some 1 }) ∧
      exec (.phyWriteTest c) s = .next (set { y with running := some 2 }) ∧
      exec (.phyConfirmTest c) s = .next (set { y with running := some 3 }) ∧
      exec (.phyTestComplete c pass) s = .next s ∧
      exec (.phyLaneWrite c n v) s = .next (set { y with lanes := y.lanes.put n (v &&& 0x3F3F#64) }) ∧
      (let r : BitVec 16 := v.setWidth 16 &&& 0xBFBF#16
       (v.getLsbD 15 = true → 32 ≤ v.toNat / 256 % 64) → (v.getLsbD 7 = true → v.toNat % 64 ≤ 31) →
       exec (.phyRepairWrite c v) s = .next (set { y with repair := r, sent := if r = y.repair then y.sent else r })) ∧
      ((v.getLsbD 15 = true ∧ v.toNat / 256 % 64 < 32) ∨ (v.getLsbD 7 = true ∧ 31 < v.toNat % 64) →
        exec (.phyRepairWrite c v) s = .next (set y))) ∧
    (∀ k, y.running = some k →
      (y.held = none → exec (.phyReadTest c) s = .next (set { y with held := some 1 }) ∧
        exec (.phyWriteTest c) s = .next (set { y with held := some 2 }) ∧
        exec (.phyConfirmTest c) s = .next (set { y with held := some 3 })) ∧
      (y.held ≠ none → exec (.phyReadTest c) s = .next (set y) ∧ exec (.phyWriteTest c) s = .next (set y) ∧
        exec (.phyConfirmTest c) s = .next (set y)) ∧
      exec (.phyRepairWrite c v) s = .next (set { y with deferred := y.deferred ++ [.repair v] }) ∧
      exec (.phyLaneWrite c n v) s = .next (set { y with deferred := y.deferred ++ [.lane n v] }) ∧
      (∃ x, exec (.phyTestComplete c pass) s = .next x ∧ (x.phy c).pass0 = pass.setWidth 64 ∧
        (x.phy c).pass1 = (if k = 3 then 0 else (pass >>> 64).setWidth 2 : BitVec 2) ∧ (x.phy c).done = y.done + 1 ∧
        (x.phy c).running = y.held ∧ (x.phy c).held = none ∧ (x.phy c).deferred = [] ∧
        (y.deferred = [] → (x.phy c).repair = y.repair ∧ (x.phy c).lanes = y.lanes) ∧ x.cores = s.cores ∧
        (k ≠ 3 → x.mem = s.mem)))

/-- 24 R395 to R397, Table 24.3; 19 R336, R339, R349, R350; 15 R306: a reset leaves no partition or job enabled, the
links down and every bulk row invalid, and names its cause; with firmware images that pass their checks the stage is 4,
the stage-2 image stands in the boot store, and one training task runs in context 0 of each of cores 0 to 255, with its
channel in s1, in privileged mode; with no good copy of the stage-1 image at stage 2, or a bad stage-2 image at stage 3,
the boot ends in result 2 with no task, and the third failed check since power-up raises the alarm; training that ends
on every channel moves to stage 5 with result 1, or ends in result 3; the host port's link comes up in the mode that the
stage-1 image names, once stage 3 has started its training, and goes down; an alarm is recorded, and under policies 1
and 2 it zeroises every key, disables every partition and stops the compute dies, and policy 2 erases the identity. That
the alarm's result is 5 under every policy, and what HBM holds after a reset, are the model's choices (logs 36 and 2).
24 R395, R396; 00 R9, Table 0.2: what reset leaves: no partition or job enabled, no task resident, every queue empty,
memory with nothing listed, and the core registers of Table 21.10 that it names at their field maps' values. Names
POWER_UP, PERST, WARM_RESET, BOOT_TRAINING_DONE, HOST_PORT_TRAINED, HOST_PORT_LINK_DOWN, ALARM. -/
def Obligations.Resets : Prop :=
  (∀ (s : State) (n : Nat),
     let booted (x : State) : Prop :=
       x.sec.stage = 4 ∧ x.sec.result = 0 ∧ x.sec.keysLive = true ∧ x.sec.diesStopped = false ∧ x.sec.stages = 2 ∧
       x.sec.erased = s.sec.erased ∧
       (∀ c, c < 256 → (x.ctx ⟨c, 0⟩).resident = true ∧ (x.ctx ⟨c, 0⟩).loading = true ∧
         (x.ctx ⟨c, 0⟩).owner = { boot := true } ∧ (x.ctx ⟨c, 0⟩).priv = true ∧
         (x.ctx ⟨c, 0⟩).sreg 1 = BitVec.ofNat 64 c) ∧
       (∀ w, 256 ≤ w.core ∨ w.slot ≠ 0 → (x.ctx w).resident = false) ∧
       (∀ i, i < s.sec.image.length → i < 2 ^ 20 → x.byte (0x20007000000 + i) = s.sec.image.getD i 0)
     let rejected (x : State) (stage : BitVec 4) (failed : Nat) : Prop :=
       x.sec.stage = stage ∧ x.sec.failedChecks = failed ∧ x.sec.result = (if failed < 3 then 2 else 5) ∧
       (3 ≤ failed → x.sec.active = true ∧ x.sec.sensors.getLsbD 4 = true) ∧ (∀ w, (x.ctx w).resident = false)
     let reset (i : Instr) (cause : BitVec 8) (failed : Nat) (sensors : BitVec 5) (active : Bool) : Prop :=
       ∃ x, exec i s = .next x ∧ x.sec.cause = cause ∧ x.sec.policy = s.sec.policy ∧ x.parts = State.reset.parts ∧
         x.sec.hmode = s.sec.modeBit ∧ x.jobs = State.reset.jobs ∧ x.hostUp = false ∧ x.difUp = State.reset.difUp ∧ x.agenda = s.agenda ∧
         (∀ a, deviceOf a = 0 → localOf a < 2 ^ 39 → x.byte a = 0) ∧ (∀ g r, 2048 ≤ r → (x.row g r).valid = false) ∧
         (s.sec.flash = 0 → booted x ∧ x.sec.sensors = sensors ∧ x.sec.active = active ∧ x.sec.failedChecks = failed) ∧
         (s.sec.flash.setWidth 2 = (3 : BitVec 2) → rejected x 2 (failed + 2)) ∧
         (s.sec.flash = 4 → rejected x 3 (failed + 1))
     reset .powerUp 0 0 0 false ∧
     reset .perst 1 s.sec.failedChecks s.sec.sensors s.sec.active ∧
     reset .warmReset 2 s.sec.failedChecks s.sec.sensors s.sec.active ∧
     (s.sec.stage = 4 → s.sec.result = 0 ∨ s.sec.result = 5 ∧ s.sec.diesStopped = false → (∀ c, c < 256 → (s.phy c).result ≠ 0) → exec .bootTrainingDone s =
       .next { s with sec := (if s.trained = 256 then { s.sec with stage := 5, result := 1 }
         else { s.sec with result := 3 } : Secure) }) ∧
     (s.sec.stage ≠ 4 ∨ (∃ c, c < 256 ∧ (s.phy c).result = 0) → exec .bootTrainingDone s = .next s) ∧
     (∀ b, (b = s.sec.hmode → 3 ≤ s.sec.stage.toNat → exec (.hostPortTrained b) s = .next { s with hostUp := true }) ∧
       (b ≠ s.sec.hmode ∨ s.sec.stage.toNat < 3 → exec (.hostPortTrained b) s = .next s)) ∧
     exec .hostPortLinkDown s = .next { s with hostUp := false } ∧
     (s.sec.failedChecks < 3 → exec (.alarm 4) s = .next s) ∧
     (n < 4 ∨ n = 4 ∧ 3 ≤ s.sec.failedChecks → ∃ x, exec (.alarm n) s = .next x ∧ x.sec.sensors = s.sec.sensors ||| BitVec.ofNat 5 (2 ^ n) ∧
       x.sec.active = true ∧ x.sec.result = 5 ∧
       (s.sec.policy = 0 → x.parts = s.parts ∧ x.cores = s.cores ∧ x.mem = s.mem) ∧
       (s.sec.policy ≠ 0 → x.sec.keysLive = false ∧ x.sec.diesStopped = true ∧ x.cores = [] ∧
         (∀ p ∈ s.parts, (x.part p.1).en = false) ∧ (s.sec.policy = 2 → x.sec.erased = true) ∧
         (∀ a, deviceOf a = s.difIndex.toNat → localOf a < 2 ^ 39 → x.byte a = 0)))) ∧
  (let s := State.reset
   (∀ w, (s.ctx w).resident = false ∧ (s.ctx w).loadQ = [] ∧ (s.ctx w).storeQ = []) ∧
   (∀ p, (s.part p).en = false ∧ (s.part p).state = 0) ∧ (∀ j, (s.job j).en = false) ∧ s.mem = [] ∧ s.memWf = true ∧
   (∀ g, (s.hold g).part = none ∧ (s.hold g).queue = [] ∧ (s.hold g).copies = [] ∧ (s.hold g).matrix.queue = [] ∧
     s.coreReg g 0x100 = 0x0080006000400020 ∧ s.coreReg g 0x101 = 0x016001A000C000A0 ∧ s.coreReg g 0x103 = 0 ∧
     s.coreReg g 0x110 = 0 ∧ s.coreReg g 0x111 = 256 ∧ s.coreReg g 0x113 = 3072 ∧ s.coreReg g 0x116 = 4096 ∧
     s.coreReg g 0x117 = 0x0400040004000400 ∧ (∀ n, (s.row g (2048 + n)).valid = false)) ∧
   s.difEn = false ∧ s.difUp = 0 ∧ s.hostUp = false)

/-! ## Words, steps and the invariant (01, 02) -/

/-- 02 R30, R33; 06 R149: decoding the word of a well-formed instruction in a slot of its class gives it back, with
every operand, and so does decoding a microword. Every constructor with a word is covered. -/
def Obligations.DecodeEncode : Prop :=
  ∀ i : Instr, i.wf = true →
    (∀ k, homeSlot i = some k → ∃ w, encode i = some w ∧ decodeClass (classOf k) w = some i) ∧
    (∀ w, encodeMicro i = some w → decodeMicro w = some i)

/-- 02 R33; 06 R149: a word that is accepted is the word of the instruction it decodes to, which is well formed: each
instruction has one word, and no accepted word has a bit that is not part of its instruction. -/
def Obligations.EncodeDecode : Prop :=
  (∀ (c : SlotClass) (w : SlotWord) (i : Instr), decodeClass c w = some i → encode i = some w ∧ i.wf = true) ∧
  (∀ (w : Word) (i : Instr), decodeMicro w = some i → encodeMicro i = some w ∧ i.wf = true)

/-- 02 R29 to R48; 06 R149: words written out field by field from the layouts, one or more of each slot class and of
the microwords, and words that are no instruction. -/
def Obligations.DecodedWords : Prop :=
  decodeClass .control (1#6 ++ 0#1 ++ 3#4 ++ 0#5 ++ 0xFFFD#16 : SlotWord) = some (.br 0 3 0xFFFD) ∧
  decodeClass .scalar (1#6 ++ 0#4 ++ 3#5 ++ 3#5 ++ 4#5 ++ 0#7 : SlotWord) = some (.add 0 3 3 4) ∧
  decodeClass .vector (4#6 ++ 2#4 ++ 4#6 ++ 5#6 ++ 6#6 ++ 0#4 : SlotWord) = some (.vFma 2 4 5 6 0) ∧
  decodeClass .row 0x0450E001 = some (.vldrRow 5 7 1) ∧ decodeClass .engine 0x04140000 = some (.mcall 5) ∧
  decodeClass .memory 0x60E52600 = some (.vld 7 5 4 3) ∧ decodeClass .control 0xA8E20600 = some (.srr 7 0x103) ∧
  decodeClass .control 0 = some .nop ∧ decodeClass .vector 0 = some .nop ∧
  decodeClass .control 1 = none ∧ decodeClass .scalar (1#6 ++ 0#4 ++ 3#5 ++ 3#5 ++ 4#5 ++ 1#7 : SlotWord) = none ∧
  decodeMicro 0 = some .mend ∧ decodeMicro 0x5000000000000000 = some .mswap ∧ decodeMicro 0x5000000000000001 = none

/-- 01 R15; 02 R29, R30; 15 R294: a step with something on the agenda makes that move; otherwise the core in focus has
its issue cycle, and where its first candidate is the context in focus, with one word in its bundle, the step is that
instruction's meaning, then the cycle's account and the focus handed on. A step that names a unit that does not exist
is a fault. The order of the moves is the model's choice (log 5). -/
def Obligations.StepRunsDecoded : Prop :=
  (∀ (s : State) (i : Instr) (more : List Act), s.agenda = .event i :: more →
    (i.wf = true → step s = exec i { s with agenda := more }) ∧ (i.wf = false → step s = .fault .noSuchUnit)) ∧
  (∀ (s : State) (g : Nat) (r : MRun) (more : List Act) (i : Instr), s.agenda = .micro g :: more →
    (s.matrix g).run = some r → r.pc < 4096 → decodeMicro ((s.matrix g).words.get 0 r.pc) = some i → step s = exec i s) ∧
  (∀ (s : State) (i : Instr) (k : Nat) (v : SlotWord), homeSlot i = some k → encode i = some v → i.wf = true →
    s.here.gang = none → s.here.exiting = false → s.here.incoming = none → s.here.bundle.toNat = v.toNat * 2 ^ (32 * k) → s.agenda = [] → s.turn = false →
    s.coreOff s.focus.core = false →
    let g := s.focus.core
    let s0 := s.updCore g (fun c => { c with yielded := false })
    let r := s0.offer s.focus
    (s.candidates g).head? = some s.focus →
    exec i s0 = .next r.1 ∧
    (r.2 = .issued → (s0.core g).limited (s0.bundleWeight s.focus) = false →
      step s = .next ((r.1.endCycle [s.focus] s0.bundleWeight).handOn true)) ∧
    (r.2 = .issued → (s0.core g).limited (s0.bundleWeight s.focus) = true →
      step s = .next ((s.freezeCycle [s.focus] [s.focus]).handOn true)) ∧
    (r.2 = .frozen → step s = .next ((s.freezeCycle [s.focus] []).handOn true)) ∧
    (r.2 = .trapped → step s = .next ((r.1.endCycle [s.focus] (fun _ => 0)).handOn true)))

/-- Global memory (08_memory_spaces.md) keeps its canonical form in every step from every state; the form is the model's
own choice (log 2). -/
def Obligations.StepKeepsMemoryForm : Prop :=
  ∀ s x : State, s.memWf = true → step s = .next x → x.memWf = true
end

