-- ==== Sys2Proof/Laws/Tab.lean ====
section
/-! SUPPORT. The finite maps of Word.lean: reading after writing, and the canonical form that writing keeps. -/
namespace Sys2Proof

variable {α : Type}

@[simp] theorem Tab.get_nil (d : α) (k : Nat) : Tab.get d [] k = d := rfl

@[simp] theorem Tab.get_put_self (d : α) (t : Tab α) (k : Nat) (v : α) : (t.put k v).get d k = v := by
  induction t with
  | nil => simp [Tab.put, Tab.get]
  | cons e t ih =>
    obtain ⟨k', v'⟩ := e
    unfold Tab.put
    split
    · simp [Tab.get]
    · split
      · simp [Tab.get]
      · rw [Tab.get]; simp_all

@[simp] theorem Tab.get_put_ne (d : α) (t : Tab α) {k j : Nat} (v : α) (h : j ≠ k) :
    (t.put k v).get d j = t.get d j := by
  induction t with
  | nil => simp [Tab.put, Tab.get, h]
  | cons e t ih =>
    obtain ⟨k', v'⟩ := e
    unfold Tab.put
    split
    · simp [Tab.get, h]
    · split
      · rename_i h1; subst h1; simp [Tab.get, h]
      · simp [Tab.get, ih]

@[simp] theorem Tab.put_put (t : Tab α) (k : Nat) (v w : α) : (t.put k v).put k w = t.put k w := by
  induction t with
  | nil => simp [Tab.put]
  | cons e t ih =>
    obtain ⟨k', v'⟩ := e
    by_cases h1 : k < k'
    · simp [Tab.put, h1]
    · by_cases h2 : k = k'
      · simp [Tab.put, h2]
      · simp [Tab.put, h1, h2, ih]

/-- Putting back what is there changes nothing but may list it. -/
theorem Tab.get_put (d : α) (t : Tab α) (k j : Nat) (v : α) :
    (t.put k v).get d j = if j = k then v else t.get d j := by
  split
  · subst_vars; simp
  · simp [*]

theorem Tab.drop_cons (e : Nat × α) (t : Tab α) (k : Nat) :
    Tab.drop (e :: t) k = if e.1 = k then t.drop k else e :: t.drop k := by
  by_cases h : e.1 = k <;> simp [Tab.drop, h]

@[simp] theorem Tab.get_drop_self (d : α) (t : Tab α) (k : Nat) : (t.drop k).get d k = d := by
  induction t with
  | nil => rfl
  | cons e t ih =>
    rw [Tab.drop_cons]
    split
    · exact ih
    · rename_i h
      obtain ⟨k', v⟩ := e
      rw [Tab.get, if_neg (fun e' => h e'.symm), ih]

@[simp] theorem Tab.get_drop_ne (d : α) (t : Tab α) {k j : Nat} (h : j ≠ k) : (t.drop k).get d j = t.get d j := by
  induction t with
  | nil => rfl
  | cons e t ih =>
    obtain ⟨k', v⟩ := e
    rw [Tab.drop_cons]
    split
    · rename_i h1
      rw [ih, Tab.get, if_neg (fun e' => h (e'.trans h1))]
    · simp only [Tab.get, ih]

@[simp] theorem Tab.get_set_self [DecidableEq α] (d : α) (t : Tab α) (k : Nat) (v : α) : (t.set d k v).get d k = v := by
  unfold Tab.set; split <;> simp [*]

@[simp] theorem Tab.get_set_ne [DecidableEq α] (d : α) (t : Tab α) {k j : Nat} (v : α) (h : j ≠ k) :
    (t.set d k v).get d j = t.get d j := by
  unfold Tab.set; split <;> simp [*]

/-! ## The canonical form -/

/-- Rising keys, as a relation between every two entries. -/
theorem Tab.sorted_iff (t : Tab α) : t.sorted = true ↔ List.Pairwise (fun a b => a.1 < b.1) t := by
  induction t with
  | nil => simp [Tab.sorted]
  | cons a t ih =>
    cases t with
    | nil => simp [Tab.sorted]
    | cons b t =>
      simp only [Tab.sorted, Bool.and_eq_true, decide_eq_true_eq, ih, List.pairwise_cons]
      constructor
      · rintro ⟨h, hb, ht⟩
        refine ⟨?_, hb, ht⟩
        intro x hx
        rcases List.mem_cons.1 hx with rfl | hx
        · exact h
        · exact lt_trans h (hb x hx)
      · rintro ⟨h, hb, ht⟩
        exact ⟨h b (by simp), hb, ht⟩

theorem Tab.canon_iff [DecidableEq α] (d : α) (t : Tab α) :
    t.canon d = true ↔ List.Pairwise (fun a b => a.1 < b.1) t ∧ ∀ e ∈ t, e.2 ≠ d := by
  simp [Tab.canon, Tab.sorted_iff]

theorem Tab.mem_put (t : Tab α) (k : Nat) (v : α) {e : Nat × α} (h : e ∈ t.put k v) : e = (k, v) ∨ e ∈ t := by
  induction t with
  | nil => simpa [Tab.put] using h
  | cons a t ih =>
    unfold Tab.put at h
    split at h
    · simpa using h
    · split at h
      · rcases List.mem_cons.1 h with h | h
        · exact .inl h
        · exact .inr (List.mem_cons_of_mem _ h)
      · rcases List.mem_cons.1 h with h | h
        · exact .inr (by simp [h])
        · rcases ih h with h | h
          · exact .inl h
          · exact .inr (List.mem_cons_of_mem _ h)

theorem Tab.pairwise_put (t : Tab α) (k : Nat) (v : α) (h : List.Pairwise (fun a b => a.1 < b.1) t) :
    List.Pairwise (fun a b => a.1 < b.1) (t.put k v) := by
  induction t with
  | nil => simp [Tab.put]
  | cons a t ih =>
    have ha := List.pairwise_cons.1 h
    unfold Tab.put
    split
    · rename_i h1
      refine List.pairwise_cons.2 ⟨?_, h⟩
      intro x hx
      rcases List.mem_cons.1 hx with rfl | hx
      · exact h1
      · exact lt_trans h1 (ha.1 x hx)
    · split
      · rename_i h1; subst h1
        exact List.pairwise_cons.2 ⟨ha.1, ha.2⟩
      · refine List.pairwise_cons.2 ⟨?_, ih ha.2⟩
        intro x hx
        rcases Tab.mem_put t k v hx with rfl | hx
        · simp; omega
        · exact ha.1 x hx

theorem Tab.canon_drop [DecidableEq α] (d : α) (t : Tab α) (k : Nat) (h : t.canon d = true) : (t.drop k).canon d = true := by
  rw [Tab.canon_iff] at h ⊢
  exact ⟨h.1.filter _, fun e he => h.2 e (List.mem_of_mem_filter he)⟩

/-- Dropping entries keeps the canonical form. -/
theorem Tab.canon_filter [DecidableEq α] (d : α) (t : Tab α) (p : Nat × α → Bool) (h : t.canon d = true) :
    Tab.canon d (List.filter p t) = true := by
  rw [Tab.canon_iff] at h ⊢
  exact ⟨h.1.filter _, fun e he => h.2 e (List.mem_of_mem_filter he)⟩

/-- The canonical form's write keeps it. -/
theorem Tab.canon_set [DecidableEq α] (d : α) (t : Tab α) (k : Nat) (v : α) (h : t.canon d = true) :
    (t.set d k v).canon d = true := by
  unfold Tab.set
  split
  · exact Tab.canon_drop d t k h
  · rename_i hv
    rw [Tab.canon_iff] at h ⊢
    refine ⟨Tab.pairwise_put t k v h.1, ?_⟩
    intro e he
    rcases Tab.mem_put t k v he with rfl | he
    · exact hv
    · exact h.2 e he

end Sys2Proof
end

