-- ==== Sys2Proof/Laws/State.lean ====
section
/-! SUPPORT. What each update of State leaves alone, one lemma per field, and what is read back after a unit is set. -/
namespace Sys2Proof.Machine

/-! ## Fields -/

/-! ### setCore -/

@[simp] theorem State.setCore_agenda (s : State) (g : Nat) (c : Core) : (s.setCore g c).agenda = s.agenda := rfl
@[simp] theorem State.setCore_turn (s : State) (g : Nat) (c : Core) : (s.setCore g c).turn = s.turn := rfl
@[simp] theorem State.setCore_focus (s : State) (g : Nat) (c : Core) : (s.setCore g c).focus = s.focus := rfl
@[simp] theorem State.setCore_rotor (s : State) (g : Nat) (c : Core) : (s.setCore g c).rotor = s.rotor := rfl
@[simp] theorem State.setCore_freeCount (s : State) (g : Nat) (c : Core) : (s.setCore g c).freeCount = s.freeCount := rfl
@[simp] theorem State.setCore_clusters (s : State) (g : Nat) (c : Core) : (s.setCore g c).clusters = s.clusters := rfl
@[simp] theorem State.setCore_walks (s : State) (g : Nat) (c : Core) : (s.setCore g c).walks = s.walks := rfl
@[simp] theorem State.setCore_mem (s : State) (g : Nat) (c : Core) : (s.setCore g c).mem = s.mem := rfl
@[simp] theorem State.setCore_poison (s : State) (g : Nat) (c : Core) : (s.setCore g c).poison = s.poison := rfl
@[simp] theorem State.setCore_parts (s : State) (g : Nat) (c : Core) : (s.setCore g c).parts = s.parts := rfl
@[simp] theorem State.setCore_jobs (s : State) (g : Nat) (c : Core) : (s.setCore g c).jobs = s.jobs := rfl
@[simp] theorem State.setCore_transfers (s : State) (g : Nat) (c : Core) : (s.setCore g c).transfers = s.transfers := rfl
@[simp] theorem State.setCore_nextTask (s : State) (g : Nat) (c : Core) : (s.setCore g c).nextTask = s.nextTask := rfl
@[simp] theorem State.setCore_invalidations (s : State) (g : Nat) (c : Core) : (s.setCore g c).invalidations = s.invalidations := rfl
@[simp] theorem State.setCore_exitedPubs (s : State) (g : Nat) (c : Core) : (s.setCore g c).exitedPubs = s.exitedPubs := rfl
@[simp] theorem State.setCore_difEn (s : State) (g : Nat) (c : Core) : (s.setCore g c).difEn = s.difEn := rfl
@[simp] theorem State.setCore_difIndex (s : State) (g : Nat) (c : Core) : (s.setCore g c).difIndex = s.difIndex := rfl
@[simp] theorem State.setCore_difUp (s : State) (g : Nat) (c : Core) : (s.setCore g c).difUp = s.difUp := rfl
@[simp] theorem State.setCore_ptags (s : State) (g : Nat) (c : Core) : (s.setCore g c).ptags = s.ptags := rfl
@[simp] theorem State.setCore_exports (s : State) (g : Nat) (c : Core) : (s.setCore g c).exports = s.exports := rfl
@[simp] theorem State.setCore_updates (s : State) (g : Nat) (c : Core) : (s.setCore g c).updates = s.updates := rfl
@[simp] theorem State.setCore_seals (s : State) (g : Nat) (c : Core) : (s.setCore g c).seals = s.seals := rfl
@[simp] theorem State.setCore_difWaiting (s : State) (g : Nat) (c : Core) : (s.setCore g c).difWaiting = s.difWaiting := rfl
@[simp] theorem State.setCore_seenUpdates (s : State) (g : Nat) (c : Core) : (s.setCore g c).seenUpdates = s.seenUpdates := rfl
@[simp] theorem State.setCore_cutOff (s : State) (g : Nat) (c : Core) : (s.setCore g c).cutOff = s.cutOff := rfl
@[simp] theorem State.setCore_portEpochs (s : State) (g : Nat) (c : Core) : (s.setCore g c).portEpochs = s.portEpochs := rfl
@[simp] theorem State.setCore_sentUpdates (s : State) (g : Nat) (c : Core) : (s.setCore g c).sentUpdates = s.sentUpdates := rfl
@[simp] theorem State.setCore_difReplies (s : State) (g : Nat) (c : Core) : (s.setCore g c).difReplies = s.difReplies := rfl
@[simp] theorem State.setCore_hostUp (s : State) (g : Nat) (c : Core) : (s.setCore g c).hostUp = s.hostUp := rfl
@[simp] theorem State.setCore_foreign (s : State) (g : Nat) (c : Core) : (s.setCore g c).foreign = s.foreign := rfl
@[simp] theorem State.setCore_later (s : State) (g : Nat) (c : Core) : (s.setCore g c).later = s.later := rfl
@[simp] theorem State.setCore_hdm (s : State) (g : Nat) (c : Core) : (s.setCore g c).hdm = s.hdm := rfl
@[simp] theorem State.setCore_replies (s : State) (g : Nat) (c : Core) : (s.setCore g c).replies = s.replies := rfl
@[simp] theorem State.setCore_msix (s : State) (g : Nat) (c : Core) : (s.setCore g c).msix = s.msix := rfl
@[simp] theorem State.setCore_hostLines (s : State) (g : Nat) (c : Core) : (s.setCore g c).hostLines = s.hostLines := rfl
@[simp] theorem State.setCore_phys (s : State) (g : Nat) (c : Core) : (s.setCore g c).phys = s.phys := rfl
@[simp] theorem State.setCore_sec (s : State) (g : Nat) (c : Core) : (s.setCore g c).sec = s.sec := rfl

/-! ### updCore -/

@[simp] theorem State.updCore_agenda (s : State) (g : Nat) (f : Core → Core) : (s.updCore g f).agenda = s.agenda := rfl
@[simp] theorem State.updCore_turn (s : State) (g : Nat) (f : Core → Core) : (s.updCore g f).turn = s.turn := rfl
@[simp] theorem State.updCore_focus (s : State) (g : Nat) (f : Core → Core) : (s.updCore g f).focus = s.focus := rfl
@[simp] theorem State.updCore_rotor (s : State) (g : Nat) (f : Core → Core) : (s.updCore g f).rotor = s.rotor := rfl
@[simp] theorem State.updCore_freeCount (s : State) (g : Nat) (f : Core → Core) : (s.updCore g f).freeCount = s.freeCount := rfl
@[simp] theorem State.updCore_clusters (s : State) (g : Nat) (f : Core → Core) : (s.updCore g f).clusters = s.clusters := rfl
@[simp] theorem State.updCore_walks (s : State) (g : Nat) (f : Core → Core) : (s.updCore g f).walks = s.walks := rfl
@[simp] theorem State.updCore_mem (s : State) (g : Nat) (f : Core → Core) : (s.updCore g f).mem = s.mem := rfl
@[simp] theorem State.updCore_poison (s : State) (g : Nat) (f : Core → Core) : (s.updCore g f).poison = s.poison := rfl
@[simp] theorem State.updCore_parts (s : State) (g : Nat) (f : Core → Core) : (s.updCore g f).parts = s.parts := rfl
@[simp] theorem State.updCore_jobs (s : State) (g : Nat) (f : Core → Core) : (s.updCore g f).jobs = s.jobs := rfl
@[simp] theorem State.updCore_transfers (s : State) (g : Nat) (f : Core → Core) : (s.updCore g f).transfers = s.transfers := rfl
@[simp] theorem State.updCore_nextTask (s : State) (g : Nat) (f : Core → Core) : (s.updCore g f).nextTask = s.nextTask := rfl
@[simp] theorem State.updCore_invalidations (s : State) (g : Nat) (f : Core → Core) : (s.updCore g f).invalidations = s.invalidations := rfl
@[simp] theorem State.updCore_exitedPubs (s : State) (g : Nat) (f : Core → Core) : (s.updCore g f).exitedPubs = s.exitedPubs := rfl
@[simp] theorem State.updCore_difEn (s : State) (g : Nat) (f : Core → Core) : (s.updCore g f).difEn = s.difEn := rfl
@[simp] theorem State.updCore_difIndex (s : State) (g : Nat) (f : Core → Core) : (s.updCore g f).difIndex = s.difIndex := rfl
@[simp] theorem State.updCore_difUp (s : State) (g : Nat) (f : Core → Core) : (s.updCore g f).difUp = s.difUp := rfl
@[simp] theorem State.updCore_ptags (s : State) (g : Nat) (f : Core → Core) : (s.updCore g f).ptags = s.ptags := rfl
@[simp] theorem State.updCore_exports (s : State) (g : Nat) (f : Core → Core) : (s.updCore g f).exports = s.exports := rfl
@[simp] theorem State.updCore_updates (s : State) (g : Nat) (f : Core → Core) : (s.updCore g f).updates = s.updates := rfl
@[simp] theorem State.updCore_seals (s : State) (g : Nat) (f : Core → Core) : (s.updCore g f).seals = s.seals := rfl
@[simp] theorem State.updCore_difWaiting (s : State) (g : Nat) (f : Core → Core) : (s.updCore g f).difWaiting = s.difWaiting := rfl
@[simp] theorem State.updCore_seenUpdates (s : State) (g : Nat) (f : Core → Core) : (s.updCore g f).seenUpdates = s.seenUpdates := rfl
@[simp] theorem State.updCore_cutOff (s : State) (g : Nat) (f : Core → Core) : (s.updCore g f).cutOff = s.cutOff := rfl
@[simp] theorem State.updCore_portEpochs (s : State) (g : Nat) (f : Core → Core) : (s.updCore g f).portEpochs = s.portEpochs := rfl
@[simp] theorem State.updCore_sentUpdates (s : State) (g : Nat) (f : Core → Core) : (s.updCore g f).sentUpdates = s.sentUpdates := rfl
@[simp] theorem State.updCore_difReplies (s : State) (g : Nat) (f : Core → Core) : (s.updCore g f).difReplies = s.difReplies := rfl
@[simp] theorem State.updCore_hostUp (s : State) (g : Nat) (f : Core → Core) : (s.updCore g f).hostUp = s.hostUp := rfl
@[simp] theorem State.updCore_foreign (s : State) (g : Nat) (f : Core → Core) : (s.updCore g f).foreign = s.foreign := rfl
@[simp] theorem State.updCore_later (s : State) (g : Nat) (f : Core → Core) : (s.updCore g f).later = s.later := rfl
@[simp] theorem State.updCore_hdm (s : State) (g : Nat) (f : Core → Core) : (s.updCore g f).hdm = s.hdm := rfl
@[simp] theorem State.updCore_replies (s : State) (g : Nat) (f : Core → Core) : (s.updCore g f).replies = s.replies := rfl
@[simp] theorem State.updCore_msix (s : State) (g : Nat) (f : Core → Core) : (s.updCore g f).msix = s.msix := rfl
@[simp] theorem State.updCore_hostLines (s : State) (g : Nat) (f : Core → Core) : (s.updCore g f).hostLines = s.hostLines := rfl
@[simp] theorem State.updCore_phys (s : State) (g : Nat) (f : Core → Core) : (s.updCore g f).phys = s.phys := rfl
@[simp] theorem State.updCore_sec (s : State) (g : Nat) (f : Core → Core) : (s.updCore g f).sec = s.sec := rfl

/-! ### setHold -/

@[simp] theorem State.setHold_agenda (s : State) (g : Nat) (h : Hold) : (s.setHold g h).agenda = s.agenda := rfl
@[simp] theorem State.setHold_turn (s : State) (g : Nat) (h : Hold) : (s.setHold g h).turn = s.turn := rfl
@[simp] theorem State.setHold_focus (s : State) (g : Nat) (h : Hold) : (s.setHold g h).focus = s.focus := rfl
@[simp] theorem State.setHold_rotor (s : State) (g : Nat) (h : Hold) : (s.setHold g h).rotor = s.rotor := rfl
@[simp] theorem State.setHold_freeCount (s : State) (g : Nat) (h : Hold) : (s.setHold g h).freeCount = s.freeCount := rfl
@[simp] theorem State.setHold_clusters (s : State) (g : Nat) (h : Hold) : (s.setHold g h).clusters = s.clusters := rfl
@[simp] theorem State.setHold_walks (s : State) (g : Nat) (h : Hold) : (s.setHold g h).walks = s.walks := rfl
@[simp] theorem State.setHold_mem (s : State) (g : Nat) (h : Hold) : (s.setHold g h).mem = s.mem := rfl
@[simp] theorem State.setHold_poison (s : State) (g : Nat) (h : Hold) : (s.setHold g h).poison = s.poison := rfl
@[simp] theorem State.setHold_parts (s : State) (g : Nat) (h : Hold) : (s.setHold g h).parts = s.parts := rfl
@[simp] theorem State.setHold_jobs (s : State) (g : Nat) (h : Hold) : (s.setHold g h).jobs = s.jobs := rfl
@[simp] theorem State.setHold_transfers (s : State) (g : Nat) (h : Hold) : (s.setHold g h).transfers = s.transfers := rfl
@[simp] theorem State.setHold_nextTask (s : State) (g : Nat) (h : Hold) : (s.setHold g h).nextTask = s.nextTask := rfl
@[simp] theorem State.setHold_invalidations (s : State) (g : Nat) (h : Hold) : (s.setHold g h).invalidations = s.invalidations := rfl
@[simp] theorem State.setHold_exitedPubs (s : State) (g : Nat) (h : Hold) : (s.setHold g h).exitedPubs = s.exitedPubs := rfl
@[simp] theorem State.setHold_difEn (s : State) (g : Nat) (h : Hold) : (s.setHold g h).difEn = s.difEn := rfl
@[simp] theorem State.setHold_difIndex (s : State) (g : Nat) (h : Hold) : (s.setHold g h).difIndex = s.difIndex := rfl
@[simp] theorem State.setHold_difUp (s : State) (g : Nat) (h : Hold) : (s.setHold g h).difUp = s.difUp := rfl
@[simp] theorem State.setHold_ptags (s : State) (g : Nat) (h : Hold) : (s.setHold g h).ptags = s.ptags := rfl
@[simp] theorem State.setHold_exports (s : State) (g : Nat) (h : Hold) : (s.setHold g h).exports = s.exports := rfl
@[simp] theorem State.setHold_updates (s : State) (g : Nat) (h : Hold) : (s.setHold g h).updates = s.updates := rfl
@[simp] theorem State.setHold_seals (s : State) (g : Nat) (h : Hold) : (s.setHold g h).seals = s.seals := rfl
@[simp] theorem State.setHold_difWaiting (s : State) (g : Nat) (h : Hold) : (s.setHold g h).difWaiting = s.difWaiting := rfl
@[simp] theorem State.setHold_seenUpdates (s : State) (g : Nat) (h : Hold) : (s.setHold g h).seenUpdates = s.seenUpdates := rfl
@[simp] theorem State.setHold_cutOff (s : State) (g : Nat) (h : Hold) : (s.setHold g h).cutOff = s.cutOff := rfl
@[simp] theorem State.setHold_portEpochs (s : State) (g : Nat) (h : Hold) : (s.setHold g h).portEpochs = s.portEpochs := rfl
@[simp] theorem State.setHold_sentUpdates (s : State) (g : Nat) (h : Hold) : (s.setHold g h).sentUpdates = s.sentUpdates := rfl
@[simp] theorem State.setHold_difReplies (s : State) (g : Nat) (h : Hold) : (s.setHold g h).difReplies = s.difReplies := rfl
@[simp] theorem State.setHold_hostUp (s : State) (g : Nat) (h : Hold) : (s.setHold g h).hostUp = s.hostUp := rfl
@[simp] theorem State.setHold_foreign (s : State) (g : Nat) (h : Hold) : (s.setHold g h).foreign = s.foreign := rfl
@[simp] theorem State.setHold_later (s : State) (g : Nat) (h : Hold) : (s.setHold g h).later = s.later := rfl
@[simp] theorem State.setHold_hdm (s : State) (g : Nat) (h : Hold) : (s.setHold g h).hdm = s.hdm := rfl
@[simp] theorem State.setHold_replies (s : State) (g : Nat) (h : Hold) : (s.setHold g h).replies = s.replies := rfl
@[simp] theorem State.setHold_msix (s : State) (g : Nat) (h : Hold) : (s.setHold g h).msix = s.msix := rfl
@[simp] theorem State.setHold_hostLines (s : State) (g : Nat) (h : Hold) : (s.setHold g h).hostLines = s.hostLines := rfl
@[simp] theorem State.setHold_phys (s : State) (g : Nat) (h : Hold) : (s.setHold g h).phys = s.phys := rfl
@[simp] theorem State.setHold_sec (s : State) (g : Nat) (h : Hold) : (s.setHold g h).sec = s.sec := rfl

/-! ### updHold -/

@[simp] theorem State.updHold_agenda (s : State) (g : Nat) (f : Hold → Hold) : (s.updHold g f).agenda = s.agenda := rfl
@[simp] theorem State.updHold_turn (s : State) (g : Nat) (f : Hold → Hold) : (s.updHold g f).turn = s.turn := rfl
@[simp] theorem State.updHold_focus (s : State) (g : Nat) (f : Hold → Hold) : (s.updHold g f).focus = s.focus := rfl
@[simp] theorem State.updHold_rotor (s : State) (g : Nat) (f : Hold → Hold) : (s.updHold g f).rotor = s.rotor := rfl
@[simp] theorem State.updHold_freeCount (s : State) (g : Nat) (f : Hold → Hold) : (s.updHold g f).freeCount = s.freeCount := rfl
@[simp] theorem State.updHold_clusters (s : State) (g : Nat) (f : Hold → Hold) : (s.updHold g f).clusters = s.clusters := rfl
@[simp] theorem State.updHold_walks (s : State) (g : Nat) (f : Hold → Hold) : (s.updHold g f).walks = s.walks := rfl
@[simp] theorem State.updHold_mem (s : State) (g : Nat) (f : Hold → Hold) : (s.updHold g f).mem = s.mem := rfl
@[simp] theorem State.updHold_poison (s : State) (g : Nat) (f : Hold → Hold) : (s.updHold g f).poison = s.poison := rfl
@[simp] theorem State.updHold_parts (s : State) (g : Nat) (f : Hold → Hold) : (s.updHold g f).parts = s.parts := rfl
@[simp] theorem State.updHold_jobs (s : State) (g : Nat) (f : Hold → Hold) : (s.updHold g f).jobs = s.jobs := rfl
@[simp] theorem State.updHold_transfers (s : State) (g : Nat) (f : Hold → Hold) : (s.updHold g f).transfers = s.transfers := rfl
@[simp] theorem State.updHold_nextTask (s : State) (g : Nat) (f : Hold → Hold) : (s.updHold g f).nextTask = s.nextTask := rfl
@[simp] theorem State.updHold_invalidations (s : State) (g : Nat) (f : Hold → Hold) : (s.updHold g f).invalidations = s.invalidations := rfl
@[simp] theorem State.updHold_exitedPubs (s : State) (g : Nat) (f : Hold → Hold) : (s.updHold g f).exitedPubs = s.exitedPubs := rfl
@[simp] theorem State.updHold_difEn (s : State) (g : Nat) (f : Hold → Hold) : (s.updHold g f).difEn = s.difEn := rfl
@[simp] theorem State.updHold_difIndex (s : State) (g : Nat) (f : Hold → Hold) : (s.updHold g f).difIndex = s.difIndex := rfl
@[simp] theorem State.updHold_difUp (s : State) (g : Nat) (f : Hold → Hold) : (s.updHold g f).difUp = s.difUp := rfl
@[simp] theorem State.updHold_ptags (s : State) (g : Nat) (f : Hold → Hold) : (s.updHold g f).ptags = s.ptags := rfl
@[simp] theorem State.updHold_exports (s : State) (g : Nat) (f : Hold → Hold) : (s.updHold g f).exports = s.exports := rfl
@[simp] theorem State.updHold_updates (s : State) (g : Nat) (f : Hold → Hold) : (s.updHold g f).updates = s.updates := rfl
@[simp] theorem State.updHold_seals (s : State) (g : Nat) (f : Hold → Hold) : (s.updHold g f).seals = s.seals := rfl
@[simp] theorem State.updHold_difWaiting (s : State) (g : Nat) (f : Hold → Hold) : (s.updHold g f).difWaiting = s.difWaiting := rfl
@[simp] theorem State.updHold_seenUpdates (s : State) (g : Nat) (f : Hold → Hold) : (s.updHold g f).seenUpdates = s.seenUpdates := rfl
@[simp] theorem State.updHold_cutOff (s : State) (g : Nat) (f : Hold → Hold) : (s.updHold g f).cutOff = s.cutOff := rfl
@[simp] theorem State.updHold_portEpochs (s : State) (g : Nat) (f : Hold → Hold) : (s.updHold g f).portEpochs = s.portEpochs := rfl
@[simp] theorem State.updHold_sentUpdates (s : State) (g : Nat) (f : Hold → Hold) : (s.updHold g f).sentUpdates = s.sentUpdates := rfl
@[simp] theorem State.updHold_difReplies (s : State) (g : Nat) (f : Hold → Hold) : (s.updHold g f).difReplies = s.difReplies := rfl
@[simp] theorem State.updHold_hostUp (s : State) (g : Nat) (f : Hold → Hold) : (s.updHold g f).hostUp = s.hostUp := rfl
@[simp] theorem State.updHold_foreign (s : State) (g : Nat) (f : Hold → Hold) : (s.updHold g f).foreign = s.foreign := rfl
@[simp] theorem State.updHold_later (s : State) (g : Nat) (f : Hold → Hold) : (s.updHold g f).later = s.later := rfl
@[simp] theorem State.updHold_hdm (s : State) (g : Nat) (f : Hold → Hold) : (s.updHold g f).hdm = s.hdm := rfl
@[simp] theorem State.updHold_replies (s : State) (g : Nat) (f : Hold → Hold) : (s.updHold g f).replies = s.replies := rfl
@[simp] theorem State.updHold_msix (s : State) (g : Nat) (f : Hold → Hold) : (s.updHold g f).msix = s.msix := rfl
@[simp] theorem State.updHold_hostLines (s : State) (g : Nat) (f : Hold → Hold) : (s.updHold g f).hostLines = s.hostLines := rfl
@[simp] theorem State.updHold_phys (s : State) (g : Nat) (f : Hold → Hold) : (s.updHold g f).phys = s.phys := rfl
@[simp] theorem State.updHold_sec (s : State) (g : Nat) (f : Hold → Hold) : (s.updHold g f).sec = s.sec := rfl

/-! ### setCtx -/

@[simp] theorem State.setCtx_agenda (s : State) (w : Who) (c : Ctx) : (s.setCtx w c).agenda = s.agenda := rfl
@[simp] theorem State.setCtx_turn (s : State) (w : Who) (c : Ctx) : (s.setCtx w c).turn = s.turn := rfl
@[simp] theorem State.setCtx_focus (s : State) (w : Who) (c : Ctx) : (s.setCtx w c).focus = s.focus := rfl
@[simp] theorem State.setCtx_rotor (s : State) (w : Who) (c : Ctx) : (s.setCtx w c).rotor = s.rotor := rfl
@[simp] theorem State.setCtx_freeCount (s : State) (w : Who) (c : Ctx) : (s.setCtx w c).freeCount = s.freeCount := rfl
@[simp] theorem State.setCtx_clusters (s : State) (w : Who) (c : Ctx) : (s.setCtx w c).clusters = s.clusters := rfl
@[simp] theorem State.setCtx_walks (s : State) (w : Who) (c : Ctx) : (s.setCtx w c).walks = s.walks := rfl
@[simp] theorem State.setCtx_mem (s : State) (w : Who) (c : Ctx) : (s.setCtx w c).mem = s.mem := rfl
@[simp] theorem State.setCtx_poison (s : State) (w : Who) (c : Ctx) : (s.setCtx w c).poison = s.poison := rfl
@[simp] theorem State.setCtx_parts (s : State) (w : Who) (c : Ctx) : (s.setCtx w c).parts = s.parts := rfl
@[simp] theorem State.setCtx_jobs (s : State) (w : Who) (c : Ctx) : (s.setCtx w c).jobs = s.jobs := rfl
@[simp] theorem State.setCtx_transfers (s : State) (w : Who) (c : Ctx) : (s.setCtx w c).transfers = s.transfers := rfl
@[simp] theorem State.setCtx_nextTask (s : State) (w : Who) (c : Ctx) : (s.setCtx w c).nextTask = s.nextTask := rfl
@[simp] theorem State.setCtx_invalidations (s : State) (w : Who) (c : Ctx) : (s.setCtx w c).invalidations = s.invalidations := rfl
@[simp] theorem State.setCtx_exitedPubs (s : State) (w : Who) (c : Ctx) : (s.setCtx w c).exitedPubs = s.exitedPubs := rfl
@[simp] theorem State.setCtx_difEn (s : State) (w : Who) (c : Ctx) : (s.setCtx w c).difEn = s.difEn := rfl
@[simp] theorem State.setCtx_difIndex (s : State) (w : Who) (c : Ctx) : (s.setCtx w c).difIndex = s.difIndex := rfl
@[simp] theorem State.setCtx_difUp (s : State) (w : Who) (c : Ctx) : (s.setCtx w c).difUp = s.difUp := rfl
@[simp] theorem State.setCtx_ptags (s : State) (w : Who) (c : Ctx) : (s.setCtx w c).ptags = s.ptags := rfl
@[simp] theorem State.setCtx_exports (s : State) (w : Who) (c : Ctx) : (s.setCtx w c).exports = s.exports := rfl
@[simp] theorem State.setCtx_updates (s : State) (w : Who) (c : Ctx) : (s.setCtx w c).updates = s.updates := rfl
@[simp] theorem State.setCtx_seals (s : State) (w : Who) (c : Ctx) : (s.setCtx w c).seals = s.seals := rfl
@[simp] theorem State.setCtx_difWaiting (s : State) (w : Who) (c : Ctx) : (s.setCtx w c).difWaiting = s.difWaiting := rfl
@[simp] theorem State.setCtx_seenUpdates (s : State) (w : Who) (c : Ctx) : (s.setCtx w c).seenUpdates = s.seenUpdates := rfl
@[simp] theorem State.setCtx_cutOff (s : State) (w : Who) (c : Ctx) : (s.setCtx w c).cutOff = s.cutOff := rfl
@[simp] theorem State.setCtx_portEpochs (s : State) (w : Who) (c : Ctx) : (s.setCtx w c).portEpochs = s.portEpochs := rfl
@[simp] theorem State.setCtx_sentUpdates (s : State) (w : Who) (c : Ctx) : (s.setCtx w c).sentUpdates = s.sentUpdates := rfl
@[simp] theorem State.setCtx_difReplies (s : State) (w : Who) (c : Ctx) : (s.setCtx w c).difReplies = s.difReplies := rfl
@[simp] theorem State.setCtx_hostUp (s : State) (w : Who) (c : Ctx) : (s.setCtx w c).hostUp = s.hostUp := rfl
@[simp] theorem State.setCtx_foreign (s : State) (w : Who) (c : Ctx) : (s.setCtx w c).foreign = s.foreign := rfl
@[simp] theorem State.setCtx_later (s : State) (w : Who) (c : Ctx) : (s.setCtx w c).later = s.later := rfl
@[simp] theorem State.setCtx_hdm (s : State) (w : Who) (c : Ctx) : (s.setCtx w c).hdm = s.hdm := rfl
@[simp] theorem State.setCtx_replies (s : State) (w : Who) (c : Ctx) : (s.setCtx w c).replies = s.replies := rfl
@[simp] theorem State.setCtx_msix (s : State) (w : Who) (c : Ctx) : (s.setCtx w c).msix = s.msix := rfl
@[simp] theorem State.setCtx_hostLines (s : State) (w : Who) (c : Ctx) : (s.setCtx w c).hostLines = s.hostLines := rfl
@[simp] theorem State.setCtx_phys (s : State) (w : Who) (c : Ctx) : (s.setCtx w c).phys = s.phys := rfl
@[simp] theorem State.setCtx_sec (s : State) (w : Who) (c : Ctx) : (s.setCtx w c).sec = s.sec := rfl

/-! ### updCtx -/

@[simp] theorem State.updCtx_agenda (s : State) (w : Who) (f : Ctx → Ctx) : (s.updCtx w f).agenda = s.agenda := rfl
@[simp] theorem State.updCtx_turn (s : State) (w : Who) (f : Ctx → Ctx) : (s.updCtx w f).turn = s.turn := rfl
@[simp] theorem State.updCtx_focus (s : State) (w : Who) (f : Ctx → Ctx) : (s.updCtx w f).focus = s.focus := rfl
@[simp] theorem State.updCtx_rotor (s : State) (w : Who) (f : Ctx → Ctx) : (s.updCtx w f).rotor = s.rotor := rfl
@[simp] theorem State.updCtx_freeCount (s : State) (w : Who) (f : Ctx → Ctx) : (s.updCtx w f).freeCount = s.freeCount := rfl
@[simp] theorem State.updCtx_clusters (s : State) (w : Who) (f : Ctx → Ctx) : (s.updCtx w f).clusters = s.clusters := rfl
@[simp] theorem State.updCtx_walks (s : State) (w : Who) (f : Ctx → Ctx) : (s.updCtx w f).walks = s.walks := rfl
@[simp] theorem State.updCtx_mem (s : State) (w : Who) (f : Ctx → Ctx) : (s.updCtx w f).mem = s.mem := rfl
@[simp] theorem State.updCtx_poison (s : State) (w : Who) (f : Ctx → Ctx) : (s.updCtx w f).poison = s.poison := rfl
@[simp] theorem State.updCtx_parts (s : State) (w : Who) (f : Ctx → Ctx) : (s.updCtx w f).parts = s.parts := rfl
@[simp] theorem State.updCtx_jobs (s : State) (w : Who) (f : Ctx → Ctx) : (s.updCtx w f).jobs = s.jobs := rfl
@[simp] theorem State.updCtx_transfers (s : State) (w : Who) (f : Ctx → Ctx) : (s.updCtx w f).transfers = s.transfers := rfl
@[simp] theorem State.updCtx_nextTask (s : State) (w : Who) (f : Ctx → Ctx) : (s.updCtx w f).nextTask = s.nextTask := rfl
@[simp] theorem State.updCtx_invalidations (s : State) (w : Who) (f : Ctx → Ctx) : (s.updCtx w f).invalidations = s.invalidations := rfl
@[simp] theorem State.updCtx_exitedPubs (s : State) (w : Who) (f : Ctx → Ctx) : (s.updCtx w f).exitedPubs = s.exitedPubs := rfl
@[simp] theorem State.updCtx_difEn (s : State) (w : Who) (f : Ctx → Ctx) : (s.updCtx w f).difEn = s.difEn := rfl
@[simp] theorem State.updCtx_difIndex (s : State) (w : Who) (f : Ctx → Ctx) : (s.updCtx w f).difIndex = s.difIndex := rfl
@[simp] theorem State.updCtx_difUp (s : State) (w : Who) (f : Ctx → Ctx) : (s.updCtx w f).difUp = s.difUp := rfl
@[simp] theorem State.updCtx_ptags (s : State) (w : Who) (f : Ctx → Ctx) : (s.updCtx w f).ptags = s.ptags := rfl
@[simp] theorem State.updCtx_exports (s : State) (w : Who) (f : Ctx → Ctx) : (s.updCtx w f).exports = s.exports := rfl
@[simp] theorem State.updCtx_updates (s : State) (w : Who) (f : Ctx → Ctx) : (s.updCtx w f).updates = s.updates := rfl
@[simp] theorem State.updCtx_seals (s : State) (w : Who) (f : Ctx → Ctx) : (s.updCtx w f).seals = s.seals := rfl
@[simp] theorem State.updCtx_difWaiting (s : State) (w : Who) (f : Ctx → Ctx) : (s.updCtx w f).difWaiting = s.difWaiting := rfl
@[simp] theorem State.updCtx_seenUpdates (s : State) (w : Who) (f : Ctx → Ctx) : (s.updCtx w f).seenUpdates = s.seenUpdates := rfl
@[simp] theorem State.updCtx_cutOff (s : State) (w : Who) (f : Ctx → Ctx) : (s.updCtx w f).cutOff = s.cutOff := rfl
@[simp] theorem State.updCtx_portEpochs (s : State) (w : Who) (f : Ctx → Ctx) : (s.updCtx w f).portEpochs = s.portEpochs := rfl
@[simp] theorem State.updCtx_sentUpdates (s : State) (w : Who) (f : Ctx → Ctx) : (s.updCtx w f).sentUpdates = s.sentUpdates := rfl
@[simp] theorem State.updCtx_difReplies (s : State) (w : Who) (f : Ctx → Ctx) : (s.updCtx w f).difReplies = s.difReplies := rfl
@[simp] theorem State.updCtx_hostUp (s : State) (w : Who) (f : Ctx → Ctx) : (s.updCtx w f).hostUp = s.hostUp := rfl
@[simp] theorem State.updCtx_foreign (s : State) (w : Who) (f : Ctx → Ctx) : (s.updCtx w f).foreign = s.foreign := rfl
@[simp] theorem State.updCtx_later (s : State) (w : Who) (f : Ctx → Ctx) : (s.updCtx w f).later = s.later := rfl
@[simp] theorem State.updCtx_hdm (s : State) (w : Who) (f : Ctx → Ctx) : (s.updCtx w f).hdm = s.hdm := rfl
@[simp] theorem State.updCtx_replies (s : State) (w : Who) (f : Ctx → Ctx) : (s.updCtx w f).replies = s.replies := rfl
@[simp] theorem State.updCtx_msix (s : State) (w : Who) (f : Ctx → Ctx) : (s.updCtx w f).msix = s.msix := rfl
@[simp] theorem State.updCtx_hostLines (s : State) (w : Who) (f : Ctx → Ctx) : (s.updCtx w f).hostLines = s.hostLines := rfl
@[simp] theorem State.updCtx_phys (s : State) (w : Who) (f : Ctx → Ctx) : (s.updCtx w f).phys = s.phys := rfl
@[simp] theorem State.updCtx_sec (s : State) (w : Who) (f : Ctx → Ctx) : (s.updCtx w f).sec = s.sec := rfl

/-! ### setCluster -/

@[simp] theorem State.setCluster_agenda (s : State) (n : Nat) (c : Cluster) : (s.setCluster n c).agenda = s.agenda := rfl
@[simp] theorem State.setCluster_turn (s : State) (n : Nat) (c : Cluster) : (s.setCluster n c).turn = s.turn := rfl
@[simp] theorem State.setCluster_focus (s : State) (n : Nat) (c : Cluster) : (s.setCluster n c).focus = s.focus := rfl
@[simp] theorem State.setCluster_rotor (s : State) (n : Nat) (c : Cluster) : (s.setCluster n c).rotor = s.rotor := rfl
@[simp] theorem State.setCluster_freeCount (s : State) (n : Nat) (c : Cluster) : (s.setCluster n c).freeCount = s.freeCount := rfl
@[simp] theorem State.setCluster_cores (s : State) (n : Nat) (c : Cluster) : (s.setCluster n c).cores = s.cores := rfl
@[simp] theorem State.setCluster_walks (s : State) (n : Nat) (c : Cluster) : (s.setCluster n c).walks = s.walks := rfl
@[simp] theorem State.setCluster_mem (s : State) (n : Nat) (c : Cluster) : (s.setCluster n c).mem = s.mem := rfl
@[simp] theorem State.setCluster_poison (s : State) (n : Nat) (c : Cluster) : (s.setCluster n c).poison = s.poison := rfl
@[simp] theorem State.setCluster_parts (s : State) (n : Nat) (c : Cluster) : (s.setCluster n c).parts = s.parts := rfl
@[simp] theorem State.setCluster_jobs (s : State) (n : Nat) (c : Cluster) : (s.setCluster n c).jobs = s.jobs := rfl
@[simp] theorem State.setCluster_transfers (s : State) (n : Nat) (c : Cluster) : (s.setCluster n c).transfers = s.transfers := rfl
@[simp] theorem State.setCluster_nextTask (s : State) (n : Nat) (c : Cluster) : (s.setCluster n c).nextTask = s.nextTask := rfl
@[simp] theorem State.setCluster_invalidations (s : State) (n : Nat) (c : Cluster) : (s.setCluster n c).invalidations = s.invalidations := rfl
@[simp] theorem State.setCluster_exitedPubs (s : State) (n : Nat) (c : Cluster) : (s.setCluster n c).exitedPubs = s.exitedPubs := rfl
@[simp] theorem State.setCluster_difEn (s : State) (n : Nat) (c : Cluster) : (s.setCluster n c).difEn = s.difEn := rfl
@[simp] theorem State.setCluster_difIndex (s : State) (n : Nat) (c : Cluster) : (s.setCluster n c).difIndex = s.difIndex := rfl
@[simp] theorem State.setCluster_difUp (s : State) (n : Nat) (c : Cluster) : (s.setCluster n c).difUp = s.difUp := rfl
@[simp] theorem State.setCluster_ptags (s : State) (n : Nat) (c : Cluster) : (s.setCluster n c).ptags = s.ptags := rfl
@[simp] theorem State.setCluster_exports (s : State) (n : Nat) (c : Cluster) : (s.setCluster n c).exports = s.exports := rfl
@[simp] theorem State.setCluster_updates (s : State) (n : Nat) (c : Cluster) : (s.setCluster n c).updates = s.updates := rfl
@[simp] theorem State.setCluster_seals (s : State) (n : Nat) (c : Cluster) : (s.setCluster n c).seals = s.seals := rfl
@[simp] theorem State.setCluster_difWaiting (s : State) (n : Nat) (c : Cluster) : (s.setCluster n c).difWaiting = s.difWaiting := rfl
@[simp] theorem State.setCluster_seenUpdates (s : State) (n : Nat) (c : Cluster) : (s.setCluster n c).seenUpdates = s.seenUpdates := rfl
@[simp] theorem State.setCluster_cutOff (s : State) (n : Nat) (c : Cluster) : (s.setCluster n c).cutOff = s.cutOff := rfl
@[simp] theorem State.setCluster_portEpochs (s : State) (n : Nat) (c : Cluster) : (s.setCluster n c).portEpochs = s.portEpochs := rfl
@[simp] theorem State.setCluster_sentUpdates (s : State) (n : Nat) (c : Cluster) : (s.setCluster n c).sentUpdates = s.sentUpdates := rfl
@[simp] theorem State.setCluster_difReplies (s : State) (n : Nat) (c : Cluster) : (s.setCluster n c).difReplies = s.difReplies := rfl
@[simp] theorem State.setCluster_hostUp (s : State) (n : Nat) (c : Cluster) : (s.setCluster n c).hostUp = s.hostUp := rfl
@[simp] theorem State.setCluster_foreign (s : State) (n : Nat) (c : Cluster) : (s.setCluster n c).foreign = s.foreign := rfl
@[simp] theorem State.setCluster_later (s : State) (n : Nat) (c : Cluster) : (s.setCluster n c).later = s.later := rfl
@[simp] theorem State.setCluster_hdm (s : State) (n : Nat) (c : Cluster) : (s.setCluster n c).hdm = s.hdm := rfl
@[simp] theorem State.setCluster_replies (s : State) (n : Nat) (c : Cluster) : (s.setCluster n c).replies = s.replies := rfl
@[simp] theorem State.setCluster_msix (s : State) (n : Nat) (c : Cluster) : (s.setCluster n c).msix = s.msix := rfl
@[simp] theorem State.setCluster_hostLines (s : State) (n : Nat) (c : Cluster) : (s.setCluster n c).hostLines = s.hostLines := rfl
@[simp] theorem State.setCluster_phys (s : State) (n : Nat) (c : Cluster) : (s.setCluster n c).phys = s.phys := rfl
@[simp] theorem State.setCluster_sec (s : State) (n : Nat) (c : Cluster) : (s.setCluster n c).sec = s.sec := rfl

/-! ### setPart -/

@[simp] theorem State.setPart_agenda (s : State) (p : Nat) (x : Part) : (s.setPart p x).agenda = s.agenda := rfl
@[simp] theorem State.setPart_turn (s : State) (p : Nat) (x : Part) : (s.setPart p x).turn = s.turn := rfl
@[simp] theorem State.setPart_focus (s : State) (p : Nat) (x : Part) : (s.setPart p x).focus = s.focus := rfl
@[simp] theorem State.setPart_rotor (s : State) (p : Nat) (x : Part) : (s.setPart p x).rotor = s.rotor := rfl
@[simp] theorem State.setPart_freeCount (s : State) (p : Nat) (x : Part) : (s.setPart p x).freeCount = s.freeCount := rfl
@[simp] theorem State.setPart_cores (s : State) (p : Nat) (x : Part) : (s.setPart p x).cores = s.cores := rfl
@[simp] theorem State.setPart_clusters (s : State) (p : Nat) (x : Part) : (s.setPart p x).clusters = s.clusters := rfl
@[simp] theorem State.setPart_walks (s : State) (p : Nat) (x : Part) : (s.setPart p x).walks = s.walks := rfl
@[simp] theorem State.setPart_mem (s : State) (p : Nat) (x : Part) : (s.setPart p x).mem = s.mem := rfl
@[simp] theorem State.setPart_poison (s : State) (p : Nat) (x : Part) : (s.setPart p x).poison = s.poison := rfl
@[simp] theorem State.setPart_jobs (s : State) (p : Nat) (x : Part) : (s.setPart p x).jobs = s.jobs := rfl
@[simp] theorem State.setPart_transfers (s : State) (p : Nat) (x : Part) : (s.setPart p x).transfers = s.transfers := rfl
@[simp] theorem State.setPart_nextTask (s : State) (p : Nat) (x : Part) : (s.setPart p x).nextTask = s.nextTask := rfl
@[simp] theorem State.setPart_invalidations (s : State) (p : Nat) (x : Part) : (s.setPart p x).invalidations = s.invalidations := rfl
@[simp] theorem State.setPart_exitedPubs (s : State) (p : Nat) (x : Part) : (s.setPart p x).exitedPubs = s.exitedPubs := rfl
@[simp] theorem State.setPart_difEn (s : State) (p : Nat) (x : Part) : (s.setPart p x).difEn = s.difEn := rfl
@[simp] theorem State.setPart_difIndex (s : State) (p : Nat) (x : Part) : (s.setPart p x).difIndex = s.difIndex := rfl
@[simp] theorem State.setPart_difUp (s : State) (p : Nat) (x : Part) : (s.setPart p x).difUp = s.difUp := rfl
@[simp] theorem State.setPart_ptags (s : State) (p : Nat) (x : Part) : (s.setPart p x).ptags = s.ptags := rfl
@[simp] theorem State.setPart_exports (s : State) (p : Nat) (x : Part) : (s.setPart p x).exports = s.exports := rfl
@[simp] theorem State.setPart_updates (s : State) (p : Nat) (x : Part) : (s.setPart p x).updates = s.updates := rfl
@[simp] theorem State.setPart_seals (s : State) (p : Nat) (x : Part) : (s.setPart p x).seals = s.seals := rfl
@[simp] theorem State.setPart_difWaiting (s : State) (p : Nat) (x : Part) : (s.setPart p x).difWaiting = s.difWaiting := rfl
@[simp] theorem State.setPart_seenUpdates (s : State) (p : Nat) (x : Part) : (s.setPart p x).seenUpdates = s.seenUpdates := rfl
@[simp] theorem State.setPart_cutOff (s : State) (p : Nat) (x : Part) : (s.setPart p x).cutOff = s.cutOff := rfl
@[simp] theorem State.setPart_portEpochs (s : State) (p : Nat) (x : Part) : (s.setPart p x).portEpochs = s.portEpochs := rfl
@[simp] theorem State.setPart_sentUpdates (s : State) (p : Nat) (x : Part) : (s.setPart p x).sentUpdates = s.sentUpdates := rfl
@[simp] theorem State.setPart_difReplies (s : State) (p : Nat) (x : Part) : (s.setPart p x).difReplies = s.difReplies := rfl
@[simp] theorem State.setPart_hostUp (s : State) (p : Nat) (x : Part) : (s.setPart p x).hostUp = s.hostUp := rfl
@[simp] theorem State.setPart_foreign (s : State) (p : Nat) (x : Part) : (s.setPart p x).foreign = s.foreign := rfl
@[simp] theorem State.setPart_later (s : State) (p : Nat) (x : Part) : (s.setPart p x).later = s.later := rfl
@[simp] theorem State.setPart_hdm (s : State) (p : Nat) (x : Part) : (s.setPart p x).hdm = s.hdm := rfl
@[simp] theorem State.setPart_replies (s : State) (p : Nat) (x : Part) : (s.setPart p x).replies = s.replies := rfl
@[simp] theorem State.setPart_msix (s : State) (p : Nat) (x : Part) : (s.setPart p x).msix = s.msix := rfl
@[simp] theorem State.setPart_hostLines (s : State) (p : Nat) (x : Part) : (s.setPart p x).hostLines = s.hostLines := rfl
@[simp] theorem State.setPart_phys (s : State) (p : Nat) (x : Part) : (s.setPart p x).phys = s.phys := rfl
@[simp] theorem State.setPart_sec (s : State) (p : Nat) (x : Part) : (s.setPart p x).sec = s.sec := rfl

/-! ### updPart -/

@[simp] theorem State.updPart_agenda (s : State) (p : Nat) (f : Part → Part) : (s.updPart p f).agenda = s.agenda := rfl
@[simp] theorem State.updPart_turn (s : State) (p : Nat) (f : Part → Part) : (s.updPart p f).turn = s.turn := rfl
@[simp] theorem State.updPart_focus (s : State) (p : Nat) (f : Part → Part) : (s.updPart p f).focus = s.focus := rfl
@[simp] theorem State.updPart_rotor (s : State) (p : Nat) (f : Part → Part) : (s.updPart p f).rotor = s.rotor := rfl
@[simp] theorem State.updPart_freeCount (s : State) (p : Nat) (f : Part → Part) : (s.updPart p f).freeCount = s.freeCount := rfl
@[simp] theorem State.updPart_cores (s : State) (p : Nat) (f : Part → Part) : (s.updPart p f).cores = s.cores := rfl
@[simp] theorem State.updPart_clusters (s : State) (p : Nat) (f : Part → Part) : (s.updPart p f).clusters = s.clusters := rfl
@[simp] theorem State.updPart_walks (s : State) (p : Nat) (f : Part → Part) : (s.updPart p f).walks = s.walks := rfl
@[simp] theorem State.updPart_mem (s : State) (p : Nat) (f : Part → Part) : (s.updPart p f).mem = s.mem := rfl
@[simp] theorem State.updPart_poison (s : State) (p : Nat) (f : Part → Part) : (s.updPart p f).poison = s.poison := rfl
@[simp] theorem State.updPart_jobs (s : State) (p : Nat) (f : Part → Part) : (s.updPart p f).jobs = s.jobs := rfl
@[simp] theorem State.updPart_transfers (s : State) (p : Nat) (f : Part → Part) : (s.updPart p f).transfers = s.transfers := rfl
@[simp] theorem State.updPart_nextTask (s : State) (p : Nat) (f : Part → Part) : (s.updPart p f).nextTask = s.nextTask := rfl
@[simp] theorem State.updPart_invalidations (s : State) (p : Nat) (f : Part → Part) : (s.updPart p f).invalidations = s.invalidations := rfl
@[simp] theorem State.updPart_exitedPubs (s : State) (p : Nat) (f : Part → Part) : (s.updPart p f).exitedPubs = s.exitedPubs := rfl
@[simp] theorem State.updPart_difEn (s : State) (p : Nat) (f : Part → Part) : (s.updPart p f).difEn = s.difEn := rfl
@[simp] theorem State.updPart_difIndex (s : State) (p : Nat) (f : Part → Part) : (s.updPart p f).difIndex = s.difIndex := rfl
@[simp] theorem State.updPart_difUp (s : State) (p : Nat) (f : Part → Part) : (s.updPart p f).difUp = s.difUp := rfl
@[simp] theorem State.updPart_ptags (s : State) (p : Nat) (f : Part → Part) : (s.updPart p f).ptags = s.ptags := rfl
@[simp] theorem State.updPart_exports (s : State) (p : Nat) (f : Part → Part) : (s.updPart p f).exports = s.exports := rfl
@[simp] theorem State.updPart_updates (s : State) (p : Nat) (f : Part → Part) : (s.updPart p f).updates = s.updates := rfl
@[simp] theorem State.updPart_seals (s : State) (p : Nat) (f : Part → Part) : (s.updPart p f).seals = s.seals := rfl
@[simp] theorem State.updPart_difWaiting (s : State) (p : Nat) (f : Part → Part) : (s.updPart p f).difWaiting = s.difWaiting := rfl
@[simp] theorem State.updPart_seenUpdates (s : State) (p : Nat) (f : Part → Part) : (s.updPart p f).seenUpdates = s.seenUpdates := rfl
@[simp] theorem State.updPart_cutOff (s : State) (p : Nat) (f : Part → Part) : (s.updPart p f).cutOff = s.cutOff := rfl
@[simp] theorem State.updPart_portEpochs (s : State) (p : Nat) (f : Part → Part) : (s.updPart p f).portEpochs = s.portEpochs := rfl
@[simp] theorem State.updPart_sentUpdates (s : State) (p : Nat) (f : Part → Part) : (s.updPart p f).sentUpdates = s.sentUpdates := rfl
@[simp] theorem State.updPart_difReplies (s : State) (p : Nat) (f : Part → Part) : (s.updPart p f).difReplies = s.difReplies := rfl
@[simp] theorem State.updPart_hostUp (s : State) (p : Nat) (f : Part → Part) : (s.updPart p f).hostUp = s.hostUp := rfl
@[simp] theorem State.updPart_foreign (s : State) (p : Nat) (f : Part → Part) : (s.updPart p f).foreign = s.foreign := rfl
@[simp] theorem State.updPart_later (s : State) (p : Nat) (f : Part → Part) : (s.updPart p f).later = s.later := rfl
@[simp] theorem State.updPart_hdm (s : State) (p : Nat) (f : Part → Part) : (s.updPart p f).hdm = s.hdm := rfl
@[simp] theorem State.updPart_replies (s : State) (p : Nat) (f : Part → Part) : (s.updPart p f).replies = s.replies := rfl
@[simp] theorem State.updPart_msix (s : State) (p : Nat) (f : Part → Part) : (s.updPart p f).msix = s.msix := rfl
@[simp] theorem State.updPart_hostLines (s : State) (p : Nat) (f : Part → Part) : (s.updPart p f).hostLines = s.hostLines := rfl
@[simp] theorem State.updPart_phys (s : State) (p : Nat) (f : Part → Part) : (s.updPart p f).phys = s.phys := rfl
@[simp] theorem State.updPart_sec (s : State) (p : Nat) (f : Part → Part) : (s.updPart p f).sec = s.sec := rfl

/-! ### setJob -/

@[simp] theorem State.setJob_agenda (s : State) (j : Nat) (x : Job) : (s.setJob j x).agenda = s.agenda := rfl
@[simp] theorem State.setJob_turn (s : State) (j : Nat) (x : Job) : (s.setJob j x).turn = s.turn := rfl
@[simp] theorem State.setJob_focus (s : State) (j : Nat) (x : Job) : (s.setJob j x).focus = s.focus := rfl
@[simp] theorem State.setJob_rotor (s : State) (j : Nat) (x : Job) : (s.setJob j x).rotor = s.rotor := rfl
@[simp] theorem State.setJob_freeCount (s : State) (j : Nat) (x : Job) : (s.setJob j x).freeCount = s.freeCount := rfl
@[simp] theorem State.setJob_cores (s : State) (j : Nat) (x : Job) : (s.setJob j x).cores = s.cores := rfl
@[simp] theorem State.setJob_clusters (s : State) (j : Nat) (x : Job) : (s.setJob j x).clusters = s.clusters := rfl
@[simp] theorem State.setJob_walks (s : State) (j : Nat) (x : Job) : (s.setJob j x).walks = s.walks := rfl
@[simp] theorem State.setJob_mem (s : State) (j : Nat) (x : Job) : (s.setJob j x).mem = s.mem := rfl
@[simp] theorem State.setJob_poison (s : State) (j : Nat) (x : Job) : (s.setJob j x).poison = s.poison := rfl
@[simp] theorem State.setJob_parts (s : State) (j : Nat) (x : Job) : (s.setJob j x).parts = s.parts := rfl
@[simp] theorem State.setJob_transfers (s : State) (j : Nat) (x : Job) : (s.setJob j x).transfers = s.transfers := rfl
@[simp] theorem State.setJob_nextTask (s : State) (j : Nat) (x : Job) : (s.setJob j x).nextTask = s.nextTask := rfl
@[simp] theorem State.setJob_invalidations (s : State) (j : Nat) (x : Job) : (s.setJob j x).invalidations = s.invalidations := rfl
@[simp] theorem State.setJob_exitedPubs (s : State) (j : Nat) (x : Job) : (s.setJob j x).exitedPubs = s.exitedPubs := rfl
@[simp] theorem State.setJob_difEn (s : State) (j : Nat) (x : Job) : (s.setJob j x).difEn = s.difEn := rfl
@[simp] theorem State.setJob_difIndex (s : State) (j : Nat) (x : Job) : (s.setJob j x).difIndex = s.difIndex := rfl
@[simp] theorem State.setJob_difUp (s : State) (j : Nat) (x : Job) : (s.setJob j x).difUp = s.difUp := rfl
@[simp] theorem State.setJob_ptags (s : State) (j : Nat) (x : Job) : (s.setJob j x).ptags = s.ptags := rfl
@[simp] theorem State.setJob_exports (s : State) (j : Nat) (x : Job) : (s.setJob j x).exports = s.exports := rfl
@[simp] theorem State.setJob_updates (s : State) (j : Nat) (x : Job) : (s.setJob j x).updates = s.updates := rfl
@[simp] theorem State.setJob_seals (s : State) (j : Nat) (x : Job) : (s.setJob j x).seals = s.seals := rfl
@[simp] theorem State.setJob_difWaiting (s : State) (j : Nat) (x : Job) : (s.setJob j x).difWaiting = s.difWaiting := rfl
@[simp] theorem State.setJob_seenUpdates (s : State) (j : Nat) (x : Job) : (s.setJob j x).seenUpdates = s.seenUpdates := rfl
@[simp] theorem State.setJob_cutOff (s : State) (j : Nat) (x : Job) : (s.setJob j x).cutOff = s.cutOff := rfl
@[simp] theorem State.setJob_portEpochs (s : State) (j : Nat) (x : Job) : (s.setJob j x).portEpochs = s.portEpochs := rfl
@[simp] theorem State.setJob_sentUpdates (s : State) (j : Nat) (x : Job) : (s.setJob j x).sentUpdates = s.sentUpdates := rfl
@[simp] theorem State.setJob_difReplies (s : State) (j : Nat) (x : Job) : (s.setJob j x).difReplies = s.difReplies := rfl
@[simp] theorem State.setJob_hostUp (s : State) (j : Nat) (x : Job) : (s.setJob j x).hostUp = s.hostUp := rfl
@[simp] theorem State.setJob_foreign (s : State) (j : Nat) (x : Job) : (s.setJob j x).foreign = s.foreign := rfl
@[simp] theorem State.setJob_later (s : State) (j : Nat) (x : Job) : (s.setJob j x).later = s.later := rfl
@[simp] theorem State.setJob_hdm (s : State) (j : Nat) (x : Job) : (s.setJob j x).hdm = s.hdm := rfl
@[simp] theorem State.setJob_replies (s : State) (j : Nat) (x : Job) : (s.setJob j x).replies = s.replies := rfl
@[simp] theorem State.setJob_msix (s : State) (j : Nat) (x : Job) : (s.setJob j x).msix = s.msix := rfl
@[simp] theorem State.setJob_hostLines (s : State) (j : Nat) (x : Job) : (s.setJob j x).hostLines = s.hostLines := rfl
@[simp] theorem State.setJob_phys (s : State) (j : Nat) (x : Job) : (s.setJob j x).phys = s.phys := rfl
@[simp] theorem State.setJob_sec (s : State) (j : Nat) (x : Job) : (s.setJob j x).sec = s.sec := rfl

/-! ### updJob -/

@[simp] theorem State.updJob_agenda (s : State) (j : Nat) (f : Job → Job) : (s.updJob j f).agenda = s.agenda := rfl
@[simp] theorem State.updJob_turn (s : State) (j : Nat) (f : Job → Job) : (s.updJob j f).turn = s.turn := rfl
@[simp] theorem State.updJob_focus (s : State) (j : Nat) (f : Job → Job) : (s.updJob j f).focus = s.focus := rfl
@[simp] theorem State.updJob_rotor (s : State) (j : Nat) (f : Job → Job) : (s.updJob j f).rotor = s.rotor := rfl
@[simp] theorem State.updJob_freeCount (s : State) (j : Nat) (f : Job → Job) : (s.updJob j f).freeCount = s.freeCount := rfl
@[simp] theorem State.updJob_cores (s : State) (j : Nat) (f : Job → Job) : (s.updJob j f).cores = s.cores := rfl
@[simp] theorem State.updJob_clusters (s : State) (j : Nat) (f : Job → Job) : (s.updJob j f).clusters = s.clusters := rfl
@[simp] theorem State.updJob_walks (s : State) (j : Nat) (f : Job → Job) : (s.updJob j f).walks = s.walks := rfl
@[simp] theorem State.updJob_mem (s : State) (j : Nat) (f : Job → Job) : (s.updJob j f).mem = s.mem := rfl
@[simp] theorem State.updJob_poison (s : State) (j : Nat) (f : Job → Job) : (s.updJob j f).poison = s.poison := rfl
@[simp] theorem State.updJob_parts (s : State) (j : Nat) (f : Job → Job) : (s.updJob j f).parts = s.parts := rfl
@[simp] theorem State.updJob_transfers (s : State) (j : Nat) (f : Job → Job) : (s.updJob j f).transfers = s.transfers := rfl
@[simp] theorem State.updJob_nextTask (s : State) (j : Nat) (f : Job → Job) : (s.updJob j f).nextTask = s.nextTask := rfl
@[simp] theorem State.updJob_invalidations (s : State) (j : Nat) (f : Job → Job) : (s.updJob j f).invalidations = s.invalidations := rfl
@[simp] theorem State.updJob_exitedPubs (s : State) (j : Nat) (f : Job → Job) : (s.updJob j f).exitedPubs = s.exitedPubs := rfl
@[simp] theorem State.updJob_difEn (s : State) (j : Nat) (f : Job → Job) : (s.updJob j f).difEn = s.difEn := rfl
@[simp] theorem State.updJob_difIndex (s : State) (j : Nat) (f : Job → Job) : (s.updJob j f).difIndex = s.difIndex := rfl
@[simp] theorem State.updJob_difUp (s : State) (j : Nat) (f : Job → Job) : (s.updJob j f).difUp = s.difUp := rfl
@[simp] theorem State.updJob_ptags (s : State) (j : Nat) (f : Job → Job) : (s.updJob j f).ptags = s.ptags := rfl
@[simp] theorem State.updJob_exports (s : State) (j : Nat) (f : Job → Job) : (s.updJob j f).exports = s.exports := rfl
@[simp] theorem State.updJob_updates (s : State) (j : Nat) (f : Job → Job) : (s.updJob j f).updates = s.updates := rfl
@[simp] theorem State.updJob_seals (s : State) (j : Nat) (f : Job → Job) : (s.updJob j f).seals = s.seals := rfl
@[simp] theorem State.updJob_difWaiting (s : State) (j : Nat) (f : Job → Job) : (s.updJob j f).difWaiting = s.difWaiting := rfl
@[simp] theorem State.updJob_seenUpdates (s : State) (j : Nat) (f : Job → Job) : (s.updJob j f).seenUpdates = s.seenUpdates := rfl
@[simp] theorem State.updJob_cutOff (s : State) (j : Nat) (f : Job → Job) : (s.updJob j f).cutOff = s.cutOff := rfl
@[simp] theorem State.updJob_portEpochs (s : State) (j : Nat) (f : Job → Job) : (s.updJob j f).portEpochs = s.portEpochs := rfl
@[simp] theorem State.updJob_sentUpdates (s : State) (j : Nat) (f : Job → Job) : (s.updJob j f).sentUpdates = s.sentUpdates := rfl
@[simp] theorem State.updJob_difReplies (s : State) (j : Nat) (f : Job → Job) : (s.updJob j f).difReplies = s.difReplies := rfl
@[simp] theorem State.updJob_hostUp (s : State) (j : Nat) (f : Job → Job) : (s.updJob j f).hostUp = s.hostUp := rfl
@[simp] theorem State.updJob_foreign (s : State) (j : Nat) (f : Job → Job) : (s.updJob j f).foreign = s.foreign := rfl
@[simp] theorem State.updJob_later (s : State) (j : Nat) (f : Job → Job) : (s.updJob j f).later = s.later := rfl
@[simp] theorem State.updJob_hdm (s : State) (j : Nat) (f : Job → Job) : (s.updJob j f).hdm = s.hdm := rfl
@[simp] theorem State.updJob_replies (s : State) (j : Nat) (f : Job → Job) : (s.updJob j f).replies = s.replies := rfl
@[simp] theorem State.updJob_msix (s : State) (j : Nat) (f : Job → Job) : (s.updJob j f).msix = s.msix := rfl
@[simp] theorem State.updJob_hostLines (s : State) (j : Nat) (f : Job → Job) : (s.updJob j f).hostLines = s.hostLines := rfl
@[simp] theorem State.updJob_phys (s : State) (j : Nat) (f : Job → Job) : (s.updJob j f).phys = s.phys := rfl
@[simp] theorem State.updJob_sec (s : State) (j : Nat) (f : Job → Job) : (s.updJob j f).sec = s.sec := rfl

/-! ### setPhy -/

@[simp] theorem State.setPhy_agenda (s : State) (c : Nat) (x : Phy) : (s.setPhy c x).agenda = s.agenda := rfl
@[simp] theorem State.setPhy_turn (s : State) (c : Nat) (x : Phy) : (s.setPhy c x).turn = s.turn := rfl
@[simp] theorem State.setPhy_focus (s : State) (c : Nat) (x : Phy) : (s.setPhy c x).focus = s.focus := rfl
@[simp] theorem State.setPhy_rotor (s : State) (c : Nat) (x : Phy) : (s.setPhy c x).rotor = s.rotor := rfl
@[simp] theorem State.setPhy_freeCount (s : State) (c : Nat) (x : Phy) : (s.setPhy c x).freeCount = s.freeCount := rfl
@[simp] theorem State.setPhy_cores (s : State) (c : Nat) (x : Phy) : (s.setPhy c x).cores = s.cores := rfl
@[simp] theorem State.setPhy_clusters (s : State) (c : Nat) (x : Phy) : (s.setPhy c x).clusters = s.clusters := rfl
@[simp] theorem State.setPhy_walks (s : State) (c : Nat) (x : Phy) : (s.setPhy c x).walks = s.walks := rfl
@[simp] theorem State.setPhy_mem (s : State) (c : Nat) (x : Phy) : (s.setPhy c x).mem = s.mem := rfl
@[simp] theorem State.setPhy_poison (s : State) (c : Nat) (x : Phy) : (s.setPhy c x).poison = s.poison := rfl
@[simp] theorem State.setPhy_parts (s : State) (c : Nat) (x : Phy) : (s.setPhy c x).parts = s.parts := rfl
@[simp] theorem State.setPhy_jobs (s : State) (c : Nat) (x : Phy) : (s.setPhy c x).jobs = s.jobs := rfl
@[simp] theorem State.setPhy_transfers (s : State) (c : Nat) (x : Phy) : (s.setPhy c x).transfers = s.transfers := rfl
@[simp] theorem State.setPhy_nextTask (s : State) (c : Nat) (x : Phy) : (s.setPhy c x).nextTask = s.nextTask := rfl
@[simp] theorem State.setPhy_invalidations (s : State) (c : Nat) (x : Phy) : (s.setPhy c x).invalidations = s.invalidations := rfl
@[simp] theorem State.setPhy_exitedPubs (s : State) (c : Nat) (x : Phy) : (s.setPhy c x).exitedPubs = s.exitedPubs := rfl
@[simp] theorem State.setPhy_difEn (s : State) (c : Nat) (x : Phy) : (s.setPhy c x).difEn = s.difEn := rfl
@[simp] theorem State.setPhy_difIndex (s : State) (c : Nat) (x : Phy) : (s.setPhy c x).difIndex = s.difIndex := rfl
@[simp] theorem State.setPhy_difUp (s : State) (c : Nat) (x : Phy) : (s.setPhy c x).difUp = s.difUp := rfl
@[simp] theorem State.setPhy_ptags (s : State) (c : Nat) (x : Phy) : (s.setPhy c x).ptags = s.ptags := rfl
@[simp] theorem State.setPhy_exports (s : State) (c : Nat) (x : Phy) : (s.setPhy c x).exports = s.exports := rfl
@[simp] theorem State.setPhy_updates (s : State) (c : Nat) (x : Phy) : (s.setPhy c x).updates = s.updates := rfl
@[simp] theorem State.setPhy_seals (s : State) (c : Nat) (x : Phy) : (s.setPhy c x).seals = s.seals := rfl
@[simp] theorem State.setPhy_difWaiting (s : State) (c : Nat) (x : Phy) : (s.setPhy c x).difWaiting = s.difWaiting := rfl
@[simp] theorem State.setPhy_seenUpdates (s : State) (c : Nat) (x : Phy) : (s.setPhy c x).seenUpdates = s.seenUpdates := rfl
@[simp] theorem State.setPhy_cutOff (s : State) (c : Nat) (x : Phy) : (s.setPhy c x).cutOff = s.cutOff := rfl
@[simp] theorem State.setPhy_portEpochs (s : State) (c : Nat) (x : Phy) : (s.setPhy c x).portEpochs = s.portEpochs := rfl
@[simp] theorem State.setPhy_sentUpdates (s : State) (c : Nat) (x : Phy) : (s.setPhy c x).sentUpdates = s.sentUpdates := rfl
@[simp] theorem State.setPhy_difReplies (s : State) (c : Nat) (x : Phy) : (s.setPhy c x).difReplies = s.difReplies := rfl
@[simp] theorem State.setPhy_hostUp (s : State) (c : Nat) (x : Phy) : (s.setPhy c x).hostUp = s.hostUp := rfl
@[simp] theorem State.setPhy_foreign (s : State) (c : Nat) (x : Phy) : (s.setPhy c x).foreign = s.foreign := rfl
@[simp] theorem State.setPhy_later (s : State) (c : Nat) (x : Phy) : (s.setPhy c x).later = s.later := rfl
@[simp] theorem State.setPhy_hdm (s : State) (c : Nat) (x : Phy) : (s.setPhy c x).hdm = s.hdm := rfl
@[simp] theorem State.setPhy_replies (s : State) (c : Nat) (x : Phy) : (s.setPhy c x).replies = s.replies := rfl
@[simp] theorem State.setPhy_msix (s : State) (c : Nat) (x : Phy) : (s.setPhy c x).msix = s.msix := rfl
@[simp] theorem State.setPhy_hostLines (s : State) (c : Nat) (x : Phy) : (s.setPhy c x).hostLines = s.hostLines := rfl
@[simp] theorem State.setPhy_sec (s : State) (c : Nat) (x : Phy) : (s.setPhy c x).sec = s.sec := rfl

/-! ### soon -/

@[simp] theorem State.soon_turn (s : State) (i : Instr) : (s.soon i).turn = s.turn := rfl
@[simp] theorem State.soon_focus (s : State) (i : Instr) : (s.soon i).focus = s.focus := rfl
@[simp] theorem State.soon_rotor (s : State) (i : Instr) : (s.soon i).rotor = s.rotor := rfl
@[simp] theorem State.soon_freeCount (s : State) (i : Instr) : (s.soon i).freeCount = s.freeCount := rfl
@[simp] theorem State.soon_cores (s : State) (i : Instr) : (s.soon i).cores = s.cores := rfl
@[simp] theorem State.soon_clusters (s : State) (i : Instr) : (s.soon i).clusters = s.clusters := rfl
@[simp] theorem State.soon_walks (s : State) (i : Instr) : (s.soon i).walks = s.walks := rfl
@[simp] theorem State.soon_mem (s : State) (i : Instr) : (s.soon i).mem = s.mem := rfl
@[simp] theorem State.soon_poison (s : State) (i : Instr) : (s.soon i).poison = s.poison := rfl
@[simp] theorem State.soon_parts (s : State) (i : Instr) : (s.soon i).parts = s.parts := rfl
@[simp] theorem State.soon_jobs (s : State) (i : Instr) : (s.soon i).jobs = s.jobs := rfl
@[simp] theorem State.soon_transfers (s : State) (i : Instr) : (s.soon i).transfers = s.transfers := rfl
@[simp] theorem State.soon_nextTask (s : State) (i : Instr) : (s.soon i).nextTask = s.nextTask := rfl
@[simp] theorem State.soon_invalidations (s : State) (i : Instr) : (s.soon i).invalidations = s.invalidations := rfl
@[simp] theorem State.soon_exitedPubs (s : State) (i : Instr) : (s.soon i).exitedPubs = s.exitedPubs := rfl
@[simp] theorem State.soon_difEn (s : State) (i : Instr) : (s.soon i).difEn = s.difEn := rfl
@[simp] theorem State.soon_difIndex (s : State) (i : Instr) : (s.soon i).difIndex = s.difIndex := rfl
@[simp] theorem State.soon_difUp (s : State) (i : Instr) : (s.soon i).difUp = s.difUp := rfl
@[simp] theorem State.soon_ptags (s : State) (i : Instr) : (s.soon i).ptags = s.ptags := rfl
@[simp] theorem State.soon_exports (s : State) (i : Instr) : (s.soon i).exports = s.exports := rfl
@[simp] theorem State.soon_updates (s : State) (i : Instr) : (s.soon i).updates = s.updates := rfl
@[simp] theorem State.soon_seals (s : State) (i : Instr) : (s.soon i).seals = s.seals := rfl
@[simp] theorem State.soon_difWaiting (s : State) (i : Instr) : (s.soon i).difWaiting = s.difWaiting := rfl
@[simp] theorem State.soon_seenUpdates (s : State) (i : Instr) : (s.soon i).seenUpdates = s.seenUpdates := rfl
@[simp] theorem State.soon_cutOff (s : State) (i : Instr) : (s.soon i).cutOff = s.cutOff := rfl
@[simp] theorem State.soon_portEpochs (s : State) (i : Instr) : (s.soon i).portEpochs = s.portEpochs := rfl
@[simp] theorem State.soon_sentUpdates (s : State) (i : Instr) : (s.soon i).sentUpdates = s.sentUpdates := rfl
@[simp] theorem State.soon_difReplies (s : State) (i : Instr) : (s.soon i).difReplies = s.difReplies := rfl
@[simp] theorem State.soon_hostUp (s : State) (i : Instr) : (s.soon i).hostUp = s.hostUp := rfl
@[simp] theorem State.soon_foreign (s : State) (i : Instr) : (s.soon i).foreign = s.foreign := rfl
@[simp] theorem State.soon_later (s : State) (i : Instr) : (s.soon i).later = s.later := rfl
@[simp] theorem State.soon_hdm (s : State) (i : Instr) : (s.soon i).hdm = s.hdm := rfl
@[simp] theorem State.soon_replies (s : State) (i : Instr) : (s.soon i).replies = s.replies := rfl
@[simp] theorem State.soon_msix (s : State) (i : Instr) : (s.soon i).msix = s.msix := rfl
@[simp] theorem State.soon_hostLines (s : State) (i : Instr) : (s.soon i).hostLines = s.hostLines := rfl
@[simp] theorem State.soon_phys (s : State) (i : Instr) : (s.soon i).phys = s.phys := rfl
@[simp] theorem State.soon_sec (s : State) (i : Instr) : (s.soon i).sec = s.sec := rfl

/-! ### writeBytes -/

@[simp] theorem State.writeBytes_agenda (s : State) (pa : Nat) (l : List Byte) : (s.writeBytes pa l).agenda = s.agenda := rfl
@[simp] theorem State.writeBytes_turn (s : State) (pa : Nat) (l : List Byte) : (s.writeBytes pa l).turn = s.turn := rfl
@[simp] theorem State.writeBytes_focus (s : State) (pa : Nat) (l : List Byte) : (s.writeBytes pa l).focus = s.focus := rfl
@[simp] theorem State.writeBytes_rotor (s : State) (pa : Nat) (l : List Byte) : (s.writeBytes pa l).rotor = s.rotor := rfl
@[simp] theorem State.writeBytes_freeCount (s : State) (pa : Nat) (l : List Byte) : (s.writeBytes pa l).freeCount = s.freeCount := rfl
@[simp] theorem State.writeBytes_cores (s : State) (pa : Nat) (l : List Byte) : (s.writeBytes pa l).cores = s.cores := rfl
@[simp] theorem State.writeBytes_clusters (s : State) (pa : Nat) (l : List Byte) : (s.writeBytes pa l).clusters = s.clusters := rfl
@[simp] theorem State.writeBytes_walks (s : State) (pa : Nat) (l : List Byte) : (s.writeBytes pa l).walks = s.walks := rfl
@[simp] theorem State.writeBytes_poison (s : State) (pa : Nat) (l : List Byte) : (s.writeBytes pa l).poison = s.poison := rfl
@[simp] theorem State.writeBytes_parts (s : State) (pa : Nat) (l : List Byte) : (s.writeBytes pa l).parts = s.parts := rfl
@[simp] theorem State.writeBytes_jobs (s : State) (pa : Nat) (l : List Byte) : (s.writeBytes pa l).jobs = s.jobs := rfl
@[simp] theorem State.writeBytes_transfers (s : State) (pa : Nat) (l : List Byte) : (s.writeBytes pa l).transfers = s.transfers := rfl
@[simp] theorem State.writeBytes_nextTask (s : State) (pa : Nat) (l : List Byte) : (s.writeBytes pa l).nextTask = s.nextTask := rfl
@[simp] theorem State.writeBytes_invalidations (s : State) (pa : Nat) (l : List Byte) : (s.writeBytes pa l).invalidations = s.invalidations := rfl
@[simp] theorem State.writeBytes_exitedPubs (s : State) (pa : Nat) (l : List Byte) : (s.writeBytes pa l).exitedPubs = s.exitedPubs := rfl
@[simp] theorem State.writeBytes_difEn (s : State) (pa : Nat) (l : List Byte) : (s.writeBytes pa l).difEn = s.difEn := rfl
@[simp] theorem State.writeBytes_difIndex (s : State) (pa : Nat) (l : List Byte) : (s.writeBytes pa l).difIndex = s.difIndex := rfl
@[simp] theorem State.writeBytes_difUp (s : State) (pa : Nat) (l : List Byte) : (s.writeBytes pa l).difUp = s.difUp := rfl
@[simp] theorem State.writeBytes_ptags (s : State) (pa : Nat) (l : List Byte) : (s.writeBytes pa l).ptags = s.ptags := rfl
@[simp] theorem State.writeBytes_exports (s : State) (pa : Nat) (l : List Byte) : (s.writeBytes pa l).exports = s.exports := rfl
@[simp] theorem State.writeBytes_updates (s : State) (pa : Nat) (l : List Byte) : (s.writeBytes pa l).updates = s.updates := rfl
@[simp] theorem State.writeBytes_seals (s : State) (pa : Nat) (l : List Byte) : (s.writeBytes pa l).seals = s.seals := rfl
@[simp] theorem State.writeBytes_difWaiting (s : State) (pa : Nat) (l : List Byte) : (s.writeBytes pa l).difWaiting = s.difWaiting := rfl
@[simp] theorem State.writeBytes_seenUpdates (s : State) (pa : Nat) (l : List Byte) : (s.writeBytes pa l).seenUpdates = s.seenUpdates := rfl
@[simp] theorem State.writeBytes_cutOff (s : State) (pa : Nat) (l : List Byte) : (s.writeBytes pa l).cutOff = s.cutOff := rfl
@[simp] theorem State.writeBytes_portEpochs (s : State) (pa : Nat) (l : List Byte) : (s.writeBytes pa l).portEpochs = s.portEpochs := rfl
@[simp] theorem State.writeBytes_sentUpdates (s : State) (pa : Nat) (l : List Byte) : (s.writeBytes pa l).sentUpdates = s.sentUpdates := rfl
@[simp] theorem State.writeBytes_difReplies (s : State) (pa : Nat) (l : List Byte) : (s.writeBytes pa l).difReplies = s.difReplies := rfl
@[simp] theorem State.writeBytes_hostUp (s : State) (pa : Nat) (l : List Byte) : (s.writeBytes pa l).hostUp = s.hostUp := rfl
@[simp] theorem State.writeBytes_foreign (s : State) (pa : Nat) (l : List Byte) : (s.writeBytes pa l).foreign = s.foreign := rfl
@[simp] theorem State.writeBytes_later (s : State) (pa : Nat) (l : List Byte) : (s.writeBytes pa l).later = s.later := rfl
@[simp] theorem State.writeBytes_hdm (s : State) (pa : Nat) (l : List Byte) : (s.writeBytes pa l).hdm = s.hdm := rfl
@[simp] theorem State.writeBytes_replies (s : State) (pa : Nat) (l : List Byte) : (s.writeBytes pa l).replies = s.replies := rfl
@[simp] theorem State.writeBytes_msix (s : State) (pa : Nat) (l : List Byte) : (s.writeBytes pa l).msix = s.msix := rfl
@[simp] theorem State.writeBytes_hostLines (s : State) (pa : Nat) (l : List Byte) : (s.writeBytes pa l).hostLines = s.hostLines := rfl
@[simp] theorem State.writeBytes_phys (s : State) (pa : Nat) (l : List Byte) : (s.writeBytes pa l).phys = s.phys := rfl
@[simp] theorem State.writeBytes_sec (s : State) (pa : Nat) (l : List Byte) : (s.writeBytes pa l).sec = s.sec := rfl

/-! ### cleanPoison -/

@[simp] theorem State.cleanPoison_agenda (s : State) (pa n : Nat) : (s.cleanPoison pa n).agenda = s.agenda := rfl
@[simp] theorem State.cleanPoison_turn (s : State) (pa n : Nat) : (s.cleanPoison pa n).turn = s.turn := rfl
@[simp] theorem State.cleanPoison_focus (s : State) (pa n : Nat) : (s.cleanPoison pa n).focus = s.focus := rfl
@[simp] theorem State.cleanPoison_rotor (s : State) (pa n : Nat) : (s.cleanPoison pa n).rotor = s.rotor := rfl
@[simp] theorem State.cleanPoison_freeCount (s : State) (pa n : Nat) : (s.cleanPoison pa n).freeCount = s.freeCount := rfl
@[simp] theorem State.cleanPoison_cores (s : State) (pa n : Nat) : (s.cleanPoison pa n).cores = s.cores := rfl
@[simp] theorem State.cleanPoison_clusters (s : State) (pa n : Nat) : (s.cleanPoison pa n).clusters = s.clusters := rfl
@[simp] theorem State.cleanPoison_walks (s : State) (pa n : Nat) : (s.cleanPoison pa n).walks = s.walks := rfl
@[simp] theorem State.cleanPoison_mem (s : State) (pa n : Nat) : (s.cleanPoison pa n).mem = s.mem := rfl
@[simp] theorem State.cleanPoison_parts (s : State) (pa n : Nat) : (s.cleanPoison pa n).parts = s.parts := rfl
@[simp] theorem State.cleanPoison_jobs (s : State) (pa n : Nat) : (s.cleanPoison pa n).jobs = s.jobs := rfl
@[simp] theorem State.cleanPoison_transfers (s : State) (pa n : Nat) : (s.cleanPoison pa n).transfers = s.transfers := rfl
@[simp] theorem State.cleanPoison_nextTask (s : State) (pa n : Nat) : (s.cleanPoison pa n).nextTask = s.nextTask := rfl
@[simp] theorem State.cleanPoison_invalidations (s : State) (pa n : Nat) : (s.cleanPoison pa n).invalidations = s.invalidations := rfl
@[simp] theorem State.cleanPoison_exitedPubs (s : State) (pa n : Nat) : (s.cleanPoison pa n).exitedPubs = s.exitedPubs := rfl
@[simp] theorem State.cleanPoison_difEn (s : State) (pa n : Nat) : (s.cleanPoison pa n).difEn = s.difEn := rfl
@[simp] theorem State.cleanPoison_difIndex (s : State) (pa n : Nat) : (s.cleanPoison pa n).difIndex = s.difIndex := rfl
@[simp] theorem State.cleanPoison_difUp (s : State) (pa n : Nat) : (s.cleanPoison pa n).difUp = s.difUp := rfl
@[simp] theorem State.cleanPoison_ptags (s : State) (pa n : Nat) : (s.cleanPoison pa n).ptags = s.ptags := rfl
@[simp] theorem State.cleanPoison_exports (s : State) (pa n : Nat) : (s.cleanPoison pa n).exports = s.exports := rfl
@[simp] theorem State.cleanPoison_updates (s : State) (pa n : Nat) : (s.cleanPoison pa n).updates = s.updates := rfl
@[simp] theorem State.cleanPoison_seals (s : State) (pa n : Nat) : (s.cleanPoison pa n).seals = s.seals := rfl
@[simp] theorem State.cleanPoison_difWaiting (s : State) (pa n : Nat) : (s.cleanPoison pa n).difWaiting = s.difWaiting := rfl
@[simp] theorem State.cleanPoison_seenUpdates (s : State) (pa n : Nat) : (s.cleanPoison pa n).seenUpdates = s.seenUpdates := rfl
@[simp] theorem State.cleanPoison_cutOff (s : State) (pa n : Nat) : (s.cleanPoison pa n).cutOff = s.cutOff := rfl
@[simp] theorem State.cleanPoison_portEpochs (s : State) (pa n : Nat) : (s.cleanPoison pa n).portEpochs = s.portEpochs := rfl
@[simp] theorem State.cleanPoison_sentUpdates (s : State) (pa n : Nat) : (s.cleanPoison pa n).sentUpdates = s.sentUpdates := rfl
@[simp] theorem State.cleanPoison_difReplies (s : State) (pa n : Nat) : (s.cleanPoison pa n).difReplies = s.difReplies := rfl
@[simp] theorem State.cleanPoison_hostUp (s : State) (pa n : Nat) : (s.cleanPoison pa n).hostUp = s.hostUp := rfl
@[simp] theorem State.cleanPoison_foreign (s : State) (pa n : Nat) : (s.cleanPoison pa n).foreign = s.foreign := rfl
@[simp] theorem State.cleanPoison_later (s : State) (pa n : Nat) : (s.cleanPoison pa n).later = s.later := rfl
@[simp] theorem State.cleanPoison_hdm (s : State) (pa n : Nat) : (s.cleanPoison pa n).hdm = s.hdm := rfl
@[simp] theorem State.cleanPoison_replies (s : State) (pa n : Nat) : (s.cleanPoison pa n).replies = s.replies := rfl
@[simp] theorem State.cleanPoison_msix (s : State) (pa n : Nat) : (s.cleanPoison pa n).msix = s.msix := rfl
@[simp] theorem State.cleanPoison_hostLines (s : State) (pa n : Nat) : (s.cleanPoison pa n).hostLines = s.hostLines := rfl
@[simp] theorem State.cleanPoison_phys (s : State) (pa n : Nat) : (s.cleanPoison pa n).phys = s.phys := rfl
@[simp] theorem State.cleanPoison_sec (s : State) (pa n : Nat) : (s.cleanPoison pa n).sec = s.sec := rfl

/-! ## Units: what is read back after a unit is set -/

@[simp] theorem State.core_setCore_self (s : State) (g : Nat) (c : Core) : (s.setCore g c).core g = c := by
  simp [State.core, State.setCore]
theorem State.core_setCore_ne (s : State) {g h : Nat} (c : Core) (e : h ≠ g) : (s.setCore g c).core h = s.core h := by
  simp [State.core, State.setCore, e]
@[simp] theorem State.hold_setHold_self (s : State) (g : Nat) (h : Hold) : (s.setHold g h).hold g = h := by
  simp [State.hold, State.setHold]
theorem State.hold_setHold_ne (s : State) {g k : Nat} (h : Hold) (e : k ≠ g) : (s.setHold g h).hold k = s.hold k := by
  simp [State.hold, State.setHold, State.core_setCore_ne _ _ e]
@[simp] theorem State.ctx_setCtx_self (s : State) (w : Who) (c : Ctx) : (s.setCtx w c).ctx w = c := by
  simp [State.ctx, State.setCtx]
theorem State.ctx_setCtx_ne (s : State) {w v : Who} (c : Ctx) (e : v ≠ w) : (s.setCtx w c).ctx v = s.ctx v := by
  unfold State.ctx State.setCtx
  by_cases h : v.core = w.core
  · have : v.slot ≠ w.slot := fun k => e (by cases v; cases w; simp_all)
    rw [h]; simp [this]
  · rw [State.hold_setHold_ne _ _ h]
@[simp] theorem State.ctx_updCtx_self (s : State) (w : Who) (f : Ctx → Ctx) : (s.updCtx w f).ctx w = f (s.ctx w) := by
  simp [State.updCtx]
theorem State.ctx_updCtx_ne (s : State) {w v : Who} (f : Ctx → Ctx) (e : v ≠ w) : (s.updCtx w f).ctx v = s.ctx v := by
  simp [State.updCtx, State.ctx_setCtx_ne _ _ e]
@[simp] theorem State.setCore_setCore (s : State) (g : Nat) (c d : Core) : (s.setCore g c).setCore g d = s.setCore g d := by
  simp [State.setCore]
@[simp] theorem State.setHold_setHold (s : State) (g : Nat) (h k : Hold) : (s.setHold g h).setHold g k = s.setHold g k := by
  simp [State.setHold]
@[simp] theorem State.setCtx_setCtx (s : State) (w : Who) (c d : Ctx) : (s.setCtx w c).setCtx w d = s.setCtx w d := by
  simp [State.setCtx]
/-- Changes of one context made one after another are one change. -/
theorem State.updCtx_updCtx (s : State) (w : Who) (f g : Ctx → Ctx) :
    (s.updCtx w f).updCtx w g = s.updCtx w (fun c => g (f c)) := by
  simp [State.updCtx]
@[simp] theorem State.core_updCore_self (s : State) (g : Nat) (f : Core → Core) : (s.updCore g f).core g = f (s.core g) := by
  simp [State.updCore]
@[simp] theorem State.hold_updHold_self (s : State) (g : Nat) (f : Hold → Hold) : (s.updHold g f).hold g = f (s.hold g) := by
  simp [State.updHold]
/-- Another core's state is untouched. -/
theorem State.core_setCtx_ne (s : State) (w : Who) (c : Ctx) {g : Nat} (e : g ≠ w.core) : (s.setCtx w c).core g = s.core g := by
  simp [State.setCtx, State.setHold, State.core_setCore_ne _ _ e]
@[simp] theorem State.part_setPart_self (s : State) (p : Nat) (x : Part) : (s.setPart p x).part p = x := by
  simp [State.part, State.setPart]
theorem State.part_setPart_ne (s : State) {p q : Nat} (x : Part) (e : q ≠ p) : (s.setPart p x).part q = s.part q := by
  simp [State.part, State.setPart, e]
@[simp] theorem State.job_setJob_self (s : State) (j : Nat) (x : Job) : (s.setJob j x).job j = x := by
  simp [State.job, State.setJob]
theorem State.job_setJob_ne (s : State) {j k : Nat} (x : Job) (e : k ≠ j) : (s.setJob j x).job k = s.job k := by
  simp [State.job, State.setJob, e]
@[simp] theorem State.cluster_setCluster_self (s : State) (n : Nat) (x : Cluster) : (s.setCluster n x).cluster n = x := by
  simp [State.cluster, State.setCluster]
@[simp] theorem State.phy_setPhy_self (s : State) (n : Nat) (x : Phy) : (s.setPhy n x).phy n = x := by
  simp [State.phy, State.setPhy]
/-- A unit reads the same where the part of State that holds it is the same. -/
theorem State.ctx_congr {s t : State} (h : t.cores = s.cores) (w : Who) : t.ctx w = s.ctx w := by
  simp [State.ctx, State.hold, State.core, h]

end Sys2Proof.Machine
end

