-- ==== Sys2Proof/Laws/Issue.lean ====
section
/-! SUPPORT. What issuing a bundle of one word comes to, for a context that can issue at once. -/
namespace Sys2Proof.Machine

/-! ## The team of a context that runs alone -/

theorem State.team_alone {s : State} {w : Who} (h : (s.ctx w).gang = none) : s.team w = [w] := by
  simp [State.team, h]

theorem State.leadOf_alone {s : State} {w : Who} (h : (s.ctx w).gang = none) : s.leadOf w = w := by
  simp [State.leadOf, h]

@[simp] theorem State.updTeam_one (s : State) (w : Who) (f : Ctx → Ctx) : s.updTeam [w] f = s.updCtx w f := rfl
@[simp] theorem State.updTeam_nil (s : State) (f : Ctx → Ctx) : s.updTeam [] f = s := rfl

/-- A context that replays no log is not held back by one. -/
theorem State.gates_live {s : State} {w : Who} (srr : Bool) (h : (s.ctx w).logMode ≠ 2) :
    s.gates srr [w] = .open [] := by
  have h1 : s.replayProgram w srr = .live := by unfold State.replayProgram; exact if_pos h
  have h2 : s.replayGate w srr = .live := by
    unfold State.replayGate; simp only [h1]; split <;> rfl
  simp [State.gates, h2]

/-- What the context in focus sees when it issues a bundle alone. -/
def State.alone (s : State) (k : Nat) : Env :=
  { who := s.focus, slot := k, n := s.here.now + 1, ctx := s.here, lead := s.here, isLead := true }

/-- The registers that a slot's word names are free. -/
def Sem.free (m : Sem) (c : Ctx) : Bool :=
  (m.sr ++ m.sw ++ m.leadReads).all c.freeS && (m.vr ++ m.vw).all c.freeV &&
    (match m.grow with | some r => decide (c.allot + r ≤ 64) | none => true) &&
    (match m.shrink with | some r => decide (r ≤ c.allot) | none => true)

theorem Sem.marked_free {m : Sem} {c : Ctx} (h : m.free c = true) : m.marked c true = none := by
  simp only [Sem.free, Bool.and_eq_true, List.all_eq_true] at h
  simp only [Sem.marked, List.find?_eq_none]
  intro x hx
  split
  · rename_i hv
    intro hc
    have := h.1.1.2 x.reg (by simpa using hc)
    simp only [Ctx.freeV, Bool.and_eq_true, List.all_eq_true] at this
    have := this.2 x hx
    simp [hv] at this
  · rename_i hv
    intro hc
    have := h.1.1.1 x.reg (by simpa using hc)
    simp only [Ctx.freeS, Bool.and_eq_true, List.all_eq_true] at this
    have := this.2 x hx
    simp [hv] at this

theorem Sem.interlocked_free {m : Sem} {c : Ctx} (h : m.free c = true) : m.interlocked c true = false := by
  simp only [Sem.free, Bool.and_eq_true, List.all_eq_true] at h
  simp only [Sem.interlocked, Bool.or_eq_false_iff, List.any_eq_false, if_true]
  refine ⟨fun x hx => ?_, fun x hx => ?_⟩
  · have := h.1.1.1 x (by simpa using hx)
    simp only [Ctx.freeS, Bool.and_eq_true] at this
    simpa using this.1
  · have := h.1.1.2 x (by simpa using hx)
    simp only [Ctx.freeV, Bool.and_eq_true] at this
    simpa using this.1.2

theorem allotTrap_free {m : Sem} {c : Ctx} (k : Nat) (h : m.free c = true) : allotTrap [(k, m)] c = none := by
  simp only [Sem.free, Bool.and_eq_true, List.all_eq_true] at h
  simp only [allotTrap, List.findSome?_cons, List.findSome?_nil]
  have h1 : (m.vr ++ m.vw).any (fun v => decide (c.allot ≤ v)) = false := by
    rw [List.any_eq_false]
    intro v hv
    have := h.1.1.2 v hv
    simp only [Ctx.freeV, Bool.and_eq_true, decide_eq_true_eq] at this
    simp; omega
  rw [if_neg]
  simp only [h1, Bool.false_or, Bool.or_eq_true, not_or]
  refine ⟨?_, ?_⟩
  · have := h.1.2
    split <;> simp_all
  · have := h.2
    split <;> simp_all

/-! ## One word -/

/-- The conditions under which the word m in slot k, alone in its bundle, takes effect: the context runs alone and
replays no log, its registers are free, the word is privileged only in privileged mode, and its predicate holds. -/
structure Takes (s : State) (k : Nat) (m : Sem) : Prop where
  alone : s.here.gang = none
  live : s.here.logMode ≠ 2
  free : m.free s.here = true
  legal : m.ill = false
  priv : m.priv = true → s.here.priv = true
  pred : predHolds s.here m.pred = true
  gate : k = 0 ∨ m.gate = none

theorem issueOne_legal {i : Instr} {m : Sem} {k : Nat} {s : State} (hw : i.wf = true) (hm : m.ill = false) :
    issueOne k i m s = .next (s.issueBundle s.focus [(k, m)]) := by
  have : ({ m with ill := !i.wf } : Sem) = m := by cases m; simp_all
  rw [issueOne, this]

namespace Takes

variable {s : State} {k : Nat} {m : Sem}

theorem active (h : Takes s k m) : m.active (gateOf [(k, m)]) (s.alone k) k = true := by
  have lets (e : Env) : Gate.lets (gateOf [(k, m)]) e k = true := by
    rcases h.gate with rfl | h
    · unfold Gate.lets
      split <;> simp
    · simp [gateOf, Gate.lets, h]
  have hc : (if m.leadActs then { s.alone k with ctx := (s.alone k).lead } else s.alone k : Env) = s.alone k := by
    split <;> rfl
  simp only [Sem.active, hc, lets, Bool.true_and]
  exact h.pred

theorem env : s.env s.focus (fun _ => none) s.focus k = s.alone k := by
  simp [State.env, State.alone, State.here]

theorem runTeam_eq (h : Takes s k m) :
    runTeam [(k, m)] s s.focus (fun _ => none) [s.focus] { s := s } =
      match m.run (s.alone k) s with
      | .ok x => .ok { s := x }
      | .jump x t => .ok { s := x, jump := some (k, t) }
      | .trap t => .error (s.focus, { t with slot := k })
      | .block on => .ok { s := s, blocked := true, on := on, unknown := m.leaves }
      | .freeze => .ok { s := s, freeze := true } := by
  have hi : m.interlocked (s.ctx s.focus) (s.alone k).isLead = false := Sem.interlocked_free h.free
  simp only [runTeam, runSlots, runSlot, env, h.active, hi, Bool.not_true, if_false, Bool.false_eq_true]
  cases m.run (s.alone k) s <;> simp

theorem no_decodeTrap (h : Takes s k m) : decodeTrap [(k, m)] s.here = none := by
  simp [decodeTrap, h.legal]
  exact fun hp => by simp [h.priv hp]

theorem no_markTrap (h : Takes s k m) : markTrap [(k, m)] s s.focus s.focus = none := by
  have hm : m.marked (s.ctx s.focus) true = none := Sem.marked_free h.free
  simp [markTrap, hm]

/-- Nothing in the bundle's words or registers traps. -/
theorem no_earlyTrap (h : Takes s k m) : s.earlyTrap s.focus [(k, m)] = none := by
  have ha : (s.ctx s.focus).gang = none := h.alone
  have hd : decodeTrap [(k, m)] (s.ctx s.focus) = none := h.no_decodeTrap
  have hall : allotTrap [(k, m)] (s.ctx s.focus) = none := allotTrap_free k h.free
  simp [State.earlyTrap, State.team_alone ha, State.leadOf_alone ha, hd, h.no_markTrap, hall]

/-- The attempt, reduced to what the word's own action says. -/
theorem attempt_eq (h : Takes s k m) :
    s.attempt s.focus (fun _ => none) [(k, m)] =
      match runTeam [(k, m)] s s.focus (fun _ => none) [s.focus] { s := s } with
      | .error (m, t) => .trapped m t
      | .ok r =>
        if r.freeze then .frozen
        else if r.blocked && r.unknown then .blocked r.on
        else
          let counted := r.s.updCtx s.focus (fun c => c.countStep s.here.inTrap)
          if (r.s.ctx s.focus).exiting then
            (if r.blocked then .blocked r.on else .issued ((counted.noteIssue [s.focus] s.here.owner).leave [s.focus]))
          else
            let finish (x : State) : Issue :=
              if r.blocked then .blocked r.on
              else
                match m.after with
                | none => .issued ((x.updCtx s.focus Ctx.fallDue).noteIssue [s.focus] s.here.owner)
                | some code => State.afterTrap s x [s.focus] s.focus { cause := Cause.software, code := code } true
            match State.choose s counted [s.focus] s.focus r.jump with
            | .fault t => .trapped s.focus t
            | .wait on => .blocked (r.on ++ on)
            | .at x => finish x
            | .ended x =>
              if r.blocked then .blocked r.on
              else if m.after.isSome then finish x
              else State.afterTrap s x [s.focus] s.focus { cause := Cause.segmentEnd } true
            | .userTrap x t =>
              if r.blocked then .blocked r.on
              else State.afterTrap s x [s.focus] s.focus t (decide (t.cause = Cause.segmentEnd)) := by
  have ha : (s.ctx s.focus).gang = none := h.alone
  have hf : List.findSome? (fun x : Nat × Sem => x.2.after) [(k, m)] = m.after := by
    cases hx : m.after <;> simp [hx]
  unfold State.attempt
  simp only [State.team_alone ha, State.leadOf_alone ha, hf, State.updTeam_one]
  rfl

/-! ## Outcomes -/

theorem offer_eq (h : Takes s k m) :
    s.offerBundle s.focus [(k, m)] =
      match s.attempt s.focus (fun _ => none) [(k, m)] with
      | .issued x => (x, .issued)
      | .trapped w t => s.takeTrap s.focus [(k, m)] w t
      | .frozen => (s.settled, .frozen)
      | .blocked _ => (s.leaveBlocked s.focus [(k, m)], .blocked) := by
  have ha : (s.ctx s.focus).gang = none := h.alone
  have hl : (s.ctx s.focus).logMode ≠ 2 := h.live
  unfold State.offerBundle
  rw [h.no_earlyTrap, State.team_alone ha]
  simp only [State.gates_live _ hl]
  have : (fun w : Who => Option.map (fun c : Who × Word => c.2) (List.find? (fun c => decide (c.1 = w)) [])) = fun _ => none := by
    funext w; simp
  simp only [this, List.foldl_nil]
  cases s.attempt s.focus (fun _ => none) [(k, m)] with
  | issued x => rfl
  | trapped w t => rfl
  | frozen => rfl
  | blocked on =>
    have : s.blocksOnRecord s.focus on = false := by
      simp only [State.blocksOnRecord, decide_eq_false hl, Bool.false_and]
    simp [this]

/-- The word's action succeeds and the next bundle follows. -/
theorem next_of_ok (h : Takes s k m) {i : Instr} (hw : i.wf = true) {x : State}
    (hrun : m.run (s.alone k) s = .ok x) (hafter : m.after = none) (hfocus : x.focus = s.focus)
    (hres : x.here.exiting = false) (htrap : x.here.inTrap = s.here.inTrap) (howner : x.here.owner = s.here.owner)
    (hends : x.here.endingCourses x.here.index = []) (hcount : x.here.index + 1 < x.here.execHalf.count) :
    issueOne k i m s = .next x.advance := by
  rw [issueOne_legal hw h.legal, State.issueBundle, h.offer_eq, h.attempt_eq, h.runTeam_eq, hrun]
  have hx : x.here = x.ctx s.focus := by rw [State.here, hfocus]
  rw [hx] at hres htrap howner hends hcount
  have he : (Ctx.countStep (x.ctx s.focus) s.here.inTrap).endingCourses (Ctx.countStep (x.ctx s.focus) s.here.inTrap).index = [] := by
    rw [← hends]; unfold Ctx.countStep; split <;> rfl
  have hc : (Ctx.countStep (x.ctx s.focus) s.here.inTrap).index + 1 <
      (Ctx.countStep (x.ctx s.focus) s.here.inTrap).execHalf.count := by
    unfold Ctx.countStep; split <;> exact hcount
  simp only [Bool.false_and, if_false, Bool.false_eq_true, hres, hafter]
  simp only [State.choose, State.ctx_updCtx_self, he, Ctx.backEdge, hc, if_true, State.updTeam_one, State.updCtx_updCtx]
  congr 1
  unfold State.advance State.noteIssue
  rw [hx, howner, hfocus]
  simp only [State.updTeam_one, State.updTeam_nil, State.updCtx_updCtx]
  have : ∀ f : Ctx → Ctx, f (x.ctx s.focus) = (x.ctx s.focus).advance → x.updCtx s.focus f = x.updCtx s.focus Ctx.advance := by
    intro f hf; simp [State.updCtx, hf]
  rw [this]
  have hb : Ctx.backEdge ((Ctx.countStep (x.ctx s.focus) s.here.inTrap).endingCourses
      (Ctx.countStep (x.ctx s.focus) s.here.inTrap).index) (Ctx.countStep (x.ctx s.focus) s.here.inTrap) =
      (Ctx.countStep (x.ctx s.focus) s.here.inTrap, none) := by rw [he]; rfl
  have hj : (Ctx.countStep (x.ctx s.focus) s.here.inTrap).index = (x.ctx s.focus).index := by
    unfold Ctx.countStep; split <;> rfl
  rw [← htrap] at hb hj
  rw [hj] at hb
  simp only [← htrap, hj, hb, Ctx.advance]

end Takes

end Sys2Proof.Machine
end

