-- ==== Sys2Proof/Laws/Outcomes.lean ====
section
/-! SUPPORT. The outcomes of a bundle of one word: the next bundle, a taken branch, a block, and a trap; and the scalar,
flag and vector results of the slots' shared shapes. -/
namespace Sys2Proof.Machine

/-! ## Reading the conditions -/

theorem State.alive_iff {s : State} :
    s.alive = true ↔ (s.here.resident = true ∧ s.here.exiting = false) ∧ s.here.gang = none ∧ s.here.logMode ≠ 2 := by
  simp [State.alive, and_assoc]

theorem State.plain_iff {s : State} :
    s.plain = true ↔ s.alive = true ∧ s.here.index + 1 < s.here.execHalf.count ∧
      s.here.endingCourses s.here.index = [] := by
  simp [State.plain, and_assoc]

theorem State.clear_iff {s : State} {rs : List (BitVec 5)} {vs : List (BitVec 6)} :
    s.clear rs vs = true ↔ s.plain = true ∧ (∀ r ∈ rs, s.here.freeS r.toNat = true) ∧
      (∀ v ∈ vs, s.here.freeV v.toNat = true) := by
  simp [State.clear, and_assoc]

theorem State.can_iff {s : State} {p : BitVec 4} {rs : List (BitVec 5)} {vs : List (BitVec 6)} :
    s.can p rs vs = true ↔ s.clear rs vs = true ∧ predHolds s.here p = true := by
  simp [State.can]

theorem predHolds_zero (c : Ctx) : predHolds c 0 = true := by
  simp [predHolds, Ctx.flag, fld]

/-- A word whose registers are free takes effect. -/
theorem takes_of {s : State} {k : Nat} {m : Sem} (h : s.alive = true) (hf : m.free s.here = true)
    (hl : m.ill = false) (hp : m.priv = true → s.here.priv = true) (hq : predHolds s.here m.pred = true)
    (hg : k = 0 ∨ m.gate = none) : Takes s k m :=
  have h' := State.alive_iff.1 h
  { alone := h'.2.1, live := h'.2.2, free := hf, legal := hl, priv := hp, pred := hq, gate := hg }

/-! ## The context in focus after an update of it -/

@[simp] theorem State.here_updCtx (s : State) (f : Ctx → Ctx) : (s.updCtx s.focus f).here = f s.here := by
  simp [State.here]

@[simp] theorem Ctx.schedule_exiting (c : Ctx) (n k l : Nat) (d : Dst) (v m : Row) :
    (c.schedule n k l d v m).exiting = c.exiting := by unfold Ctx.schedule; split <;> rfl
@[simp] theorem Ctx.schedule_resident (c : Ctx) (n k l : Nat) (d : Dst) (v m : Row) :
    (c.schedule n k l d v m).resident = c.resident := by unfold Ctx.schedule; split <;> rfl
@[simp] theorem Ctx.schedule_inTrap (c : Ctx) (n k l : Nat) (d : Dst) (v m : Row) :
    (c.schedule n k l d v m).inTrap = c.inTrap := by unfold Ctx.schedule; split <;> rfl
@[simp] theorem Ctx.schedule_owner (c : Ctx) (n k l : Nat) (d : Dst) (v m : Row) :
    (c.schedule n k l d v m).owner = c.owner := by unfold Ctx.schedule; split <;> rfl
@[simp] theorem Ctx.schedule_index (c : Ctx) (n k l : Nat) (d : Dst) (v m : Row) :
    (c.schedule n k l d v m).index = c.index := by unfold Ctx.schedule; split <;> rfl
@[simp] theorem Ctx.schedule_execHalf (c : Ctx) (n k l : Nat) (d : Dst) (v m : Row) :
    (c.schedule n k l d v m).execHalf = c.execHalf := by unfold Ctx.schedule; split <;> rfl
@[simp] theorem Ctx.schedule_ending (c : Ctx) (n k l i : Nat) (d : Dst) (v m : Row) :
    (c.schedule n k l d v m).endingCourses i = c.endingCourses i := by unfold Ctx.schedule; split <;> rfl

namespace Takes

variable {s : State} {k : Nat} {m : Sem}

/-- An action that keeps what the choice of the next bundle looks at. -/
theorem next_of_keeps (h : Takes s k m) {i : Instr} (hs : s.plain = true) (hw : i.wf = true) {x : State}
    (hrun : m.run (s.alone k) s = .ok x) (hafter : m.after = none) (hfocus : x.focus = s.focus)
    (hres : x.here.exiting = s.here.exiting) (htrap : x.here.inTrap = s.here.inTrap)
    (howner : x.here.owner = s.here.owner) (hindex : x.here.index = s.here.index)
    (hends : x.here.endingCourses s.here.index = s.here.endingCourses s.here.index)
    (hcount : x.here.execHalf = s.here.execHalf) :
    issueOne k i m s = .next x.advance := by
  have hp := State.plain_iff.1 hs
  have ha := State.alive_iff.1 hp.1
  exact h.next_of_ok hw hrun hafter hfocus (hres.trans ha.1.2) htrap howner
    (by rw [hindex, hends]; exact hp.2.2) (by rw [hindex, hcount]; exact hp.2.1)

/-- The word's action changes the context in focus alone. -/
theorem next_of_upd (h : Takes s k m) {i : Instr} (hs : s.plain = true) (hw : i.wf = true) {f : Ctx → Ctx}
    (hrun : m.run (s.alone k) s = .ok (s.updCtx s.focus f)) (hafter : m.after = none)
    (hres : (f s.here).exiting = s.here.exiting) (htrap : (f s.here).inTrap = s.here.inTrap)
    (howner : (f s.here).owner = s.here.owner) (hindex : (f s.here).index = s.here.index)
    (hends : (f s.here).endingCourses s.here.index = s.here.endingCourses s.here.index)
    (hcount : (f s.here).execHalf = s.here.execHalf) :
    issueOne k i m s = .next (s.updCtx s.focus f).advance :=
  h.next_of_keeps hs hw hrun hafter rfl (by simpa using hres) (by simpa using htrap) (by simpa using howner)
    (by simpa using hindex) (by simpa using hends) (by simpa using hcount)

/-- The word's action writes the context in focus. -/
theorem next_of_set (h : Takes s k m) {i : Instr} (hs : s.plain = true) (hw : i.wf = true) {c : Ctx}
    (hrun : m.run (s.alone k) s = .ok (s.setCtx s.focus c)) (hafter : m.after = none)
    (hres : c.exiting = s.here.exiting) (htrap : c.inTrap = s.here.inTrap) (howner : c.owner = s.here.owner)
    (hindex : c.index = s.here.index) (hends : c.endingCourses s.here.index = s.here.endingCourses s.here.index)
    (hcount : c.execHalf = s.here.execHalf) : issueOne k i m s = .next (s.setCtx s.focus c).advance :=
  have hx : (s.setCtx s.focus c).here = c := State.ctx_setCtx_self s s.focus c
  h.next_of_keeps hs hw hrun hafter rfl (by rw [hx]; exact hres) (by rw [hx]; exact htrap) (by rw [hx]; exact howner)
    (by rw [hx]; exact hindex) (by rw [hx]; exact hends) (by rw [hx]; exact hcount)

/-- The word's action branches to a bundle of the segment. -/
theorem next_of_jump (h : Takes s k m) {i : Instr} (hw : i.wf = true) (hr : s.here.exiting = false) {x : State} {t : Int}
    {atEnd ends : Bool} (hrun : m.run (s.alone k) s = .jump x (.index t atEnd ends)) (hafter : m.after = none)
    (hfocus : x.focus = s.focus) (hres : x.here.exiting = false) (htrap : x.here.inTrap = s.here.inTrap)
    (howner : x.here.owner = s.here.owner) (h0 : 0 ≤ t) (ht : t < (x.here.execHalf.count : Int)) :
    issueOne k i m s = .next (x.branch ends t.toNat) := by
  have _ := hr
  rw [issueOne_legal hw h.legal, State.issueBundle, h.offer_eq, h.attempt_eq, h.runTeam_eq, hrun]
  have hx : x.here = x.ctx s.focus := by rw [State.here, hfocus]
  rw [hx] at hres htrap howner ht
  have he : (Ctx.countStep (x.ctx s.focus) s.here.inTrap).execHalf = (x.ctx s.focus).execHalf := by
    unfold Ctx.countStep; split <;> rfl
  have hi : (Ctx.countStep (x.ctx s.focus) s.here.inTrap).index = (x.ctx s.focus).index := by
    unfold Ctx.countStep; split <;> rfl
  have hn : ¬ (t < 0 ∨ ((x.ctx s.focus).execHalf.count : Int) < t ∨
      (t = ((x.ctx s.focus).execHalf.count : Int) ∧ atEnd = false)) := by omega
  have hne : t ≠ ((x.ctx s.focus).execHalf.count : Int) := by omega
  have hch : State.choose s (x.updCtx s.focus (fun c => c.countStep s.here.inTrap)) [s.focus] s.focus
      (some (k, .index t atEnd ends)) =
      .at (x.updCtx s.focus (fun c =>
        let c1 := c.countStep s.here.inTrap
        { (if ends then c1.leaveCourses (x.ctx s.focus).index t.toNat else c1) with index := t.toNat })) := by
    unfold State.choose
    simp only [State.ctx_updCtx_self, he, hi, State.updTeam_one]
    rw [if_neg hn, if_neg hne]
    cases ends <;> simp only [Bool.false_eq_true, if_false, if_true, State.updCtx_updCtx]
  simp only [if_false, Bool.false_eq_true, hres, Bool.and_false, hafter, hch]
  congr 1
  unfold State.branch State.noteIssue
  rw [hx, howner, hfocus]
  simp only [State.updTeam_one, State.updTeam_nil, State.updCtx_updCtx]
  have key : ∀ f : Ctx → Ctx, f (x.ctx s.focus) = (x.ctx s.focus).advanceTo ends t.toNat →
      x.updCtx s.focus f = x.updCtx s.focus (fun c => c.advanceTo ends t.toNat) := by
    intro f hf; simp [State.updCtx, hf]
  rw [key]
  unfold Ctx.advanceTo
  rw [htrap]

/-- The word's action blocks. -/
theorem next_of_block (h : Takes s k m) {i : Instr} (hs : s.plain = true) (hw : i.wf = true) {on : List Nat}
    (hrun : m.run (s.alone k) s = .block on) (hafter : m.after = none)
    (hhook : ∀ e, m.blocked e s = s) : issueOne k i m s = .next s.waits := by
  have hp := State.plain_iff.1 hs
  have hr := (State.alive_iff.1 hp.1).1
  rw [issueOne_legal hw h.legal, State.issueBundle, h.offer_eq, h.attempt_eq, h.runTeam_eq, hrun]
  have hx : s.here = s.ctx s.focus := rfl
  rw [hx] at hr hp
  have he : (Ctx.countStep (s.ctx s.focus) s.here.inTrap).endingCourses (Ctx.countStep (s.ctx s.focus) s.here.inTrap).index = [] := by
    rw [← hp.2.2]; unfold Ctx.countStep; split <;> rfl
  have hc : (Ctx.countStep (s.ctx s.focus) s.here.inTrap).index + 1 <
      (Ctx.countStep (s.ctx s.focus) s.here.inTrap).execHalf.count := by
    unfold Ctx.countStep; split <;> exact hp.2.1
  simp only [if_false, Bool.false_eq_true, hr, hafter, Bool.true_and]
  have hb : (s.leaveBlocked s.focus [(k, m)], Offer.blocked).1 = s.waits := by
    simp only [State.leaveBlocked, State.team_alone h.alone, State.updTeam_one, List.foldl_cons, List.foldl_nil, hhook]
    rfl
  cases hl : m.leaves
  case true => simp only [if_true]; exact congrArg _ hb
  simp only [Bool.false_eq_true, if_false]
  simp only [State.choose, State.ctx_updCtx_self, he, Ctx.backEdge, State.updTeam_one, State.updCtx_updCtx, if_true]
  simp only [hc, if_true]
  exact congrArg _ hb

end Takes

/-! ## Traps -/

theorem State.canTrap_iff {s : State} : s.canTrap = true ↔
    s.alive = true ∧ s.here.owner.boot = false ∧ s.here.priv = false ∧ (s.hold s.focus.core).tvec.getLsbD 63 = true ∧
      ((s.hold s.focus.core).tvec &&& 0x00FFFFFFFFFFFFE0#64) >>> 5 ≠ 0 ∧ s.here.otherHalf.valid = true ∧
      s.here.otherHalf.addr = segmentBase ((s.hold s.focus.core).tvec &&& 0x00FFFFFFFFFFFFE0#64) ∧
      s.here.otherHalf.claim = none ∧ s.here.otherHalf.image = [] := by
  simp [State.canTrap, and_assoc]

/-- What taking a trap writes in the context, the handler's segment entered. -/
def Ctx.intoHandler (c : Ctx) (t : TrapInfo) (after : Bool) (tpc : Word) : Ctx :=
  ({ c.takeTrap t after tpc with armed := none } : Ctx).turnHalf { c.otherHalf with valid := true } none 0 true

theorem State.imageClash_nil (s : State) (w : Who) {h : Half} (hi : h.image = []) : s.imageClash w h = false := by
  simp [State.imageClash, hi]

/-- A half that needs no image and holds no claim becomes executing at once. -/
theorem State.intoHalf_now {pre s : State} {w : Who} {h : Half} {index : Nat} {ends : Bool}
    (hc : (s.ctx w).otherHalf.claim = none) :
    State.intoHalf pre s [w] h [] index ends =
      .entered (s.updCtx w (fun c => c.turnHalf { h with valid := true } none index ends)) := by
  simp [State.intoHalf, State.imageClash_nil, hc, State.writeRows]

theorem State.updCtx_congr {s : State} {w : Who} {f g : Ctx → Ctx} (h : f (s.ctx w) = g (s.ctx w)) :
    s.updCtx w f = s.updCtx w g := by simp [State.updCtx, h]

/-- 14 R292: a transfer of a privileged context into the segment that its other half holds. -/
theorem State.transferTo_held {pre s : State} {w : Who} {va : Word} {index : Nat} (h5 : va >>> 5 ≠ 0)
    (hp : (s.ctx w).priv = true) (hv : (s.ctx w).otherHalf.valid = true)
    (ha : (s.ctx w).otherHalf.addr = segmentBase va) (hc : (s.ctx w).otherHalf.claim = none)
    (hc' : (pre.ctx w).otherHalf.claim = none) (hi : (s.ctx w).otherHalf.image = []) :
    State.transferTo pre s [w] w va index true =
      .entered (s.updCtx w (fun c =>
        ({ c with armed := none } : Ctx).turnHalf { c.otherHalf with valid := true } none index true)) := by
  have hcl : ((s.updCtx w (fun x => { x with armed := none })).ctx w).otherHalf.claim = none := by
    rw [State.ctx_updCtx_self]; exact hc
  simp only [State.transferTo, h5, if_false, hc', Option.isSome_none, Bool.false_eq_true, hv, decide_eq_true ha, hp, hc,
    Option.isNone_none, Bool.true_or, Bool.and_self, if_true, State.updTeam_one, hi, State.intoHalf_now hcl,
    State.updCtx_updCtx]
  refine congrArg _ (State.updCtx_congr ?_)
  show _ = Ctx.turnHalf _ { (s.ctx w).otherHalf with valid := true } none index true
  clear hcl hv ha
  revert hi hc
  generalize (s.ctx w).otherHalf = h
  intro hi hc
  cases h
  cases hi
  cases hc
  rfl

/-- 21 R360: a trap that clears no mark enters the handler, and changes the context in focus alone. -/
theorem State.enterTrap_can {s : State} (h : s.canTrap = true) {t : TrapInfo} {after : Bool} {tpc : Word}
    (hc : t.cause ≠ Cause.halted) (hf : t.fix = .none) :
    State.enterTrap s s s.focus t after tpc = some (s.updCtx s.focus (fun c => c.intoHandler t after tpc)) := by
  obtain ⟨ha, hb, hp, hv, h5, hval, haddr, hcl, him⟩ := State.canTrap_iff.1 h
  have ha := State.alive_iff.1 ha
  have e1 : (s.ctx s.focus) = s.here := rfl
  have hx : ((s.updCtx s.focus (fun y => y.takeTrap t after tpc)).ctx s.focus) = s.here.takeTrap t after tpc :=
    State.ctx_updCtx_self _ _ _
  have ho : (Ctx.takeTrap s.here t after tpc).otherHalf = s.here.otherHalf := rfl
  unfold State.enterTrap
  simp only [State.team_alone ha.2.1, State.leadOf_alone ha.2.1, e1, hb, hc, hp, hv, hf, if_false, Bool.false_eq_true,
    Bool.true_eq_false, List.find?_cons, List.find?_nil, Bool.not_true, State.applyFix, List.foldl_cons, List.foldl_nil, if_true]
  rw [State.transferTo_held h5 (by rw [hx]; rfl) (by rw [hx, ho]; exact hval) (by rw [hx, ho]; exact haddr)
    (by rw [hx, ho]; exact hcl) hcl (by rw [hx, ho]; exact him)]
  simp only [State.updCtx_updCtx]
  rfl

/-- 21 R359, R360: the word's action traps. -/
theorem Takes.next_of_trap {s : State} {k : Nat} {m : Sem} (h : Takes s k m) {i : Instr} (hs : s.canTrap = true)
    (hw : i.wf = true) {t : TrapInfo} (hrun : m.run (s.alone k) s = .trap t) (hc : t.cause ≠ Cause.halted)
    (hf : t.fix = .none) :
    issueOne k i m s = .next ((s.updCtx s.focus
      (fun c => c.intoHandler { t with slot := k } false s.here.tpcHere)).settled) := by
  rw [issueOne_legal hw h.legal, State.issueBundle, h.offer_eq, h.attempt_eq, h.runTeam_eq, hrun]
  have hl : s.leadOf s.focus = s.focus := State.leadOf_alone h.alone
  have := State.enterTrap_can hs (t := { t with slot := k }) (after := false) (tpc := s.here.tpcHere) hc hf
  simp only [State.takeTrap, hl]
  rw [show (s.ctx s.focus).tpcHere = s.here.tpcHere from rfl, this]

/-- 14 R276: the target of a branch is no bundle of the segment. -/
theorem Takes.next_of_range {s : State} {k : Nat} {m : Sem} (h : Takes s k m) {i : Instr} (hs : s.canTrap = true)
    (hw : i.wf = true) {x : State} {t : Int} {ends : Bool} (hrun : m.run (s.alone k) s = .jump x (.index t false ends))
    (hres : (x.ctx s.focus).exiting = false)
    (ht : t < 0 ∨ ((x.ctx s.focus).execHalf.count : Int) ≤ t) :
    issueOne k i m s = .next ((s.updCtx s.focus
      (fun c => c.intoHandler { cause := Cause.branchRange, slot := k } false s.here.tpcHere)).settled) := by
  rw [issueOne_legal hw h.legal, State.issueBundle, h.offer_eq, h.attempt_eq, h.runTeam_eq, hrun]
  have he : (Ctx.countStep (x.ctx s.focus) s.here.inTrap).execHalf = (x.ctx s.focus).execHalf := by
    unfold Ctx.countStep; split <;> rfl
  have hn : (t < 0 ∨ ((x.ctx s.focus).execHalf.count : Int) < t ∨
      t = ((x.ctx s.focus).execHalf.count : Int)) := by omega
  have hch : State.choose s (x.updCtx s.focus (fun c => c.countStep s.here.inTrap)) [s.focus] s.focus
      (some (k, .index t false ends)) = .fault { cause := Cause.branchRange, slot := k } := by
    unfold State.choose
    simp only [State.ctx_updCtx_self, he, and_true]
    rw [if_pos hn]
  have hl : s.leadOf s.focus = s.focus := State.leadOf_alone h.alone
  simp only [if_false, Bool.false_eq_true, hres, Bool.and_false, hch,
    State.takeTrap, hl]
  rw [show (s.ctx s.focus).tpcHere = s.here.tpcHere from rfl, State.enterTrap_can hs (by simp) rfl]

/-- A trap of the bundle's words or registers (Table 21.2, ranks 1 to 3). -/
theorem next_of_early {s : State} {b : Bundle} (hs : s.canTrap = true) {t : TrapInfo}
    (ha : s.earlyTrap s.focus b = some (s.focus, t)) (hc : t.cause ≠ Cause.halted) (hf : t.fix = .none) :
    s.issueBundle s.focus b = (s.updCtx s.focus (fun c => c.intoHandler t false s.here.tpcHere)).settled := by
  have h := State.alive_iff.1 (State.canTrap_iff.1 hs).1
  have hl : s.leadOf s.focus = s.focus := State.leadOf_alone h.2.1
  unfold State.issueBundle State.offerBundle
  rw [State.team_alone h.2.1]
  simp only [State.gates_live _ h.2.2, ha, State.takeTrap, hl]
  rw [show (s.ctx s.focus).tpcHere = s.here.tpcHere from rfl, State.enterTrap_can hs hc hf]

/-- 02 R33: a word that is not an instruction. -/
theorem illegal_next {s : State} {k : Nat} {m : Sem} {i : Instr} (hs : s.canTrap = true) (hw : i.wf = false) :
    issueOne k i m s = .next ((s.updCtx s.focus
      (fun c => c.intoHandler { cause := Cause.illegal, slot := k } false s.here.tpcHere)).settled) := by
  have h := State.alive_iff.1 (State.canTrap_iff.1 hs).1
  unfold issueOne
  rw [next_of_early hs (t := { cause := Cause.illegal, slot := k }) _ (by simp) rfl]
  have hl : s.leadOf s.focus = s.focus := State.leadOf_alone h.2.1
  simp [State.earlyTrap, decodeTrap, hl, hw]

/-- 02 R34: a privileged form in user mode. -/
theorem privilege_next {s : State} {k : Nat} {m : Sem} {i : Instr} (hs : s.canTrap = true) (hw : i.wf = true)
    (hp : m.priv = true) :
    issueOne k i m s = .next ((s.updCtx s.focus
      (fun c => c.intoHandler { cause := Cause.privilege, slot := k } false s.here.tpcHere)).settled) := by
  have h := State.alive_iff.1 (State.canTrap_iff.1 hs).1
  have hu : (s.ctx s.focus).priv = false := (State.canTrap_iff.1 hs).2.2.1
  unfold issueOne
  rw [next_of_early hs (t := { cause := Cause.privilege, slot := k }) _ (by simp) rfl]
  have hl : s.leadOf s.focus = s.focus := State.leadOf_alone h.2.1
  simp [State.earlyTrap, decodeTrap, hl, hw, hp, hu]

/-- What the state after a trap holds. -/
theorem State.trapped_into {s : State} (h : s.canTrap = true) (t : TrapInfo) (after : Bool) :
    s.trapped t after (s.updCtx s.focus (fun c => c.intoHandler t after s.here.tpcHere)).settled = true ∧
      s.sameData (s.updCtx s.focus (fun c => c.intoHandler t after s.here.tpcHere)).settled = true := by
  obtain ⟨_, _, _, _, _, hval, haddr, hcl, him⟩ := State.canTrap_iff.1 h
  have hx : (s.updCtx s.focus (fun c => c.intoHandler t after s.here.tpcHere)).settled.here =
      s.here.intoHandler t after s.here.tpcHere := by
    simp [State.here, State.settled, State.ctx, State.hold, State.core]
    simp [State.updCtx, State.setCtx, State.setHold, State.setCore, State.ctx, State.hold, State.core]
  have hfoc : (s.updCtx s.focus (fun c => c.intoHandler t after s.here.tpcHere)).settled.focus = s.focus := rfl
  have hmem : (s.updCtx s.focus (fun c => c.intoHandler t after s.here.tpcHere)).settled.mem = s.mem := rfl
  have hh : (s.here.intoHandler t after s.here.tpcHere).execHalf.addr = s.here.otherHalf.addr := by
    simp [Ctx.intoHandler, Ctx.turnHalf, Ctx.execHalf, Ctx.takeTrap, Ctx.endCourses]
  constructor
  · simp only [State.trapped, hx, hfoc, hh]
    simp [Ctx.intoHandler, Ctx.turnHalf, Ctx.takeTrap, Ctx.endCourses]
  · simp only [State.sameData, hx, hmem]
    simp [Ctx.intoHandler, Ctx.turnHalf, Ctx.takeTrap, Ctx.endCourses]

/-- The same as one statement about exec. -/
theorem traps_of {s : State} {i : Instr} {t : TrapInfo} (hs : s.canTrap = true)
    (h : exec i s = .next ((s.updCtx s.focus (fun c => c.intoHandler t false s.here.tpcHere)).settled)) :
    s.traps i t :=
  ⟨_, h, (State.trapped_into hs t false).1, (State.trapped_into hs t false).2⟩

/-! ## A word whose predicate does not hold -/

/-- 02 R32: the word has no effect; only the allotment is checked. -/
theorem inactive_next {s : State} {k : Nat} {m : Sem} {i : Instr} (hs : s.plain = true) (hw : i.wf = true)
    (hl : m.ill = false) (hp : m.priv = false) (hafter : m.after = none) (hq : predHolds s.here m.pred = false)
    (hall : allotTrap [(k, m)] s.here = none) : issueOne k i m s = .next s.advance := by
  have hpl := State.plain_iff.1 hs
  have ha := State.alive_iff.1 hpl.1
  have hact : m.active (gateOf [(k, m)]) (s.alone k) k = false := by
    have hc : (if m.leadActs then { s.alone k with ctx := (s.alone k).lead } else s.alone k : Env) = s.alone k := by
      split <;> rfl
    simp only [Sem.active, hc]
    simp only [State.alone, hq, Bool.and_false]
  have hmark : markTrap [(k, m)] s s.focus s.focus = none := by
    simp only [markTrap, Takes.env, hact, List.findSome?_cons, List.findSome?_nil, Bool.false_eq_true, if_false]
  have hdec : decodeTrap [(k, m)] (s.ctx s.focus) = none := by simp [decodeTrap, hl, hp]
  have hall' : allotTrap [(k, m)] (s.ctx s.focus) = none := hall
  have hrun : runTeam [(k, m)] s s.focus (fun _ => none) [s.focus] { s := s } = .ok { s := s } := by
    simp [runTeam, runSlots, runSlot, Takes.env, hact]
  have hf : List.findSome? (fun x : Nat × Sem => x.2.after) [(k, m)] = none := by simp [hafter]
  have hearly : s.earlyTrap s.focus [(k, m)] = none := by
    simp [State.earlyTrap, State.team_alone ha.2.1, State.leadOf_alone ha.2.1, hdec, hmark, hall']
  have he : ((s.ctx s.focus).countStep s.here.inTrap).endingCourses ((s.ctx s.focus).countStep s.here.inTrap).index = [] := by
    rw [← hpl.2.2]; unfold Ctx.countStep; split <;> rfl
  have hc : ((s.ctx s.focus).countStep s.here.inTrap).index + 1 <
      ((s.ctx s.focus).countStep s.here.inTrap).execHalf.count := by
    unfold Ctx.countStep; split <;> exact hpl.2.1
  have hj : ((s.ctx s.focus).countStep s.here.inTrap).index = (s.ctx s.focus).index := by
    unfold Ctx.countStep; split <;> rfl
  have hres : (s.ctx s.focus).exiting = false := ha.1.2
  have hatt : s.attempt s.focus (fun _ => none) [(k, m)] = .issued s.advance := by
    unfold State.attempt
    simp only [State.team_alone ha.2.1, State.leadOf_alone ha.2.1, hrun, hf, State.updTeam_one, hres,
      Bool.and_false, Bool.false_eq_true, if_false]
    simp only [State.choose]
    rw [show (s.ctx s.focus).inTrap = s.here.inTrap from rfl]
    simp only [State.ctx_updCtx_self, he, Ctx.backEdge, hc, if_true, State.updTeam_one, State.updCtx_updCtx]
    congr 1
    unfold State.advance State.noteIssue
    simp only [State.updTeam_one, State.updTeam_nil, State.updCtx_updCtx]
    have key : ∀ f : Ctx → Ctx, f (s.ctx s.focus) = (s.ctx s.focus).advance → s.updCtx s.focus f = s.updCtx s.focus Ctx.advance := by
      intro f hf; simp [State.updCtx, hf]
    have hb : Ctx.backEdge (((s.ctx s.focus).countStep s.here.inTrap).endingCourses
        ((s.ctx s.focus).countStep s.here.inTrap).index) ((s.ctx s.focus).countStep s.here.inTrap) =
        ((s.ctx s.focus).countStep s.here.inTrap, none) := by rw [he]; rfl
    rw [hj] at hb
    rw [show (s.ctx s.focus).owner = s.here.owner from rfl]
    rw [key]
    simp only [hj, hb, Ctx.advance]
    rfl
  have hlog : (s.ctx s.focus).logMode ≠ 2 := ha.2.2
  rw [issueOne_legal hw hl, State.issueBundle]
  unfold State.offerBundle
  rw [hearly, State.team_alone ha.2.1]
  simp only [State.gates_live _ hlog]
  have : (fun w : Who => Option.map (fun c : Who × Word => c.2) (List.find? (fun c => decide (c.1 = w)) [])) = fun _ => none := by
    funext w; simp
  simp only [this, hatt, List.foldl_nil]

/-- A word that names no vector register beyond the allotment, and is no GROW or SHRINK. -/
theorem allotTrap_none {m : Sem} {c : Ctx} {k : Nat} (h : ∀ v ∈ m.vr ++ m.vw, v < c.allot) (hg : m.grow = none)
    (hs : m.shrink = none) : allotTrap [(k, m)] c = none := by
  simp only [List.mem_append] at h
  simp [allotTrap, hg, hs]
  exact ⟨fun v hv => h v (.inl hv), fun v hv => h v (.inr hv)⟩

/-! ## Results -/

section Shapes

variable {s : State} {p : BitVec 4} {i : Instr}

theorem free_scalar {m : Sem} {c : Ctx} {rs : List (BitVec 5)} {vs : List (BitVec 6)}
    (hr : ∀ r ∈ rs, c.freeS r.toNat = true) (hv : ∀ v ∈ vs, c.freeV v.toNat = true)
    (h1 : ∀ n ∈ m.sr ++ m.sw ++ m.leadReads, n ∈ rs.map BitVec.toNat) (h2 : ∀ n ∈ m.vr ++ m.vw, n ∈ vs.map BitVec.toNat)
    (hg : m.grow = none) (hs : m.shrink = none) : m.free c = true := by
  simp only [Sem.free, Bool.and_eq_true, List.all_eq_true, hg, hs]
  refine ⟨⟨⟨fun n hn => ?_, fun n hn => ?_⟩, trivial⟩, trivial⟩
  · obtain ⟨r, hr', rfl⟩ := List.mem_map.1 (h1 n hn)
    exact hr r hr'
  · obtain ⟨v, hv', rfl⟩ := List.mem_map.1 (h2 n hn)
    exact hv v hv'

/-- Fewer registers. -/
theorem State.can_sub {rs rs' : List (BitVec 5)} {vs vs' : List (BitVec 6)} (h : s.can p rs vs = true)
    (hr : ∀ r ∈ rs', r ∈ rs) (hv : ∀ v ∈ vs', v ∈ vs) : s.can p rs' vs' = true := by
  simp only [State.can, State.clear, Bool.and_eq_true, List.all_eq_true] at *
  exact ⟨⟨⟨h.1.1.1, fun r hr' => h.1.1.2 r (hr r hr')⟩, fun v hv' => h.1.2 v (hv v hv')⟩, h.2⟩

/-- A word that names the registers of a list, in a context that can issue it. -/
theorem takes_can {k : Nat} {m : Sem} {rs : List (BitVec 5)} {vs : List (BitVec 6)} (h : s.can p rs vs = true)
    (hp : m.pred = p)
    (h1 : ∀ n ∈ m.sr ++ m.sw ++ m.leadReads, n ∈ rs.map BitVec.toNat) (h2 : ∀ n ∈ m.vr ++ m.vw, n ∈ vs.map BitVec.toNat)
    (hg : m.grow = none) (hs : m.shrink = none) (hl : m.ill = false) (hpr : m.priv = true → s.here.priv = true)
    (hgate : k = 0 ∨ m.gate = none) : Takes s k m := by
  have h' := State.can_iff.1 h
  have hr := State.clear_iff.1 h'.1
  exact takes_of (State.plain_iff.1 hr.1).1 (free_scalar hr.2.1 hr.2.2 h1 h2 hg hs) hl hpr (by rw [hp]; exact h'.2) hgate

theorem State.plain_of_can {rs : List (BitVec 5)} {vs : List (BitVec 6)} (h : s.can p rs vs = true) : s.plain = true :=
  (State.clear_iff.1 (State.can_iff.1 h).1).1

theorem State.can_zero {rs : List (BitVec 5)} {vs : List (BitVec 6)} : s.can 0 rs vs = s.clear rs vs := by
  simp only [State.can, predHolds_zero, Bool.and_true]

/-- The word's only effect is one result. -/
theorem result_next {k l : Nat} {m : Sem} {d : Dst} {v w : Row} (h : Takes s k m) (hs : s.plain = true)
    (hw : i.wf = true) (ha : m.after = none) (hrun : m.run (s.alone k) s = .ok (s.result k l d v w)) :
    issueOne k i m s = .next (s.result k l d v w).advance :=
  h.next_of_upd hs hw hrun ha (by simp) (by simp) (by simp) (by simp) (by simp) (by simp)

/-- An S-slot instruction with a scalar result. -/
theorem alu_next {d : BitVec 5} {rs : List (BitVec 5)} {l : Nat} {f : Ctx → Word}
    (h : s.can p (d :: rs) [] = true) (hw : i.wf = true) :
    issueOne 1 i (aluSem p d rs l f) s = .next (s.scalar 1 l d (f s.here)).advance :=
  result_next (takes_can h rfl (by simp [aluSem]; tauto) (by simp [aluSem]) rfl rfl rfl (by simp [aluSem]) (.inr rfl))
    (State.plain_of_can h) hw rfl rfl

/-- An S-slot compare. -/
theorem cmp_next {f : BitVec 4} {rs : List (BitVec 5)} {g : Ctx → Bool}
    (h : s.can p rs [] = true) (hw : i.wf = true) :
    issueOne 1 i (cmpSem p f rs g) s = .next (s.flagged f (g s.here)).advance :=
  result_next (takes_can h rfl (by simp [cmpSem]) (by simp [cmpSem]) rfl rfl rfl (by simp [cmpSem]) (.inr rfl))
    (State.plain_of_can h) hw rfl rfl

/-- A V-slot instruction that writes the active lanes of vd. -/
theorem vec_next {d : BitVec 6} {vs : List (BitVec 6)} {w l : Nat} {f : Ctx → Row}
    (h : s.can p [] (d :: vs) = true) (hw : i.wf = true) :
    issueOne 4 i (vecSem p d vs w l f) s = .next (s.lanes l w d (f s.here)).advance :=
  result_next (takes_can h rfl (by simp [vecSem]) (by simp [vecSem]; tauto) rfl rfl rfl (by simp [vecSem]) (.inr rfl))
    (State.plain_of_can h) hw rfl rfl

/-- A one-operand floating instruction on f32. -/
theorem float1_next {d a : BitVec 6} {l : Nat} {g : Fmt → Nat → Nat} (hw : i.wf = true) (h : s.can p [] [d, a] = true) :
    issueOne 4 i (floatSem1 p d a 0 l g) s = .next (s.lanes l 32 d (map1 32 (g fp32) (s.here.vreg a.toNat))).advance :=
  vec_next h hw

end Shapes

end Sys2Proof.Machine
end

