-- ==== Sys2Proof/Laws/Translate.lean ====
section
/-! SUPPORT. What an address translation and a read on a context's behalf can change: the cluster TLBs, the walk
caches and the answers of other parties used up, and nothing else (18 R329, R332; 01 R26). -/
namespace Sys2Proof.Machine

/-- t is s but for the cluster TLBs, the walk caches and the answers of other parties still to come. -/
def State.OnlyTlb (s t : State) : Prop := t = { s with clusters := t.clusters, walks := t.walks, foreign := t.foreign }

namespace State.OnlyTlb

theorem refl (s : State) : s.OnlyTlb s := rfl

theorem trans {s t u : State} (h : s.OnlyTlb t) (k : t.OnlyTlb u) : s.OnlyTlb u := by
  have h' : t = { s with clusters := t.clusters, walks := t.walks, foreign := t.foreign } := h
  have k' : u = { t with clusters := u.clusters, walks := u.walks, foreign := u.foreign } := k
  unfold State.OnlyTlb
  rw [k', h']

variable {s t : State}

theorem focus (h : s.OnlyTlb t) : t.focus = s.focus := by rw [h]
theorem cores (h : s.OnlyTlb t) : t.cores = s.cores := by rw [h]
theorem mem (h : s.OnlyTlb t) : t.mem = s.mem := by rw [h]
theorem parts (h : s.OnlyTlb t) : t.parts = s.parts := by rw [h]
theorem jobs (h : s.OnlyTlb t) : t.jobs = s.jobs := by rw [h]
theorem core (h : s.OnlyTlb t) (g : Nat) : t.core g = s.core g := by rw [h]; rfl
theorem hold (h : s.OnlyTlb t) (g : Nat) : t.hold g = s.hold g := by rw [h]; rfl
theorem ctx (h : s.OnlyTlb t) (w : Who) : t.ctx w = s.ctx w := by rw [h]; rfl
theorem part (h : s.OnlyTlb t) (p : Nat) : t.part p = s.part p := by rw [h]; rfl
theorem job (h : s.OnlyTlb t) (j : Nat) : t.job j = s.job j := by rw [h]; rfl
theorem byte (h : s.OnlyTlb t) (a : Nat) : t.byte a = s.byte a := by rw [h]; rfl

end State.OnlyTlb

theorem State.fillTlb_only (s : State) (c : Nat) (l : Leaf) : s.OnlyTlb (s.fillTlb c l) := rfl

theorem State.answered_only (s : State) (pa : Nat) : s.OnlyTlb (s.answered pa) := by
  unfold State.answered; split <;> rfl

theorem State.leafFor_only {s t : State} {c j : Nat} {va : Word} {l : Leaf} (h : s.leafFor c j va = .ok (l, t)) :
    s.OnlyTlb t := by
  unfold State.leafFor at h
  split at h
  · cases h; rfl
  · split at h
    · cases h; rfl
    · cases h

theorem State.translate_only {s t : State} {c : Nat} {o : Owner} {priv : Bool} {va : Word} {k : Kind} {p : Nat}
    (h : s.translate c o priv va k = .ok (p, t)) : s.OnlyTlb t := by
  unfold State.translate at h
  split at h
  · split at h
    · cases h; rfl
    · cases h
  · split at h
    · cases h
    · split at h
      · cases h
      · rename_i hl
        split at h
        · cases h; exact State.leafFor_only hl
        · cases h

theorem State.fetchPart_only {s t : State} {c n : Nat} {o : Owner} {priv : Bool} {va : Word} {k : Kind} {l : List Byte}
    (h : s.fetchPart c o priv va n k = .ok (l, t)) : s.OnlyTlb t := by
  unfold State.fetchPart at h
  split at h
  · cases h
  · rename_i hl
    split at h
    · cases h
    · split at h
      · cases h
      · cases h; exact (State.translate_only hl).trans (State.answered_only _ _)

theorem State.fetchRun_only {c : Nat} {o : Owner} {priv : Bool} {kd : Kind} (k : Nat) {s t : State} {va : Word} {n : Nat}
    {l : List Byte} (h : State.fetchRun c o priv kd k s va n = .ok (l, t)) : s.OnlyTlb t := by
  induction k generalizing s va n l with
  | zero => unfold State.fetchRun at h; cases h; rfl
  | succ k ih =>
    unfold State.fetchRun at h
    simp only at h
    split at h
    · cases h
    · rename_i hp
      split at h
      · cases h; exact State.fetchPart_only hp
      · split at h
        · cases h
        · rename_i hr
          cases h
          exact (State.fetchPart_only hp).trans (ih hr)

theorem State.fetchBytes_only {s t : State} {c n : Nat} {o : Owner} {priv : Bool} {va : Word} {kd : Kind} {l : List Byte}
    (h : s.fetchBytes c o priv va n kd = .ok (l, t)) : s.OnlyTlb t := by
  unfold State.fetchBytes at h
  split at h
  · cases h; rfl
  · exact State.fetchRun_only _ h

theorem State.readSegment_only {s t : State} {c : Nat} {o : Owner} {priv : Bool} {va : Word} {g : Segment}
    (h : s.readSegment c o priv va = .ok (g, t)) : s.OnlyTlb t := by
  unfold State.readSegment at h
  simp only at h
  split at h
  · cases h
  · rename_i h1
    split at h
    · cases h
    · rename_i h2
      split at h
      · cases h
      · rename_i h3
        split at h
        · cases h
        · split at h
          · cases h
          · rename_i h4
            split at h
            · cases h
            · split at h
              · cases h
              · cases h
                refine ((State.fetchBytes_only h1).trans (State.fetchBytes_only h2)).trans
                  ((State.fetchBytes_only h3).trans ?_)
                split at h4
                · cases h4; exact State.OnlyTlb.refl _
                · split at h4
                  · cases h4; exact State.OnlyTlb.refl _
                  · exact State.fetchBytes_only h4

end Sys2Proof.Machine
end

