-- ==== Sys2Proof/Laws/Access.lean ====
section
/-! SUPPORT. Global accesses at issue: the checks change the cluster TLBs alone (18 R332), and a word whose action is to
write the context in focus after them. -/
namespace Sys2Proof.Machine

theorem State.globalAt_only {s x : State} {w : Who} {va : Word} {n : Nat} {k : Kind} {regs : Bool} {p : Nat}
    (h : s.globalAt w va n k regs = .ok (p, x)) : s.OnlyTlb x := by
  unfold State.globalAt at h
  simp only at h
  split at h
  · cases h
  · rename_i ht
    split at h
    · cases h
    · split at h
      · split at h
        · cases h
        · cases h; exact State.translate_only ht
      · cases h; exact State.translate_only ht

namespace State.OnlyTlb

variable {s x : State}

theorem regionAt (h : s.OnlyTlb x) (o : Owner) (va : Nat) : x.regionAt o va = s.regionAt o va := by rw [h]; rfl
theorem place (h : s.OnlyTlb x) (pa : Nat) : x.place pa = s.place pa := by rw [h]; rfl
theorem here (h : s.OnlyTlb x) : x.here = s.here := by rw [h]; rfl
theorem livePa (h : s.OnlyTlb x) (o : Owner) (va pa : Nat) : x.livePa o va pa = s.livePa o va pa := by rw [h]; rfl
theorem snoopingRange (h : s.OnlyTlb x) (pa n : Nat) : x.snoopingRange pa n = s.snoopingRange pa n := by rw [h]; rfl
theorem readMem (h : s.OnlyTlb x) (pa n : Nat) : x.readMem pa n = s.readMem pa n := by rw [h]; rfl

end State.OnlyTlb

/-- A word whose action is a write of the context in focus, after checks that changed the TLBs alone. -/
theorem Takes.next_of_reach {s : State} {k : Nat} {m : Sem} (h : Takes s k m) {i : Instr} (hs : s.plain = true)
    (hw : i.wf = true) {x : State} (hx : s.OnlyTlb x) {f : Ctx → Ctx}
    (hrun : m.run (s.alone k) s = .ok (x.updCtx s.focus f)) (hafter : m.after = none)
    (hres : (f s.here).exiting = s.here.exiting) (htrap : (f s.here).inTrap = s.here.inTrap)
    (howner : (f s.here).owner = s.here.owner) (hindex : (f s.here).index = s.here.index)
    (hends : (f s.here).endingCourses s.here.index = s.here.endingCourses s.here.index)
    (hcount : (f s.here).execHalf = s.here.execHalf) :
    issueOne k i m s = .next (x.updCtx s.focus f).advance := by
  have hh : (x.updCtx s.focus f).here = f s.here := by
    rw [← hx.focus, State.here_updCtx, hx.here]
  exact h.next_of_keeps hs hw hrun hafter hx.focus (by rw [hh]; exact hres) (by rw [hh]; exact htrap)
    (by rw [hh]; exact howner) (by rw [hh]; exact hindex) (by rw [hh]; exact hends) (by rw [hh]; exact hcount)

end Sys2Proof.Machine
end

