-- ==== Sys2Proof/Laws/Memory.lean ====
section
/-! SUPPORT. Every operation over memory keeps its canonical form (00 R9; log 2), and what a byte reads as after a write. -/
namespace Sys2Proof.Machine

theorem Memory.wf_nil : Memory.wf [] = true := rfl

theorem Memory.wf_write (m : List Host.Cell) (a : Nat) (v : Byte) (h : Memory.wf m = true) :
    Memory.wf (Memory.write m a v) = true := Tab.canon_set _ _ _ _ h

theorem Memory.wf_writeList (l : List Byte) (m : List Host.Cell) (a : Nat) (h : Memory.wf m = true) :
    Memory.wf (Memory.writeList m a l) = true := by
  induction l generalizing m a with
  | nil => exact h
  | cons b t ih => exact ih _ _ (Memory.wf_write m a b h)

theorem Memory.wf_clear (m : List Host.Cell) (a b : Nat) (h : Memory.wf m = true) :
    Memory.wf (Memory.clear m a b) = true := Tab.canon_filter _ _ _ h

theorem Memory.wf_outsideHbm (m : List Host.Cell) (h : Memory.wf m = true) : Memory.wf (outsideHbm m) = true :=
  Tab.canon_filter _ _ _ h

theorem Memory.wf_copy (m : List Host.Cell) (src dst n : Nat) (h : Memory.wf m = true) :
    Memory.wf (Memory.copy m src dst n) = true := by
  unfold Memory.copy
  generalize List.filter _ m = l
  have h0 := Memory.wf_clear m dst (dst + n) h
  generalize Memory.clear m dst (dst + n) = x at h0
  induction l generalizing x with
  | nil => exact h0
  | cons c t ih => exact ih _ (Memory.wf_write x _ _ h0)

/-- A run of bytes put in one pass: what stands before it, the bytes that are not the empty one, what stands after it. -/
theorem Memory.wf_putRun (m : List Host.Cell) (a : Nat) (l : List Byte) (h : Memory.wf m = true) :
    Memory.wf (Memory.putRun m a l) = true := by
  obtain ⟨hs, hv⟩ := (Tab.canon_iff _ _).mp h
  refine (Tab.canon_iff _ _).mpr ⟨?_, ?_⟩
  · have hz : List.Pairwise (fun x y : Nat × Byte => x.1 < y.1) ((List.range l.length).zip l) := by
      refine List.pairwise_iff_getElem.mpr fun i j hi hj hij => ?_
      simpa using hij
    simp only [Memory.putRun, List.pairwise_append, List.pairwise_map, List.mem_append, List.mem_map, List.mem_filter,
      decide_eq_true_eq]
    refine ⟨⟨hs.filter _, (hz.filter _).imp (fun h => Nat.add_lt_add_left h a), ?_⟩, hs.filter _, ?_⟩
    · rintro x ⟨-, hx⟩ y ⟨z, -, rfl⟩
      exact Nat.lt_of_lt_of_le hx (Nat.le_add_right _ _)
    · rintro x (⟨-, hx⟩ | ⟨z, ⟨hz, -⟩, rfl⟩) y ⟨-, hy⟩
      · omega
      · have := List.mem_range.mp (List.of_mem_zip hz).1
        simp only
        omega
  · intro e he
    simp only [Memory.putRun, List.mem_append, List.mem_map, List.mem_filter, decide_eq_true_eq] at he
    rcases he with (⟨hm, -⟩ | ⟨z, ⟨-, hz⟩, rfl⟩) | ⟨hm, -⟩
    · exact hv e hm
    · exact hz
    · exact hv e hm

@[simp] theorem Memory.read_write_self (m : List Host.Cell) (a : Nat) (v : Byte) :
    Memory.read (Memory.write m a v) a = v := Tab.get_set_self _ _ _ _

@[simp] theorem Memory.read_write_ne (m : List Host.Cell) {a b : Nat} (v : Byte) (h : b ≠ a) :
    Memory.read (Memory.write m a v) b = Memory.read m b := Tab.get_set_ne _ _ _ h

end Sys2Proof.Machine
end

