-- ==== Sys2Proof/Laws/Results.lean ====
section
/-! SUPPORT. Results that fall due (14 R290): what their commits leave alone, and the frame of a bundle whose one effect
is a result. -/
namespace Sys2Proof.Machine

/-! ## Commits -/

theorem Ctx.commit_sreg {c : Ctx} {q : Pending} {n : Nat} (h : q.dst ≠ .s n) : (c.commit q).sreg n = c.sreg n := by
  unfold Ctx.commit
  cases hd : q.dst with
  | s m =>
    have hm : m ≠ n := fun e => h (by rw [hd, e])
    simp only [Ctx.setS]
    split
    · rfl
    · simp [Ctx.sreg, Tab.get_put_ne _ _ _ (Ne.symm hm)]
  | f m => simp only [Ctx.commitFlag]; split <;> simp [Ctx.sreg, Ctx.setFlag, *]
  | v m => simp only; split <;> rfl

theorem Ctx.commit_vreg {c : Ctx} {q : Pending} {n : Nat} (h : q.dst ≠ .v n) : (c.commit q).vreg n = c.vreg n := by
  unfold Ctx.commit
  cases hd : q.dst with
  | s m => simp only [Ctx.setS]; split <;> rfl
  | f m => simp only [Ctx.commitFlag]; split <;> simp [Ctx.vreg, Ctx.setFlag, *]
  | v m =>
    have hm : m ≠ n := fun e => h (by rw [hd, e])
    simp only; split
    · simp [Ctx.setV, Ctx.vreg, Tab.get_put_ne _ _ _ (Ne.symm hm)]
    · rfl

/-- A flag that another flag's write leaves alone. -/
theorem getLsbD_setFld_ne {w : BitVec 16} {m n v : Nat} (h : m ≠ n) : (setFld w m 1 v).getLsbD n = w.getLsbD n := by
  have hv : (v % 2 * 2 ^ m).testBit n = false := by
    have : v % 2 = 0 ∨ v % 2 = 1 := by omega
    rcases this with hv | hv <;> simp [hv, h]
  by_cases hn : n < 16
  · have h1 : (2 ^ m).testBit n = false := by simp [h]
    simp only [setFld, BitVec.getLsbD_or, BitVec.getLsbD_and, BitVec.getLsbD_not, BitVec.getLsbD_ofNat]
    simp only [pow_one, Nat.add_one_sub_one, hn, decide_true, Bool.true_and, hv, Bool.or_false]
    simp [h1]
  · rw [BitVec.getLsbD_of_ge _ _ (by omega), BitVec.getLsbD_of_ge _ _ (by omega)]

/-- A flag after its write. -/
theorem getLsbD_setFld_self {w : BitVec 16} {n : Nat} (h : n < 16) (b : Bool) : (setFld w n 1 (bit b)).getLsbD n = b := by
  have h1 : (2 ^ n).testBit n = true := by simp
  have hv : (bit b % 2 * 2 ^ n).testBit n = b := by cases b <;> simp [bit]
  simp only [setFld, BitVec.getLsbD_or, BitVec.getLsbD_and, BitVec.getLsbD_not, BitVec.getLsbD_ofNat]
  simp only [pow_one, Nat.add_one_sub_one, h, decide_true, Bool.true_and, hv]
  simp [h1]

theorem Ctx.commit_flag {c : Ctx} {q : Pending} {n : Nat} (h : q.dst ≠ .f n) : (c.commit q).flag n = c.flag n := by
  unfold Ctx.commit
  cases hd : q.dst with
  | s m => simp only [Ctx.setS]; split <;> rfl
  | f m =>
    have hm : m ≠ n := fun e => h (by rw [hd, e])
    simp only [Ctx.commitFlag, Ctx.setFlag]
    split
    · rfl
    · simp only [Ctx.flag]; split
      · rfl
      · exact getLsbD_setFld_ne hm
  | v m => simp only; split <;> rfl

/-- The fields of a context that a result does not write. -/
def Ctx.blank (c : Ctx) : Ctx := { c with sregs := [], flags := 0, binds := [], vregs := [] }

theorem Ctx.commit_blank (c : Ctx) (q : Pending) : (c.commit q).blank = c.blank := by
  unfold Ctx.commit
  cases q.dst with
  | s m => simp only [Ctx.setS]; split <;> rfl
  | f m => simp only [Ctx.commitFlag, Ctx.setFlag]; split <;> rfl
  | v m => simp only; split <;> rfl

theorem Ctx.commits_blank (l : List Pending) (c : Ctx) : (l.foldl Ctx.commit c).blank = c.blank := by
  induction l generalizing c with
  | nil => rfl
  | cons q t ih => rw [List.foldl_cons, ih, Ctx.commit_blank]

theorem Ctx.commits_sreg {n : Nat} (l : List Pending) (c : Ctx) (h : ∀ q ∈ l, q.dst ≠ .s n) :
    (l.foldl Ctx.commit c).sreg n = c.sreg n := by
  induction l generalizing c with
  | nil => rfl
  | cons q t ih =>
    rw [List.foldl_cons, ih _ (fun x hx => h x (List.mem_cons_of_mem _ hx)), Ctx.commit_sreg (h q List.mem_cons_self)]

theorem Ctx.commits_flag {n : Nat} (l : List Pending) (c : Ctx) (h : ∀ q ∈ l, q.dst ≠ .f n) :
    (l.foldl Ctx.commit c).flag n = c.flag n := by
  induction l generalizing c with
  | nil => rfl
  | cons q t ih =>
    rw [List.foldl_cons, ih _ (fun x hx => h x (List.mem_cons_of_mem _ hx)), Ctx.commit_flag (h q List.mem_cons_self)]

theorem Ctx.commits_vreg {n : Nat} (l : List Pending) (c : Ctx) (h : ∀ q ∈ l, q.dst ≠ .v n) :
    (l.foldl Ctx.commit c).vreg n = c.vreg n := by
  induction l generalizing c with
  | nil => rfl
  | cons q t ih =>
    rw [List.foldl_cons, ih _ (fun x hx => h x (List.mem_cons_of_mem _ hx)), Ctx.commit_vreg (h q List.mem_cons_self)]

/-! ## The frame of an advance -/

/-- The context after a bundle whose effect on its own context was to go from c to x. -/
theorem Ctx.advance_blank (c : Ctx) : c.advance.blank =
    ({ c.blank with
        step := c.advance.step, handlerStep := c.advance.handlerStep, index := c.index + 1, waiting := false
        pend := c.advance.pend } : Ctx) := by
  have h := Ctx.commits_blank
    ((c.pend.filter (fun p => p.due? c.inTrap ((c.countStep c.inTrap).now + 1))))
    ({ c.countStep c.inTrap with index := c.index + 1 } : Ctx)
  unfold Ctx.advance Ctx.fallDue Ctx.commitDue
  unfold Ctx.countStep at *
  cases hi : c.inTrap <;> simp_all [Ctx.blank, Ctx.now]

/-- The context whose results then fall due. -/
def Ctx.stepped (c : Ctx) : Ctx := { c.countStep c.inTrap with index := c.index + 1 }

theorem Ctx.stepped_parts (c : Ctx) : c.stepped.pend = c.pend ∧ c.stepped.inTrap = c.inTrap ∧
    c.stepped.now = c.now + 1 ∧ (∀ n, c.stepped.sreg n = c.sreg n) ∧ (∀ n, c.stepped.flag n = c.flag n) ∧
    (∀ n, c.stepped.vreg n = c.vreg n) := by
  have : ∀ b, c.inTrap = b → c.stepped.now = c.now + 1 := by
    intro b hb; unfold Ctx.stepped Ctx.countStep Ctx.now; cases b <;> simp [hb]
  refine ⟨?_, ?_, this _ rfl, ?_, ?_, ?_⟩ <;> (unfold Ctx.stepped Ctx.countStep; split <;> intros <;> rfl)

theorem Ctx.stepped_pend {c : Ctx} {d : Dst} (h : c.quiet d = true) :
    ∀ q ∈ c.stepped.pend.filter (fun p => p.due? c.stepped.inTrap (c.stepped.now + 1)), q.dst ≠ d := by
  intro q hq
  have hp := c.stepped_parts
  simp only [List.mem_filter, hp.1, hp.2.1, hp.2.2.1] at hq
  simp only [Ctx.quiet, List.all_eq_true, Bool.or_eq_true, decide_eq_true_eq, Bool.not_eq_true'] at h
  rcases h q hq.1 with h | h
  · exact h
  · rw [show c.now + 1 + 1 = c.now + 2 from rfl, h] at hq
    simp at hq

theorem Ctx.advance_sreg {c : Ctx} {n : Nat} (h : c.quiet (.s n) = true) : c.advance.sreg n = c.sreg n :=
  (Ctx.commits_sreg (n := n) _ c.stepped (Ctx.stepped_pend h)).trans (c.stepped_parts.2.2.2.1 n)

theorem Ctx.advance_flag {c : Ctx} {n : Nat} (h : c.quiet (.f n) = true) : c.advance.flag n = c.flag n :=
  (Ctx.commits_flag (n := n) _ c.stepped (Ctx.stepped_pend h)).trans (c.stepped_parts.2.2.2.2.1 n)

theorem Ctx.advance_vreg {c : Ctx} {n : Nat} (h : c.quiet (.v n) = true) : c.advance.vreg n = c.vreg n :=
  (Ctx.commits_vreg (n := n) _ c.stepped (Ctx.stepped_pend h)).trans (c.stepped_parts.2.2.2.2.2 n)

/-! ## The frame of a bundle -/

/-- noteIssue changes one bit of one partition, and uses up an answer of another party. -/
theorem State.noteIssue_eq (s : State) (o : Owner) : ∃ ps, s.noteIssue [] o = { s with parts := ps, foreign := [] } ∧
    ∀ p, ({ Tab.get ({} : Part) ps p with idleReported := (s.part p).idleReported } : Part) = s.part p := by
  unfold State.noteIssue
  split
  · exact ⟨s.parts, rfl, fun p => rfl⟩
  · refine ⟨_, rfl, fun p => ?_⟩
    simp only [State.updTeam_nil, State.part, State.settled]
    by_cases hp : p = o.part
    · subst hp; rw [Tab.get_put_self]
    · rw [Tab.get_put_ne _ _ _ hp]

/-- Writing one context leaves the rest of the device as it was. -/
theorem State.updCtx_units (s : State) (w : Who) (f : Ctx → Ctx) (g : Nat) :
    ({ (s.updCtx w f).core g with cur := { (s.updCtx w f).hold g with ctxs := [] } } : Core) =
      { s.core g with cur := { s.hold g with ctxs := [] } } := by
  by_cases h : g = w.core
  · subst h; simp [State.updCtx, State.setCtx, State.setHold, State.setCore, State.hold, State.core]
  · simp [State.updCtx, State.setCtx, State.setHold, State.setCore, State.hold, State.core, Tab.get_put_ne _ _ _ h]

theorem State.hold_rows {s x : State} (hp : ∀ p, (x.part p).bulkBase = (s.part p).bulkBase ∧ (x.part p).bulkCount = (s.part p).bulkCount)
    (hc : ∀ g, ({ x.core g with cur := { x.hold g with ctxs := [] } } : Core) =
      { s.core g with cur := { s.hold g with ctxs := [] } }) (g n : Nat) : x.row g n = s.row g n := by
  have h := hc g
  have hf : (x.hold g).fast = (s.hold g).fast := by
    have := congrArg (fun c : Core => c.cur.fast) h; exact this
  have hpt : (x.hold g).part = (s.hold g).part := by
    have := congrArg (fun c : Core => c.cur.part) h; exact this
  have hb : (x.core g).bulk = (s.core g).bulk := by
    have := congrArg (fun c : Core => c.bulk) h; exact this
  have hbl : Hold.bulk x (x.hold g) = Hold.bulk s (s.hold g) := by
    unfold Hold.bulk; rw [hpt]; split
    · simp only [Part.groups, (hp _).1, (hp _).2]
    · rfl
  unfold State.row State.physRow
  rw [hf, hb, hbl]

/-- A bundle whose effect is in its own context: results scheduled for ds alone, nothing else but what f says. -/
theorem frame_of_pend {s : State} {f : Ctx → Ctx} {ds : List Dst} {l : List Pending}
    (hf : f s.here = { s.here with pend := l })
    (hq : ∀ d, d ∉ ds → s.here.quiet d = true → (f s.here).quiet d = true) :
    Frame s (s.updCtx s.focus f).advance ds := by
  let x := s.updCtx s.focus f
  have hx : x.here = f s.here := State.here_updCtx s f
  obtain ⟨ps, hps, hp⟩ := State.noteIssue_eq (x.updCtx s.focus Ctx.advance) x.here.owner
  have hadv : x.advance = { x.updCtx s.focus Ctx.advance with parts := ps, foreign := [] } := hps
  have hx2 : x.updCtx s.focus Ctx.advance = s.updCtx s.focus (fun c => (f c).advance) := by
    simp only [x, State.updCtx_updCtx]
  rw [hx2] at hadv hp
  have hctx : ∀ w, x.advance.ctx w = (s.updCtx s.focus (fun c => (f c).advance)).ctx w := by intro w; rw [hadv]; rfl
  have hhere : x.advance.here = (f s.here).advance := by
    have : x.advance.focus = s.focus := by rw [hadv]; rfl
    rw [State.here, this, hctx, State.ctx_updCtx_self]; rfl
  have hcore : ∀ g, x.advance.core g = (s.updCtx s.focus (fun c => (f c).advance)).core g := by intro g; rw [hadv]; rfl
  have hunits : ∀ g, ({ x.advance.core g with cur := { x.advance.hold g with ctxs := [] } } : Core) =
      { s.core g with cur := { s.hold g with ctxs := [] } } := by
    intro g
    have := State.updCtx_units s s.focus (fun c => (f c).advance) g
    unfold State.hold at *
    rw [hcore]; exact this
  have hparts : ∀ p, ({ x.advance.part p with idleReported := (s.part p).idleReported } : Part) = s.part p := by
    intro p
    have := hp p
    rw [hadv]; exact this
  refine ⟨?_, ?_, ?_, ?_, ?_, ?_, ?_, hunits, hparts, ?_⟩
  · intro a; rw [hadv]; rfl
  · refine State.hold_rows (fun p => ?_) hunits
    have := hparts p
    have h1 := congrArg Part.bulkBase this
    have h2 := congrArg Part.bulkCount this
    exact ⟨h1, h2⟩
  · intro w hw; rw [hctx]; exact State.ctx_updCtx_ne _ _ hw
  · intro n hn hqn
    rw [hhere, Ctx.advance_sreg (hq _ hn hqn), hf]; rfl
  · intro n hn hqn
    rw [hhere, Ctx.advance_flag (hq _ hn hqn), hf]; rfl
  · intro n hn hqn
    rw [hhere, Ctx.advance_vreg (hq _ hn hqn), hf]; rfl
  · rw [hhere]
    have hb := Ctx.advance_blank (f s.here)
    have hfb : (f s.here).blank = { s.here.blank with pend := l } := by rw [hf]; rfl
    have key : ∀ (a b c : Ctx), a.blank = ({ b with step := a.step, handlerStep := a.handlerStep, index := a.index, waiting := a.waiting,
                                                       pend := a.pend } : Ctx) → b = { c.blank with pend := l } →
        ({ a with step := c.step, handlerStep := c.handlerStep, index := c.index, waiting := c.waiting, pend := c.pend,
                  sregs := c.sregs, flags := c.flags, binds := c.binds, vregs := c.vregs } : Ctx) = c := by
      intro a b c h1 h2
      have h3 :
          ({ a with step := c.step, handlerStep := c.handlerStep, index := c.index, waiting := c.waiting, pend := c.pend,
                    sregs := c.sregs, flags := c.flags, binds := c.binds, vregs := c.vregs } : Ctx) =
          { a.blank with step := c.step, handlerStep := c.handlerStep, index := c.index, waiting := c.waiting,
                         pend := c.pend, sregs := c.sregs, flags := c.flags, binds := c.binds, vregs := c.vregs } := rfl
      rw [h3, h1, h2]
      rfl
    refine key (f s.here).advance (f s.here).blank s.here ?_ hfb
    have hi : (f s.here).advance.index = (f s.here).index + 1 := by
      have := congrArg Ctx.index hb
      exact this
    rw [hb, ← hi]
    rfl
  · rw [hadv]; rfl

theorem Ctx.schedule_quiet {c : Ctx} {n k l : Nat} {d : Dst} {v m : Row} {e : Dst} (he : e ≠ d) (h : c.quiet e = true) :
    (c.schedule n k l d v m).quiet e = true := by
  unfold Ctx.schedule
  split
  · simp only [Ctx.quiet, List.all_append, Bool.and_eq_true] at *
    exact ⟨h, by simp [Ne.symm he]⟩
  · exact h

theorem Ctx.schedule_eq (c : Ctx) (n k l : Nat) (d : Dst) (v m : Row) :
    c.schedule n k l d v m = { c with pend := (c.schedule n k l d v m).pend } := by
  unfold Ctx.schedule; split <;> rfl

/-- The frame of a bundle whose one effect is a result. -/
theorem frame_result (s : State) (k l : Nat) (d : Dst) (v m : Row) : Frame s (s.result k l d v m).advance [d] :=
  frame_of_pend (Ctx.schedule_eq _ _ _ _ _ _ _)
    (fun e he hq => Ctx.schedule_quiet (fun h => he (by rw [h]; exact List.mem_singleton_self _)) hq)

/-- The frame of a bundle without an effect. -/
theorem frame_advance (s : State) : Frame s s.advance [] := by
  have h := frame_of_pend (s := s) (f := id) (ds := []) (l := s.here.pend) rfl (fun _ _ h => h)
  have : (s.updCtx s.focus id).advance = s.advance := by
    unfold State.advance
    rw [State.here_updCtx, State.updCtx_focus, State.updCtx_updCtx]
    rfl
  rwa [this] at h

end Sys2Proof.Machine
end

