-- ==== Sys2Proof/Laws/Units.lean ====
section
/-! SUPPORT. What waking a core's contexts and a change of operating points leave alone. -/
namespace Sys2Proof.Machine

/-- Reading a table whose values have all been changed. -/
theorem Tab.get_map {α β : Type} (d : α) (f : α → β) (t : Tab α) (k : Nat) :
    Tab.get (f d) (List.map (fun e => (e.1, f e.2)) t) k = f (t.get d k) := by
  induction t with
  | nil => rfl
  | cons e t ih =>
    simp only [List.map_cons, Tab.get]
    split
    · rfl
    · exact ih

/-! ## wake (15 R295) -/

@[simp] theorem State.wake_focus (s : State) (g : Nat) : (s.wake g).focus = s.focus := rfl
@[simp] theorem State.wake_mem (s : State) (g : Nat) : (s.wake g).mem = s.mem := rfl
@[simp] theorem State.wake_parts (s : State) (g : Nat) : (s.wake g).parts = s.parts := rfl
@[simp] theorem State.wake_jobs (s : State) (g : Nat) : (s.wake g).jobs = s.jobs := rfl

/-- A context of the core no longer waits; any other context is as it was. -/
theorem State.ctx_wake (s : State) (g : Nat) (w : Who) :
    (s.wake g).ctx w = if w.core = g then { s.ctx w with waiting := false } else s.ctx w := by
  by_cases h : w.core = g
  · subst h
    rw [if_pos rfl]
    have := Tab.get_map ({} : Ctx) (fun c => { c with waiting := false }) (s.hold w.core).ctxs w.slot
    unfold State.wake State.ctx
    rw [State.hold_updHold_self]
    exact this
  · rw [if_neg h]
    unfold State.wake State.ctx State.updHold
    rw [State.hold_setHold_ne _ _ h]

/-! ## Operating points (15 R303) -/

@[simp] theorem Core.startTransition_cur (c : Core) (n : Nat) (d : Bool) : (c.startTransition n d).cur = c.cur := by
  unfold Core.startTransition; split <;> rfl

/-- Writing cores whose holders stay as they are in s. -/
theorem State.setCores_keep (s : State) (f : Nat → Core) (hf : ∀ m, (f m).cur = s.hold m) (l : List Nat) (x : State)
    (hx : ∀ k, x.hold k = s.hold k) :
    (l.foldl (fun x m => x.setCore m (f m)) x).focus = x.focus ∧ (l.foldl (fun x m => x.setCore m (f m)) x).mem = x.mem ∧
      (l.foldl (fun x m => x.setCore m (f m)) x).parts = x.parts ∧
      ∀ k, (l.foldl (fun x m => x.setCore m (f m)) x).hold k = s.hold k := by
  induction l generalizing x with
  | nil => exact ⟨rfl, rfl, rfl, hx⟩
  | cons g t ih =>
    rw [List.foldl_cons]
    refine ih (x.setCore g (f g)) (fun k => ?_)
    by_cases h : k = g
    · subst h; rw [State.hold, State.core_setCore_self, hf]
    · rw [State.hold, State.core_setCore_ne _ _ h]; exact hx k

/-- A change of operating points touches no holder of a core and no memory. -/
theorem State.opChanged_keeps (s : State) (g : Nat) :
    (s.opChanged g).focus = s.focus ∧ (s.opChanged g).mem = s.mem ∧ (s.opChanged g).parts = s.parts ∧
      (∀ k, (s.opChanged g).hold k = s.hold k) ∧ ∀ w, (s.opChanged g).ctx w = s.ctx w := by
  have key : (s.opChanged g).focus = s.focus ∧ (s.opChanged g).mem = s.mem ∧ (s.opChanged g).parts = s.parts ∧
      ∀ k, (s.opChanged g).hold k = s.hold k := by
    unfold State.opChanged
    simp only
    split
    · exact ⟨rfl, rfl, rfl, fun _ => rfl⟩
    · exact State.setCores_keep s _ (fun m => Core.startTransition_cur _ _ _) _ s (fun _ => rfl)
  exact ⟨key.1, key.2.1, key.2.2.1, key.2.2.2, fun w => by
    unfold State.ctx; rw [key.2.2.2]⟩

end Sys2Proof.Machine
end

