-- ==== Sys2Proof/Tests/Slice0.lean ====
section
/-! SUPPORT. The model's own tests: terms that well-formedness refuses, words written out from the encodings of the
spec, its worked examples, and, for every obligation with hypotheses, a concrete state and operands that meet them,
clause by clause. -/
namespace Sys2Proof.Tests
open Sys2Proof Sys2Proof.Machine

set_option maxRecDepth 100000
set_option exponentiation.threshold 2000

/-! ## Well-formedness: an ill-formed term for each check -/

/-- Codes of conditions, types, conversions, scopes, sizes, events, registers and groups that no word of the S, V, M, R, E
and C classes may hold, each beside a code that it may. -/
theorem test_wf_codes :
    ([.cmp 0 1 10 2 3, .cmpi 0 1 15 2 3, .cb 0 10 2 3 4, .fcmp 0 1 4 2 3, .fcvt 0 1 2 0 0, .fcvt 0 1 2 1 2,
      .ldx 1 2 3 0, .ldaq 1 2 3 6 0, .strl 1 2 3 7 0, .fence 6, .aadd 1 2 3 1 0, .acas 1 2 3 4 2 6, .afadd 1 2 3 6,
      .vFadd 0 1 2 3 3, .vAdd 0 1 2 3 2, .vAdd 0 1 2 3 9, .vShli 0 1 2 16 3, .vSari 0 1 2 32 4, .cmpm 0 10 1 2 3,
      .mpush 0 4 1 2 0, .cmpm 0 0 1 2 9, .vSel 0 1 2 3 9, .chkb 0 1 2 3 5, .red 0 1 2 0 0 0, .red 0 1 2 6 0 0,
      .red 0 1 2 1 3 0, .scan 0 1 2 1 2 0, .bcast 0 1 2 32 0, .perm 0 1 2 3 9, .rndf 0 1 3, .rndi 0 1 2 6,
      .cvt 0 1 2 0 0 0, .vstrRow 0 1 3 0, .vstrRing 0 1 1 0, .vstrGenerator 0 1 5, .vstrBond 0 1 31 0, .cpy 1 2 3 6,
      .bndset 0 1 2 3] : List Instr).all (fun i => !i.wf) = true ∧
    ([.cmp 0 1 9 2 3, .fcmp 0 1 11 2 3, .fcvt 0 1 2 1 0, .ldx 1 2 2 0, .fence 5, .aadd 1 2 3 2 5, .vFadd 0 1 2 3 2,
      .vAdd 0 1 2 3 8, .vShli 0 1 2 15 3, .cmpm 0 7 1 2 3, .mpush 0 11 1 2 0, .chkb 0 1 2 3 4, .red 0 1 2 5 2 0,
      .scan 0 1 2 6 1 1, .bcast 0 1 2 31 0, .rndi 0 1 2 7, .cvt 0 1 2 0 0 1, .vstrRow 0 1 30 0, .bndset 0 1 2 2] :
      List Instr).all (fun i => i.wf) = true := by decide

/-- The control slot and the microwords: courses, events, hints, barriers, system registers; addresses, buffers, tiles,
branch targets, ring counts and parameters. -/
theorem test_wf_control :
    ([.loop 6 1 2 3, .loopi 7 1 2 3, .igate 6 0 0, .bindf 0 1 0, .bindf 1 8 0, .bindf 1 3 1, .bindf 1 6 16, .hint 3,
      .sbar 0, .srr 1 0x00C, .srw 1 0x205, .mlda 3 1 0 0 2, .mldb 2 0 1 0 0, .mldb 0 0 1 1 0, .mstep 2 0, .mpcor 0 2 1,
      .mclr 2 0, .mdrain 2 0 0 1 0 0, .mdrain 0 5 0 1 0 0, .mloop 1 4096, .mbr 4 0 0 0, .mbr 0 1 0 0, .mbr 1 1 1 0,
      .mwaitr 2 0 1, .mwaitr 0 0 0, .mradv 0 0 257, .mfmt 6, .mset 1 0 0 0, .mset 8 1 0 0, .mset 0 2 0 1, .mset 6 3 0 0,
      .mset 0 4 0 0, .madd 2 0 0 0, .madd 0 0 1 0] : List Instr).all (fun i => !i.wf) = true ∧
    ([.loop 5 1 2 3, .bindf 1 7 15, .hint 2, .sbar 7, .srr 1 0x204, .mlda 2 1 15 0 2, .mdrain 1 4 0 1 0 0, .mloop 1 4095,
      .mbr 3 1 1 0, .mwaitr 1 0 256, .mset 5 3 0 0, .madd 1 0 1 0] : List Instr).all (fun i => i.wf) = true := by decide

/-- The steps of the other agents: unit numbers just past the last. -/
theorem test_wf_units :
    ([.issueCycle 1024, .overlayLoad 0 4, .viewUpdate 0 0 0, .viewUpdate 0 0 16, .retentionTick 64, .lossReport 64,
      .jobInval 256 0, .bondTransferArrival 0 0 16, .lendArrival 1024 0 0, .bootDoorbellDirect 256 0, .hostRead 257 0 0, .hostAtomicOp 256 .swap 0 4 0 0,
      .hdmDecoderCommit 4 0 0, .portUp 18, .difExportWrite 64 0, .gctlInvalidate 0 512, .gctlSetClass 0 512 0,
      .lbctlArm 0 0 2 0, .phyReadTest 256, .phyLaneWrite 0 66 0, .alarm 5, .translationWalk 64 0 0, .killJob 0 256,
      .partitionEnable 64, .jobCtlWrite 256 true 0, .windowContribution 64 0 0 0 0 0, .linkStateUpdate 0 18 0 true [] []] :
      List Instr).all (fun i => !i.wf) = true ∧
    ([.issueCycle 1023, .overlayLoad 1023 3, .viewUpdate 0 0 15, .retentionTick 63, .jobInval 255 0, .portUp 17,
      .gctlInvalidate 0 511, .phyLaneWrite 255 65 0, .alarm 4, .hostRead 256 0 0] : List Instr).all (fun i => i.wf) = true := by decide

/-! ## Words that the spec gives, and words written from its layouts -/

/-- 02 Table 2.21 and R58; 14: the control words of chapters 13, 14, 11 and 21. -/
theorem test_decode_control :
    decodeClass .control 0x0460FFFD = some (.br 0 3 0xFFFD) ∧ decodeClass .control 0x07200005 = some (.br 1 9 5) ∧
    decodeClass .control 0x0A000004 = some (.bnem 4) ∧ decodeClass .control 0x20900011 = some (.loop 1 4 1 1) ∧
    decodeClass .control 0x46410200 = some (.bindf 9 1 2) ∧ decodeClass .control 0x8C800000 = some (.grow 1) ∧
    decodeClass .control 0x90000000 = some (.shrink 0) ∧ decodeClass .control 0x8A000000 = some (.sbar 4) ∧
    decodeClass .control 0x61480000 = some (.spawn 10 1) ∧ decodeClass .control 0x64EA5800 = some (.spawns 7 10 11 0) ∧
    decodeClass .control 0x68E80000 = some (.decide 7 8) ∧ decodeClass .control 0x48000000 = some .yield ∧
    decodeClass .control 0x4C000000 = some .exit ∧ decodeClass .control 0xA0140000 = some (.trap 5) ∧
    decodeClass .control 0xA4000000 = some .eret ∧ decodeClass .control 0xA8E04000 = some (.srr 7 0x020) ∧
    decodeClass .control 0xACE04800 = some (.srw 7 0x024) ∧ decodeClass .control 0xB0000000 = some .halt ∧
    decodeClass .control 0xF0A00400 = some (.pwait 0 0xA 0 0 4 0 0) := by decide

/-- 04: the constant build, the branch on compare and the conversion; 02: the damaged ADD is no instruction. -/
theorem test_decode_scalar :
    decodeClass .scalar 0x04063200 = some (.add 0 3 3 4) ∧ decodeClass .scalar 0x04063201 = none ∧
    decodeClass .scalar 0xA0080123 = some (.movi 0 4 0x123) ∧ decodeClass .scalar 0xA4084567 = some (.movs 0 4 0x4567) ∧
    decodeClass .scalar 0xB00864FE = some (.cb 0 2 3 4 0xFE) ∧ decodeClass .scalar 0xD4043008 = some (.fcvt 0 2 3 0 1) := by
  decide

/-- 09 Table 9.8, 11, 12: loads, stores, ordering, atomics, versions, waits, spills and tags. -/
theorem test_decode_memory :
    decodeClass .memory 0x0485C008 = some (.ld 4 5 3 8) ∧ decodeClass .memory 0x0C65C000 = some (.st 3 5 3 0) ∧
    decodeClass .memory 0x1085D808 = some (.ldaq 4 5 3 3 8) ∧ decodeClass .memory 0x14E6A800 = some (.strl 7 6 2 5 0) ∧
    decodeClass .memory 0x18000000 = some .mark ∧ decodeClass .memory 0x1C001800 = some (.fence 3) ∧
    decodeClass .memory 0x8125C000 = some (.waita 9 5 3 0) ∧ decodeClass .memory 0x91200011 = some (.spill 9 17) ∧
    decodeClass .memory 0x84640000 = some (.tlook 3 4) ∧ decodeClass .memory 0x20E51836 = some (.aadd 7 5 3 3 3) ∧
    decodeClass .memory 0x50E54276 = some (.acas 7 5 8 9 3 3) ∧ decodeClass .memory 0x44E51828 = some (.afmin 7 5 3 4) ∧
    decodeClass .memory 0x60E52600 = some (.vld 7 5 4 3) ∧ decodeClass .memory 0x64E52600 = some (.vldle 7 5 4 3) ∧
    decodeClass .memory 0x68652600 = some (.vst 3 5 4 3) ∧ decodeClass .memory 0x6C052000 = some (.vpub 5 4) ∧
    decodeClass .memory 0x70052000 = some (.vfloor 5 4) ∧ decodeClass .memory 0x74052000 = some (.vdrop 5 4) ∧
    decodeClass .memory 0x78E50000 = some (.vquery 7 5) := by decide

/-- 02 Table 2.21, 05: the vector words. -/
theorem test_decode_vector :
    decodeClass .vector 0x10841460 = some (.vFma 2 4 5 6 0) ∧ decodeClass .vector 0xA0031190 = some (.red 0 3 4 3 1 0) ∧
    decodeClass .vector 0xB0082528 = some (.rotm 0 8 9 37) ∧ decodeClass .vector 0xC8034807 = some (.rndi 0 3 9 7) := by
  decide

/-- 02, 09, 06, 07, 10: the words of slots 6 and 7. -/
theorem test_decode_rows_engines :
    decodeClass .row 0x0450E001 = some (.vldrRow 5 7 1) ∧ decodeClass .row 0x0454C001 = some (.vldrRing 5 3 1) ∧
    decodeClass .row 0x208C0000 = some (.rcfg 2 6) ∧ decodeClass .row 0x2880C000 = some (.radvw 2 3) ∧
    decodeClass .row 0x64040000 = some (.give 0 2) ∧ decodeClass .row 0x41400000 = some (.aset 1 8) ∧
    decodeClass .engine 0x04140000 = some (.mcall 5) ∧ decodeClass .engine 0x09A40000 = some (.mpset 3 9) ∧
    decodeClass .engine 0x0C000000 = some .mpgo ∧ decodeClass .engine 0x40880000 = some (.fmtset 2 4) ∧
    decodeClass .engine 0x48C60000 = some (.bndget 6 3) ∧ decodeClass .engine 0x21092B00 = some (.cpy 8 9 2 3) ∧
    decodeClass .engine 0x24853000 = some (.pref 4 5 6) := by decide

/-- 06, 07: the microwords of the worked routine. -/
theorem test_decode_micro :
    decodeMicro 0x2002000000000000 = some (.mldb 0 0 1 0 0) ∧ decodeMicro 0x1000050000000000 = some (.mlda 0 0 0 0 5) ∧
    decodeMicro 0x3000000000000000 = some (.mstep 0 0) ∧ decodeMicro 0x80080000000A0000 = some (.mloop 4 10) ∧
    decodeMicro 0xF002000000210000 = some (.madd 0 1 0 33) ∧
    decodeMicro 0x700C000000000000 = some (.mdrain 0 0 0 6 0 0) ∧ decodeMicro 0 = some .mend := by decide

/-! ## The worked examples of the spec -/

/-- A task's context: bundle 2 of a segment of eight, the trap handler's segment in the other half. -/
def demoCtx : Ctx :=
  { resident := true, owner := { part := 1, job := 1 }, task := 5, allot := 16, index := 2
    halves := [(0, { valid := true, addr := 0x100, next := 0x2000, count := 8 }),
      (1, { valid := true, addr := 0x1000, count := 8 })]
    sregs := [(1, 0x40), (2, 7), (3, 0xFFFFFFFFFFFFFFF9)], flags := 2 }

/-- Core 0 runs it for partition 1, which has the first GiB of HBM and four row groups; job 1 maps virtual addresses from
0 to that GiB. -/
def demo : State :=
  { State.reset with
    cores := [(0, { cur := { part := some 1, ctxs := [(0, demoCtx)], tvec := 0x8000000000001000 } })]
    clusters := [(0, { tlb := [⟨1, 0, 30, 0, true, true, true, 1⟩] })]
    parts := [(1, { en := true, state := 1, clusters := 1, hbmCount := 1, bulkCount := 4 })]
    jobs := [(1, { en := true, fv := true, func := 3, part := 1, root := 0x100000 })] }

/-- The device with its context, or the state of its core, changed. -/
def demoWith (f : Ctx → Ctx) : State := demo.updCtx ⟨0, 0⟩ f
def demoHold (f : Hold → Hold) : State := demo.updHold 0 f
def demoBoth (f : Hold → Hold) (c : Ctx → Ctx) : State := (demo.updHold 0 f).updCtx ⟨0, 0⟩ c

/-- What a function reads in the context in focus after an instruction, once its results have fallen due. -/
def read {α : Type} (i : Instr) (s : State) (f : Ctx → α) : Option α :=
  match exec i s with
  | .next x => some (f (x.here.commitDue 1000))
  | .fault _ => none
  | .refused _ => none
/-- The outcome is a next state of which f holds. -/
def after (i : Instr) (s : State) (f : State → Bool) : Bool :=
  match exec i s with
  | .next x => f x
  | .fault _ => false
  | .refused _ => false

/-- 04 R91, R92: the divisions of −7 by 2 and of 5 by 0, and the funnel shifts. -/
theorem test_integer_examples :
    let s := demoWith (fun c => { c with sregs := [(1, 0xFFFFFFFFFFFFFFF9), (2, 2), (3, 5), (4, 1), (5, 0x8000000000000000),
      (6, 0xF), (7, 4)] })
    read (.div 0 9 1 2) s (fun c => c.sreg 9) = some 0xFFFFFFFFFFFFFFFD ∧
    read (.rem 0 9 1 2) s (fun c => c.sreg 9) = some (BitVec.allOnes 64) ∧
    read (.divu 0 9 3 0) s (fun c => c.sreg 9) = some (BitVec.allOnes 64) ∧
    read (.remu 0 9 3 0) s (fun c => c.sreg 9) = some 5 ∧
    read (.fshl 0 9 4 5 4) s (fun c => c.sreg 9) = some 3 ∧
    read (.fshr 0 9 6 0 7) s (fun c => c.sreg 9) = some 0xF000000000000000 := by decide

/-- 04 R96: the constant 0x0123456789ABCDEF after its MOVI and first MOVS. -/
theorem test_constant_build :
    read (.movi 0 4 0x123) demo (fun c => c.sreg 4) = some 0x123 ∧
    read (.movs 0 4 0xCDEF) (demoWith (fun c => { c with sregs := [(4, 0x0000012345678 * 2 ^ 16 + 0x9AB)] }))
      (fun c => c.sreg 4) = some (0x0000012345678 * 2 ^ 32 + 0x9ABCDEF) := by decide

/-- 03 Table 3.5, 04 R103: conversions of FP32, FP16 and BF16. -/
theorem test_conversions :
    fConvert fp32 bf16 0x3F800001 = 0x3F80 ∧ fConvert fp32 bf16 0x3F808000 = 0x3F80 ∧
    fConvert fp32 bf16 0x3F818000 = 0x3F82 ∧ fConvert fp32 fp16 0x35800000 = 0x0010 ∧
    fConvert fp32 fp16 0x477FF000 = 0x7C00 ∧ fConvert fp16 fp32 0x7D01 = 0x7FC00000 ∧
    fConvert bf16 fp32 0x8001 = 0x80010000 ∧
    read (.fcvt 0 2 3 0 1) (demoWith (fun c => { c with sregs := [(3, 0x477FF000)] })) (fun c => c.sreg 2) = some 0x7C00 := by
  decide

/-- 05 Table 5.4: the special values of the functions. -/
theorem test_special_values :
    roundNE (exactRcp (fp32.read 0)) fp32 = 0x7F800000 ∧ roundNE (exactRcp (fp32.read 0x80000000)) fp32 = 0xFF800000 ∧
    roundNE (exactRsqrt (fp32.read 0xBF800000)) fp32 = 0x7FC00000 ∧ roundNE (exactExp2 (fp32.read 0)) fp32 = 0x3F800000 ∧
    roundNE (exactExp2 (fp32.read 0xFF800000)) fp32 = 0 ∧ roundNE (exactLog2 (fp32.read 0)) fp32 = 0xFF800000 ∧
    roundNE (exactLog2 (fp32.read 0x7F800000)) fp32 = 0x7F800000 := by decide

/-- 05 R108: MPUSH.gt of FP32 lanes 0 to 9, then MINV. -/
theorem test_mask_example :
    let s := demoWith (fun c => { c with vregs := [(1, ofLanes 32 (List.replicate 10 0x3F800000))] })
    read (.mpush 0 7 1 0 0) s (fun c => c.mask) = some [0x3FF, BitVec.allOnes 64] ∧
    read (.minv 0) (demoWith (fun c => { c with mask := [0x3FF, BitVec.allOnes 64] })) (fun c => c.mask) =
      some [0xFFFFFFFFFFFFFC00, BitVec.allOnes 64] := by decide

/-- 05 R117: 128 bytes from byte 37 of a row and the next. -/
theorem test_rotm_example :
    read (.rotm 0 8 9 37) (demoWith (fun c => { c with vregs := [(8, 0xAB <<< 296), (9, 0xCD)] })) (fun c => c.vreg 8) =
      some (0xAB ||| (0xCD <<< 728)) := by decide

/-- 05 R124, R126 to R128: Draw(7, 8) of the reference key and stream, and what RNDF, RNDI and RNDB make of lane 8. -/
theorem test_draw_example :
    let s := demoWith (fun c => { c with key := 0x00000004000000030000000200000001, stream := 0x0000000600000005, drawCnt := 7
                                         sregs := [(9, 10)] })
    draw 0x00000004000000030000000200000001 0x0000000600000005 7 8 = 0xC969556C7D757B221C36EAB91A1494D2 ∧
    read (.rndf 0 2 0) s (fun c => (lane 32 (c.vreg 2) 8, c.drawCnt)) = some (0x3DA4A690, 8) ∧
    read (.rndi 0 3 9 7) s (fun c => lane 32 (c.vreg 3) 8) = some 1 ∧
    read (.rndb 0 4) s (fun c => lane 16 (c.vreg 4) 8) = some 0x94D2 := by decide

/-- 05 R129: weights 1, 2, 0.5 and 0.5 and the draw 0x900000 pick lane 1. -/
theorem test_sample_example :
    sampleIndex ([0x3F800000, 0x40000000, 0x3F000000, 0x3F000000] ++ List.replicate 28 0) 0x900000 = 1 := by decide

/-- 09 R208, R209: the pattern of the generator walk: the load at position 5 reads row 4096 + 34. -/
theorem test_generator_walk :
    genOffset [4, 3, 1, 1] [1, 33, 0, 0] 5 = 34 ∧ genOffset [4, 3, 1, 1] [1, 33, 0, 0] 11 = 69 := by decide

/-- 01 R23: local address 0x12345678 on device 37. -/
theorem test_physical_address : deviceOf 0x940012345678 = 37 ∧ localOf 0x940012345678 = 0x12345678 := by decide

/-- 13 Table 13.3: the placement word of the gang placed from the host. -/
theorem test_placement_word :
    let l : List Byte := List.replicate 56 0 ++ toBytes 8 0x159501000200000F
    placeCores l = [80, 81, 82, 83] ∧ placeSlot l = 1 ∧ placeMatrix l = true ∧ placeGang l = true ∧ placeSkew l = 2 ∧
    placeAlloc l = 4 ∧ placeSpillFirst l = 64 ∧ placeSpillRows l = 8 := by decide

/-- 19 R345: FIPS 197, the byte of section 5.1.1, its inverse, and the state of appendix B before and after its first mix
of columns. -/
theorem test_cipher_steps :
    subByte 0x53 = 0xED ∧ unsubByte 0xED = 0x53 ∧
    mixColumns [2, 3, 1, 1] [0xD4, 0xBF, 0x5D, 0x30, 0xE0, 0xB4, 0x52, 0xAE, 0xB8, 0x41, 0x11, 0xF1, 0x1E, 0x27, 0x98, 0xE5] =
      [0x04, 0x66, 0x81, 0xE5, 0xE0, 0xCB, 0x19, 0x9A, 0x48, 0xF8, 0xD3, 0x7A, 0x28, 0x06, 0x26, 0x4C] ∧
    mixColumns [14, 11, 13, 9] [0x04, 0x66, 0x81, 0xE5, 0xE0, 0xCB, 0x19, 0x9A, 0x48, 0xF8, 0xD3, 0x7A, 0x28, 0x06, 0x26, 0x4C] =
      [0xD4, 0xBF, 0x5D, 0x30, 0xE0, 0xB4, 0x52, 0xAE, 0xB8, 0x41, 0x11, 0xF1, 0x1E, 0x27, 0x98, 0xE5] ∧
    shiftRows 3 (shiftRows 1 ((List.range 16).map (BitVec.ofNat 8))) = (List.range 16).map (BitVec.ofNat 8) := by decide

/-- 07 Table 7.6: the drain worked through, of base −1 with bounds ±2048 that clamp and stochastic rounding. -/
theorem test_drain_example :
    let row0 : List Word := [33, 0, 0, 0, 0, 0, 0, 0, 2049, 0xFFFFFFFFFFFFEFFF]
    let t : Tile := { base := -1, cells := [row0, [], [], [], [], [0x7FFFFFFFFFFFFFFF]], sat := 0x20 }
    let d : Drain := { cv := 2, fmt := 0x00043A4000800000, bound := { low := 0xC5000000, high := 0x45000000, pol := 1 }
                       draw := fun i => (draw 0x00000004000000030000000200000001 0x0000000600000005 7
                         (BitVec.ofNat 32 i)).toNat % 2 ^ 32 }
    fmtValid d.fmt = true ∧ fmtDrain d.fmt = 2 ∧ d.float t 0 0 = 0x4C20 ∧ d.float t 0 8 = 0x6401 ∧ d.float t 0 9 = 0xE800 ∧
    d.float t 5 0 = 0x6800 ∧ d.float t 5 1 = 0 ∧ d.bad t 0 8 = false ∧ d.bad t 0 9 = true ∧ d.bad t 5 127 = true := by decide

/-! ## States and operands that meet the hypotheses of the obligations

One theorem per obligation that has hypotheses, clause by clause, with the boundary values of the clauses. -/

/-- The instruction has a next state. -/
def runs (i : Instr) (s : State) : Bool := after i s (fun _ => true)

theorem witness_IntegerResults :
    demo.can 0 [0, 31, 3] [] = true ∧ demo.can 1 [4, 3, 0] [] = true ∧ demo.here.sreg 0 = 0 ∧ demo.here.sreg 3 ≠ 0 := by decide

theorem witness_ImmediateResults :
    demo.can 0 [9, 1, 2, 3] [] = true ∧ demo.can 0 [31, 0] [] = true ∧ demo.can 0 [0] [] = true ∧
    demo.here.sreg 0 = 0 ∧ demo.here.sreg 1 ≠ 0 ∧ (clzWord 1).toNat = 63 ∧ (clzWord (BitVec.allOnes 64)).toNat = 0 := by decide

theorem witness_FloatResults :
    demo.can 0 [9, 1, 2] [] = true ∧ demo.can 0 [2, 3] [] = true ∧ isFcvt 1 0 = true ∧ isFcvt 0 2 = true ∧
    ((9 : BitVec 4).toNat ≤ 9) ∧ isFloatCond 11 = true ∧ isFloatCond 0 = true := by decide

/-- A core with a ring, a bond, a pattern record and a context that holds the matrix unit. -/
def stocked : State :=
  demoBoth (fun h => { h with
      fast := [(7, { data := bytesRow (padTo 128 (toBytes 4 7 ++ toBytes 12 0 ++ toBytes 4 2 ++ toBytes 4 2 ++ toBytes 4 3 ++
        toBytes 4 (2 ^ 32 - 1) ++ toBytes 4 1 ++ toBytes 4 0 ++ toBytes 4 1 ++ toBytes 4 0)) }), (20, { data := 0 }),
        (21, { data := 0xABC }), (22, { data := 5, poison := true })]
      bonds := [{ id := 3, first := 20, count := 4 }], nextBond := 4
      rings := [(1, { conf := true, first := 40, slots := 2, rows := 2, rp := 0, wp := 1, filled := 1, free := 1 })] })
    (fun c => { c with
      rings := [(0, some 1)], bonds := [(2, ⟨.held, 0, 3⟩)], pCommit := [(5, 16), (0, 9)], pShadow := [(2, 8)], mseq := 6
      record := List.replicate 56 0 ++ toBytes 8 (2 ^ 55) ++ List.replicate 64 0, spillFirst := 100, spillRows := 2
      ovfp := 0x5000, sregs := [(1, 1), (2, 7), (3, 30), (4, 4), (5, 21), (6, 0x3F800000), (7, 0x40000000)] })

theorem witness_Frames :
    demo.can 0 [9, 1, 2, 3] [] = true ∧ runs (.add 0 9 1 2) demo = true ∧ runs (.fcvt 0 9 1 0 1) demo = true ∧
    runs (.cmp 0 5 9 1 2) demo = true ∧ stocked.plain = true ∧
    ([.vstrRow 1 3 0 0, .vstrRing 1 0 0 1, .vstrBond 1 1 0 2, .spill 3 5, .spill 3 60, .radvr 0 0, .radvw 0 0, .aset 1 2,
      .bond 5 3 4, .give 2 4, .lend 2 4, .unbond 2, .mpset 3 4, .mpgo, .mcall 5, .fmtset 2 4, .bndset 3 6 7 1,
      .pref 1 4 2] : List Instr).all (fun i => i.wf && after i stocked (fun t =>
        decide (t.here.step + t.here.handlerStep = stocked.here.step + stocked.here.handlerStep + 1))) = true ∧
    stocked.storedRow (.vstrRow 1 3 0 0) = some 30 ∧ stocked.storedRow (.vstrRing 1 0 0 1) = some 43 ∧
    stocked.storedRow (.vstrBond 1 1 0 2) = some 21 ∧ stocked.storedRow (.spill 3 5) = some 100 ∧
    stocked.storedRow (.spill 3 60) = none ∧ stocked.here.binds.get none 5 = none ∧ (1 : Nat) ≠ stocked.focus.core := by decide
/-- No handle of demo names a bond of another core. -/
theorem witness_Frames_homes : ∀ k, (demo.here.handle k).home = demo.focus.core := fun _ => rfl

theorem witness_PredicateOff :
    (∃ w, encode (.add 8 3 3 4) = some w ∧ predHolds demo.here (fld w 22 4) = false) ∧
    (∃ w, encode (.vFma 2 4 5 6 0) = some w ∧ predHolds (demoWith (fun c => { c with allot := 64 })).here (fld w 22 4) = false) :=
  ⟨⟨_, rfl, by decide⟩, ⟨_, rfl, by decide⟩⟩
theorem witness_PredicateOff_slots :
    homeSlot (.add 8 3 3 4) = some 1 ∧ homeSlot (.vFma 2 4 5 6 0) = some 4 ∧ Instr.wf (.add 8 3 3 4) = true ∧
    Instr.wf (.vFma 2 4 5 6 0) = true ∧ demo.plain = true ∧ (demoWith (fun c => { c with allot := 64 })).plain = true ∧
    (demoWith (fun c => { c with allot := 64 })).here.allot = 64 := by decide

/-- Two results for s9 due at step 3 and one for f9 due later. -/
def awaiting : Ctx :=
  { demoCtx with pend := [⟨5, 1, 1, false, .f 9, 1, allOnes⟩, ⟨3, 0, 1, false, .s 9, 11, allOnes⟩, ⟨3, 2, 1, false, .s 9, 22, allOnes⟩] }
theorem witness_ResultsFallDue :
    awaiting.pend = [⟨5, 1, 1, false, .f 9, 1, allOnes⟩, ⟨3, 0, 1, false, .s 9, 11, allOnes⟩] ++
      [⟨3, 2, 1, awaiting.inTrap, .s 9, 22, allOnes⟩] ∧ (3 : Nat) ≤ 3 ∧
    (∀ q ∈ awaiting.pend, q.dst = .s 4 → q.due? awaiting.inTrap 3 = false) ∧
    (∀ q ∈ awaiting.pend, q.dst = .f 9 → q.due? awaiting.inTrap 3 = false) ∧
    (awaiting.commitDue 3).sreg 9 = 22 ∧ (awaiting.commitDue 2).sreg 9 = 0 := by decide
/-- Two results for one flag, and two for v15 whose lanes overlap, all due at step 3. -/
def laneWait : Ctx :=
  { demoCtx with pend := [⟨3, 0, 1, false, .f 15, 1, allOnes⟩, ⟨3, 1, 4, false, .v 15, 0x11, 0xFF⟩, ⟨2, 2, 1, false, .f 15, 0, allOnes⟩,
      ⟨3, 2, 4, false, .v 15, 0x22, 0xF⟩] }
theorem witness_ResultsFallDue_lanes :
    laneWait.pend = ([⟨3, 0, 1, false, .f 15, 1, allOnes⟩, ⟨3, 1, 4, false, .v 15, 0x11, 0xFF⟩] : List Pending) ++
      ⟨2, 2, 1, false, .f 15, 0, allOnes⟩ :: [⟨3, 2, 4, false, .v 15, 0x22, 0xF⟩] ∧
    (⟨2, 2, 1, false, .f 15, 0, allOnes⟩ : Pending).due? laneWait.inTrap 3 = true ∧ (15 : Nat) < laneWait.allot ∧
    (laneWait.commitDue 3).flag 15 = false ∧ (laneWait.commitDue 3).vreg 15 = 0x12 := by decide

/-- No lane is active. -/
def allOff : State := demoWith (fun c => { c with mask := [0], sregs := (8, 8) :: c.sregs })
theorem witness_BranchesTaken :
    demo.alive = true ∧ allOff.alive = true ∧ demo.here.freeS 2 = true ∧ demo.here.index = 2 ∧ demo.here.execHalf.count = 8 ∧
    demo.here.flag 1 ≠ (0 : BitVec 1).getLsbD 0 ∧ demo.here.top ≠ 0 ∧ allOff.here.top = 0 ∧
    (0 : Int) ≤ 2 + (0xFFFE : BitVec 16).toInt ∧ (2 : Int) + (5 : BitVec 16).toInt < 8 ∧
    (demo.here.sreg 2).toNat < demo.here.execHalf.count ∧ (0 : Int) ≤ 2 + (0xFE : BitVec 8).toInt ∧
    predHolds demo.here 0 = true ∧ intCond 9 (demo.here.sreg 1) (demo.here.sreg 2) = true := by decide

theorem witness_BranchesElsewhere :
    demo.can 0 [1, 2] [] = true ∧ demo.here.flag 1 = (1 : BitVec 1).getLsbD 0 ∧ demo.here.top ≠ 0 ∧ allOff.can 0 [1, 2] [] = true ∧
    allOff.here.top = 0 ∧ intCond 0 (demo.here.sreg 1) (demo.here.sreg 2) = false ∧ demo.canTrap = true ∧ allOff.canTrap = true ∧
    (2 : Int) + (0xFFFD : BitVec 16).toInt < 0 ∧ ((8 : Nat) : Int) ≤ 2 + (6 : BitVec 16).toInt ∧
    allOff.here.execHalf.count ≤ (allOff.here.sreg 8).toNat ∧ (2 : Int) + (0xFD : BitVec 8).toInt < 0 ∧
    ((8 : Nat) : Int) ≤ 2 + (6 : BitVec 8).toInt ∧ intCond 9 (demo.here.sreg 1) (demo.here.sreg 2) = true := by decide

/-- A course over bundles 1 and 2 with trip count 4 at an index. -/
def inCourse (i : BitVec 32) : State :=
  demoWith (fun c => { c with courses := [(3, { active := true, trip := 4, index := i, first := 1, last := 2, am := 0, start := 0 })] })
theorem witness_Courses :
    demo.clear [2] [] = true ∧ demo.here.index + 1 + 4 < demo.here.execHalf.count ∧ (demo.here.sreg 2).toNat % 2 ^ 32 ≠ 0 ∧
    (demo.here.sreg 0).toNat % 2 ^ 32 = 0 ∧ demo.here.index + 2 + 3 < demo.here.execHalf.count ∧
    demo.here.execHalf.count ≤ demo.here.index + 1 + 5 ∧ demo.canTrap = true ∧ (inCourse 2).alive = true ∧
    (inCourse 2).here.endingCourses (inCourse 2).here.index = [3] ∧ ((2 : BitVec 32) + 1).toNat < 4 ∧
    (inCourse 3).here.endingCourses (inCourse 3).here.index = [3] ∧ ¬ ((3 : BitVec 32) + 1).toNat < 4 ∧
    (inCourse 3).here.index + 1 < (inCourse 3).here.execHalf.count := by decide

/-- A ring of four slots, one filled, behind handle 2; flag 1 bound to a timer. -/
def ringed : State :=
  demoBoth (fun h => { h with rings := [(5, { conf := true, first := 7, slots := 4, rows := 2, wp := 1, filled := 1, free := 3 })] })
    (fun c => { c with rings := [(2, some 5)], binds := [(1, some (1, 2))] })
theorem witness_Waits :
    demo.plain = true ∧ demo.canTrap = true ∧ demo.here.flag 1 = true ∧ demo.here.binds.get none 1 = none ∧
    ringed.plain = true ∧ ringed.canTrap = true ∧ ringed.here.ringOf 2 = some 5 ∧ ringed.here.ringOf 3 = none ∧
    ((ringed.hold 0).ring 5).slots = 4 ∧ ((ringed.hold 0).ring 5).filled = 1 ∧ ((ringed.hold 0).ring 5).free = 3 ∧
    ringed.here.binds.get none 1 ≠ none ∧
    ([9, 8, 0].filter (fun y : BitVec 4 => decide (y ≠ 0) && decide (y ≠ 8))) = [9] ∧
    ringed.here.flag 1 = (9 : BitVec 4).getLsbD 3 ∧ demo.here.flag 1 ≠ (1 : BitVec 4).getLsbD 3 := by decide

theorem witness_ControlEffects :
    demo.plain = true ∧ isEvent 0 0 = true ∧ isEvent 3 0 = true ∧ isEvent 1 0x12 = true ∧ ringed.here.ringOf (0x12 % 16) ≠ none ∧
    ringed.here.ringOf (0x13 % 16) = none ∧ ringed.canTrap = true ∧ demo.here.ringless = none ∧
    (demo.hold 0).restoring = false ∧ (demo.hold 0).copies = [] ∧ (demo.hold 0).opReq = 5 ∧ (demo.core 0).opBusy = false := by
  decide
/-- A ringless copy of the context, and an operating-point change under way. -/
theorem witness_ControlEffects_waits :
    let c : CCmd := demo.here.copyCommand 0 0 (parseCopy []) none 0 0 none
    let s := (demoHold (fun h => { h with copies := [c] })).updCore 0 (fun k => { k with opBusy := true })
    let r := demoWith (fun c => { c with ringless := some ⟨19, none, 0x40⟩ })
    let m := demoWith (fun c => { c with gang := some { lead := 5, members := [5, 0], skew := 0 } })
    s.plain = true ∧ s.here.ringless = none ∧ (∃ c ∈ (s.hold 0).copies, c.slot = s.focus.slot ∧ c.ring = none) ∧
    (s.hold 0).opReq ≠ 3 ∧ (s.core 0).opBusy = true ∧ s.gangOn 0 = none ∧ r.plain = true ∧ r.canTrap = true ∧
    r.here.ringless = some ⟨19, none, 0x40⟩ ∧ (r.hold 0).copies = [] ∧
    (demoHold (fun h => { h with restoring := true })).plain = true ∧ m.here.gang ≠ none := by decide
/-- Core 0 is a member of a gang that core 5 leads, and another context of it issues. -/
theorem witness_ControlEffects_gang :
    let k : Gang := { lead := 5, members := [5, 0], skew := 0 }
    let s := demo.updHold 0 (fun h => { h with ctxs := h.ctxs.put 1 { demoCtx with gang := some k } })
    s.plain = true ∧ s.gangOn 0 = some k ∧ k.lead ≠ 0 ∧ (s.hold 0).opReq ≠ 3 := by decide

/-- Three contexts that share the 128 vector registers. -/
def crowded : State := demoHold (fun h => { h with ctxs := (h.ctxs.put 1 { demoCtx with allot := 64 }).put 2 { demoCtx with allot := 48 } })
theorem witness_Allotment :
    demo.plain = true ∧ demo.canTrap = true ∧ demo.here.allot = 16 ∧ (demo.hold 0).allotted = 16 ∧
    demo.here.allot + 48 ≤ 64 ∧ 64 < demo.here.allot + 56 ∧ demo.here.allot < 24 ∧ crowded.plain = true ∧
    (crowded.hold 0).allotted = 128 := by decide

/-- Equality with the answer of a memory check. -/
def places (e : Except Nat (Nat × State)) (pa : Nat) (s : State) : Bool :=
  match e with
  | .ok x => decide (x.1 = pa) && decide (x.2 = s)
  | .error _ => false
def causes {α : Type} (e : Except Nat α) (n : Nat) : Bool :=
  match e with
  | .ok _ => false
  | .error m => decide (m = n)
/-- Equality with the answer of a walk: its leaf and the number of entries it read. -/
def walks (e : Except WalkFault (Leaf × List WalkEntry)) (l : Leaf) (n : Nat) : Bool :=
  match e with
  | .ok x => decide (x.1 = l) && decide (x.2.length = n)
  | .error _ => false
def walkFails (e : Except WalkFault (Leaf × List WalkEntry)) (n : Nat) : Bool :=
  match e with
  | .ok _ => false
  | .error f => decide (f.cause = n)

/-- A reduction window of four 8-byte elements at this device. -/
def reduction : Window :=
  { base := 0x10000, elements := 4, op := 0, size := 3, wid := 7, status := 0x20000, loss := 0x30000, members := [0, 5, 6], job := 1 }
/-- demo with one leaf for its first GiB. -/
def mapped (l : Leaf) : State := { demo with clusters := [(0, { tlb := [l] })] }
theorem witness_GlobalAddress :
    (demo.ctx ⟨0, 0⟩).owner.boot = false ∧ 2 ^ 56 ≤ (0x0100000000000000 : Word).toNat ∧
    (0x00FFFFFFFFFFFFFF : Word).toNat < 2 ^ 56 ∧ walkFails (demo.walk 1 0x40000000) 19 = true ∧
    (∀ l ∈ (demo.cluster 0).tlb, l.covers 1 1 0x40000000 = false ∧ l.covers 1 2 0x3FFFFFFF = false) ∧
    (demo.cluster 0).tlb.find? (fun l => l.covers 1 1 0x3FFFFFFF) = some ⟨1, 0, 30, 0, true, true, true, 1⟩ ∧
    (⟨1, 0, 30, 0, true, true, true, 1⟩ : Leaf).allows false .read = true ∧
    (⟨1, 0, 30, 0, true, true, false, 1⟩ : Leaf).allows false .write = false ∧
    (⟨1, 0, 30, 0, false, true, true, 1⟩ : Leaf).allows true .write = true ∧
    (demo.updPart 2 (fun p => { p with windows := [reduction] })).windowShut { part := 1, job := 1 } 0x1001C = true ∧
    (demo.updPart 2 (fun p => { p with windows := [reduction] })).windowShut { part := 1, job := 1 } 0x10020 = false ∧
    (demo.updPart 1 (fun p => { p with windows := [reduction] })).windowShut { part := 1, job := 1 } 0x1001C = false ∧
    demo.place 0x3FFFFFF8 = .hbm ∧ demo.place (2 ^ 39) = .hole ∧ demo.place (576 * 2 ^ 42) = .noDevice ∧
    demo.place (2 ^ 41) = .registers := by decide
/-- One of each kind of answer. -/
theorem witness_GlobalAddress_answers :
    places (demo.globalAt demo.focus 0x45 8 .read true) 0x40 demo = true ∧
    causes (demo.globalAt demo.focus 0x0100000000000000 8 .read true) 16 = true ∧
    causes (demo.globalAt demo.focus 0x40000000 8 .read true) 19 = true ∧
    causes ((mapped ⟨1, 0, 30, 0, true, true, false, 1⟩).globalAt demo.focus 0x45 8 .write true) 23 = true ∧
    causes ((mapped ⟨1, 0, 30, 2 ^ 41, true, true, true, 1⟩).globalAt demo.focus 0x45 8 .read true) 23 = true ∧
    causes ((mapped ⟨1, 0, 30, 2 ^ 39, true, true, false, 1⟩).globalAt demo.focus 0x45 8 .read true) 18 = true ∧
    causes ((mapped ⟨1, 0, 30, 576 * 2 ^ 42, true, true, false, 1⟩).globalAt demo.focus 0x45 8 .read true) 17 = true ∧
    causes ((demo.updPart 2 (fun p => { p with windows := [reduction] })).globalAt demo.focus 0x1001D 4 .read true) 19 = true := by
  decide
/-- In privileged mode device registers are reached, by a form that may and at their width alone. -/
theorem witness_GlobalAddress_registers :
    let s := (mapped ⟨1, 0, 30, 2 ^ 41, false, true, true, 1⟩).updCtx ⟨0, 0⟩ (fun c => { c with priv := true })
    s.here.priv = true ∧ s.place (2 ^ 41 + 0x45) = .registers ∧ causes (s.globalAt s.focus 0x45 4 .read true) 18 = true ∧
    causes (s.globalAt s.focus 0x45 8 .read false) 18 = true := by decide

/-- demo with page tables for job 1 in place of its leaf: the page of virtual address 0, and nothing else. -/
def tabled (leaf : Nat) : State :=
  { demo with clusters := [], hostUp := true
              mem := [(0x100000, 0x110001), (0x110000, 0x120001), (0x120000, 0x130001), (0x130000, leaf)].foldl
                (fun m x => Memory.writeList m x.1 (toBytes 8 x.2)) [] }
theorem witness_PartitionIsolation :
    walks ((tabled 0x3001F).walk 1 0x45) ⟨1, 0, 16, 0x30000, true, true, true, 1⟩ 3 = true ∧ demo.isLocalHbm 0x30000 = true ∧
    (∀ l ∈ (demo.cluster 0).tlb, l.job = 1 → l.part = 1 → (l.bits = 30 ∨ l.bits = 21 ∨ l.bits = 16) ∧ l.pa % 2 ^ l.bits = 0 ∧
      (demo.isLocalHbm l.pa = true → demo.inHbm (demo.job 1).part.toNat l.pa = true)) ∧
    places (demo.translate 0 { part := 1, job := 1 } false 0x45 .read) 0x45 demo = true ∧ demo.isLocalHbm 0x45 = true := by decide

/-- The walk of a page that is not in the TLB: it and the three entries read join the TLB and the walk cache. -/
theorem witness_GlobalAddress_walk :
    let s := (tabled 0x3001F).updPart 1 (fun p => { p with budgets := [(3, 1)] })
    (s.cluster 0).tlb.find? (fun l => l.covers 1 1 0x45) = none ∧
    walks (s.walk 1 0x45) ⟨1, 0, 16, 0x30000, true, true, true, 1⟩ 3 = true ∧ walkFails (s.walk 1 0x10045) 19 = true ∧
    (match s.globalAt s.focus 0x45 8 .read true with
     | .ok x => decide (x.1 = 0x30040) && decide ((x.2.cluster 0).tlb.length = 1) && decide ((x.2.walksOf 1).length = 3)
     | .error _ => false) = true := by decide

/-- A versioned region over the first page. -/
def region : Region :=
  { base := 0, size := 65536, span := 256, pool := 0, poolSize := 10
    versions := [{ block := 1, v := 5, data := 0x77, published := true, writer := none },
      { block := 1, v := 9, data := 0x99, published := false, writer := some 5 }] }
def versioned (v : Word) : State :=
  (demo.updJob 1 (fun j => { j with regions := [region] })).updCtx ⟨0, 0⟩ (fun c => { c with sregs := c.sregs.put 4 v })
def aLoad (pa : Nat) (k : LoadKind) : LoadEntry := ⟨0, k, 4, 8, false, 0x40, pa, false, false⟩
def aStore (pa : Nat) (k : StoreKind) : StoreEntry := ⟨0, k, 8, 0x40, pa, 0x0102030405060708, false⟩
/-- Full queues, a held cause, and a speculative task. -/
def queuesFull : State :=
  demoWith (fun c => { c with loadQ := List.replicate 32 (aLoad 0x40 .plain), storeQ := List.replicate 32 (aStore 0x40 .plain) })
def holding : State := demoWith (fun c => { c with heldStore := some ⟨20, none, 0⟩ })
def speculative : State := demoWith (fun c => { c with spec := some { parent := 1, index := 0, side := false, pair := 0 } })
theorem witness_QueuedAccesses :
    demo.clear [9, 1] [] = true ∧ isScope 5 = true ∧ places (demo.globalAt demo.focus 0x45 8 .read true) 0x40 demo = true ∧
    places (demo.globalAt demo.focus 0x45 8 .write true) 0x40 demo = true ∧ demo.regionAt demo.here.owner 0x45 = none ∧
    demo.here.loadQ = [] ∧ demo.here.storeQ = [] ∧ demo.here.heldStore = none ∧ demo.here.spec = none ∧ demo.canTrap = true ∧
    queuesFull.clear [9, 1] [] = true ∧ 32 ≤ queuesFull.here.loadQ.length ∧ 32 ≤ queuesFull.here.storeQ.length ∧
    places (queuesFull.globalAt demo.focus 0x45 8 .read true) 0x40 queuesFull = true ∧
    (versioned 0).regionAt demo.here.owner 0x45 ≠ none ∧ (versioned 0).canTrap = true ∧ (versioned 0).clear [9, 1] [] = true ∧
    holding.here.heldStore = some ⟨20, none, 0⟩ ∧ holding.canTrap = true ∧ holding.clear [9, 1] [] = true ∧
    speculative.here.spec ≠ none ∧ speculative.canTrap = true ∧ speculative.clear [9, 1] [] = true ∧
    causes (demo.globalAt demo.focus 0x40000040 8 .read true) 19 = true := by decide
theorem witness_QueuedAccesses_answers :
    places ((versioned 0).globalAt demo.focus 0x45 8 .read true) 0x40 (versioned 0) = true ∧
    places (speculative.globalAt demo.focus 0x45 8 .write true) 0x40 speculative = true ∧
    places (holding.globalAt demo.focus 0x45 8 .write true) 0x40 holding = true := by decide
/-- The host may hold the line of a table entry that the walk reads. -/
theorem witness_QueuedAccesses_later :
    let s : State := { tabled 0x3001F with hostLines := [0x110000 / 64] }
    s.clear [9, 1] [] = true ∧ causes (s.globalAt s.focus 0x45 8 .read true) Cause.later = true := by decide

theorem witness_Atomics :
    demo.clear [4, 1, 2, 3] [] = true ∧ isScope 5 = true ∧ 2 ≤ (2 : BitVec 2).toNat ∧ demo.regionAt demo.here.owner 0x40 = none ∧
    demo.here.spec = none ∧ demo.place 0x40 = .hbm ∧ demo.windowAt 0x40 = none ∧ demo.here.loadQ.length < 32 ∧
    places (demo.globalAt demo.focus 0x40 8 .write false) 0x40 demo = true ∧
    places (demo.globalAt demo.focus 0x40 4 .write false) 0x40 demo = true ∧ (2 ^ 32 - 1 : Nat) < 2 ^ (8 * 4) := by decide
/-- An element of a window of the partition, by its operation and size; and an access of another size. -/
theorem witness_Atomics_window :
    let s := demo.updPart 1 (fun p => { p with windows := [reduction] })
    let t := s.updCtx ⟨0, 0⟩ (fun c => { c with sregs := c.sregs.put 1 0x10008 })
    t.clear [4, 1, 2, 3] [] = true ∧ t.windowAt 0x10008 = some (1, reduction) ∧ t.canTrap = true ∧ t.place 0x10008 = .hbm ∧
    places (t.globalAt t.focus 0x10008 8 .write false) 0x10008 t = true ∧ reduction.op = 0 ∧ reduction.width = 8 ∧
    places (t.globalAt t.focus 0x10008 4 .write false) 0x10008 t = true ∧ reduction.members.contains t.difIndex.toNat = true := by
  decide
/-- 12 R240, R241: a wrap, a sign change, −0 below +0, and the operand of a comparison that fails. -/
theorem test_atomic_values :
    atomicNew 0x08 4 0xFFFFFFFF 2 0 = 1 ∧ atomicNew 0x0C 4 0x80000000 5 0 = 0x80000000 ∧ atomicNew 0x0E 4 0x80000000 5 0 = 5 ∧
    atomicNew 0x11 4 0 0x80000000 0 = 0x80000000 ∧ atomicNew 0x12 4 0x7FC00001 0x3F800000 0 = 0x3F800000 ∧
    atomicNew 0x11 4 0x7F800001 0xFFC00000 0 = 0x7FC00000 ∧ atomicNew 0x14 8 5 6 7 = 5 := by decide

/-- Addresses of the host's memory and of device 2. -/
def hostAddr : Nat := 2 ^ 40 + 0x1000
def remoteAddr : Nat := 2 ^ 43 + 0x1000
/-- Memory with eight bytes listed from 0x40, and a context with entries in its queues. -/
def queued (l : List LoadEntry) (t : List StoreEntry) : State :=
  { demoWith (fun c => { c with loadQ := l, storeQ := t }) with mem := [(0x40, 0x11), (0x41, 0x22), (0x43, 0x84), (0x47, 0x90)] }
theorem witness_AccessesPerformed :
    let s := queued [] [aStore 0x40 .plain]
    (s.ctx ⟨0, 0⟩).storeReady (aStore 0x40 .plain) = true ∧ s.place 0x40 = .hbm ∧ (s.job 1).palletAt 0x40 = none ∧
    s.retired 0x40 = false ∧ s.snoopingRange 0x40 8 = false ∧ s.sec.diesStopped = false ∧ (s.key 0x48 < s.key 0x40 ∨ s.key 0x40 + 8 ≤ s.key 0x48) ∧
    s.poisonedRange 0x40 8 = false ∧ ({ s with poison := [1] } : State).poisonedRange 0x40 8 = true ∧
    after (.storePerformed 0 0) s (fun x => decide (x.readMem 0x40 8 = 0x0102030405060708)) = true ∧
    after (.globalLoadResponse 0 0 .linkLost) (queued [aLoad 0x40 .plain] [])
      (fun x => decide (x.here.sreg 4 = 0x9000000084002211)) = true ∧
    after (.globalLoadResponse 0 0 (.data hostAddr [9])) (queued [aLoad 0x40 .plain] [])
      (fun x => decide (x.here.sreg 4 = 0x9000000084002211) && decide (x.byte hostAddr = 9)) = true ∧
    after (.globalLoadResponse 0 0 (.data 0 [])) (queued [aLoad 0x40 (.atomic 0x08 5 0)] [aStore 0x40 .mark])
      (fun x => decide (x.readMem 0x40 8 = 0x9000000084002216) && decide (x.here.sreg 4 = 0x9000000084002211)) = true := by decide
/-- 11 R231, R235: older bytes that no edge hides, and a store performed at context scope that a load of its bytes awaits. -/
theorem witness_AccessesPerformed_older :
    let s := (queued [aLoad 0x40 .plain] []).updCtx ⟨0, 0⟩ (fun c => { c with older := [⟨0, 0x40, [7, 0, 0, 0, 0, 0, 0, 0], false⟩] })
    let t := (queued [aLoad 0x40 .plain] [aStore 0x40 .plain]).updCtx ⟨0, 0⟩ (fun c => { c with seen := 1 })
    s.here.loadReady (aLoad 0x40 .plain) = true ∧ (aLoad 0x40 .plain).acquire = false ∧
    after (.globalLoadResponse 0 0 .older) s (fun x => decide (x.here.sreg 4 = 7)) = true ∧
    after (.globalLoadResponse 0 0 (.data 0 [])) s (fun x => decide (x.here.sreg 4 = 0x9000000084002211) && x.here.older.isEmpty) = true ∧
    t.here.loadReady (aLoad 0x40 .plain) = false ∧
    after (.storePerformed 0 0) t (fun x => x.here.loadReady (aLoad 0x40 .plain)) = true := by decide
theorem witness_AccessesPerformed_mark :
    let s := demoWith (fun c => { c with marks := [⟨false, 2, 20, none⟩] })
    s.canTrap = true ∧ (2 : BitVec 5) ≠ 0 ∧ s.here.marks = [⟨false, 2, 20, none⟩] ∧
    after (.add 0 5 2 1) s (fun x => decide (x.here.cause = BitVec.ofNat 64 (2 ^ 24 + 20)) && x.here.marks.isEmpty) = true := by decide

/-- What a version access meets in the region, whatever state its check leaves. -/
def inRegion (e : Except Nat (Region × Nat × State)) (r : Region) (pa : Nat) (s : State) : Bool :=
  match e with
  | .ok x => decide (x.1 = r) && decide (x.2.1 = pa) && decide (x.2.2 = s)
  | .error _ => false
theorem witness_Versions :
    let s := versioned 9
    s.clear [6, 1, 4] [] = true ∧ s.canTrap = true ∧ s.here.spec = none ∧ s.here.loadQ = [] ∧ s.here.storeQ = [] ∧
    region.blockOf 0x40 = 1 ∧ (0 : Nat) < 9 ∧ 9 < region.horizon ∧ region.floor ≤ 9 ∧ region.horizon ≤ 256 ∧
    s.undecidedPair s.here = none ∧ s.covers s.here.owner.job region.base 9 s.here.task = true ∧ s.covers s.here.owner.job region.base 12 s.here.task = false ∧
    (match region.vld 1 5 5 with | .accept u => decide (u.v = 5) | _ => false) = true ∧
    (match region.vldle 1 7 5 with | .accept u => decide (u.v = 5) | _ => false) = true ∧
    (match region.vld 1 7 6 with | .wait => true | _ => false) = true ∧
    (match region.vldle 0 3 6 with | .refuse e => decide (e = 40) | _ => false) = true ∧
    (match region.vst 1 12 5 [] Version.data with | .accept r => decide (r.versions.length = 3) | _ => false) = true ∧
    (match region.vst 1 5 5 [] Version.data with | .refuse e => decide (e ≠ 50) | _ => false) = true ∧
    (match ({ region with poolSize := 2 } : Region).vst 1 12 5 [] Version.data with | .wait => true | _ => false) = true ∧
    (match region.vst 1 255 5 [] Version.data with | .accept _ => true | _ => false) = true ∧ region.horizon = 256 ∧
    (match region.vst 1 256 5 [] Version.data with | .refuse e => decide (e = 39) | _ => false) = true := by decide
/-- A successor of a pair that its parent, in context 1, has not decided; and one that awaits an acquire. -/
theorem witness_Versions_pair :
    let s := (versioned 9).updCtx ⟨0, 0⟩ (fun c => { c with spec := some { parent := 8, index := 0, side := false, pair := 2 } })
    let u := s.updHold 0 (fun h => { h with ctxs := h.ctxs.put 1 { demoCtx with task := 8, pairs := [⟨0, 2, [5], [6]⟩] } })
    let l := (versioned 9).updCtx ⟨0, 0⟩ (fun c => { c with loadQ := [{ aLoad 0x80 .plain with acquire := true }] })
    u.clear [6, 1, 4] [] = true ∧ u.undecidedPair u.here = some [6] ∧ u.here.loadQ = [] ∧ u.here.storeQ = [] ∧
    inRegion (u.versionAt demo.focus 0x40 1 .write) region 0x40 u = true ∧
    u.covers u.here.owner.job region.base 9 u.here.task = true ∧ l.clear [6, 1, 2] [] = true ∧
    causes (l.versionAt demo.focus 0x40 8 .read) Cause.later = true := by decide
theorem witness_Versions_checks :
    inRegion ((versioned 9).versionAt demo.focus 0x40 8 .read) region 0x40 (versioned 9) = true ∧
    inRegion ((versioned 9).versionAt demo.focus 0x40 8 .write) region 0x40 (versioned 9) = true ∧
    inRegion ((versioned 9).versionAt demo.focus 0x40 1 .write) region 0x40 (versioned 9) = true ∧
    inRegion ((versioned 9).versionAt demo.focus 0x40 1 .read) region 0x40 (versioned 9) = true := by decide

/-- Three tags, two of them equal; a carve-out of two rows. -/
def tagged : State :=
  demoBoth (fun h => { h with tags := [(3, some 7), (9, some 7), (1023, some 0x40)] })
    (fun c => { c with spillFirst := 10, spillRows := 2, ovfp := 0x1000 })
theorem witness_WaitsTagsSpills :
    tagged.clear [4, 1, 2] [] = true ∧ tagged.canTrap = true ∧ tagged.here.loadQ = [] ∧ tagged.here.spec = none ∧
    tagged.regionAt tagged.here.owner 0x40 = none ∧ (tagged.job 1).palletAt (aligned 0x40 8).toNat = none ∧
    tagged.readMem 0x40 8 = (tagged.here.sreg 0).toNat ∧ tagged.readMem 0x40 8 ≠ (tagged.here.sreg 2).toNat % 2 ^ 64 ∧
    (tagged.hold 0).tags.get none 3 = some ((tagged.here.sreg 2).setWidth 54) ∧
    (∀ j, j < 3 → (tagged.hold 0).tags.get none j ≠ some ((tagged.here.sreg 2).setWidth 54)) ∧
    (tagged.hold 0).tags.get none 1023 = some ((tagged.here.sreg 1).setWidth 54) ∧ (31 : Nat) < 16 * tagged.here.spillRows ∧
    16 * tagged.here.spillRows ≤ 32 ∧ tagged.place 0x40 = .hbm ∧ tagged.snoopingRange 0x40 8 = false ∧
    tagged.retired 0x40 = false ∧ tagged.poisonedRange 0x40 8 = false ∧ tagged.here.owes 0x40 0x40 8 = false ∧ (tagged.hold 0).phaseClash 11 true = false ∧ (tagged.row 0 11).poison = false ∧
    tagged.regionAt tagged.here.owner 0x1000 = none := by decide
theorem witness_WaitsTagsSpills_places :
    places (tagged.globalAt tagged.focus 0x40 8 .read true) 0x40 tagged = true ∧
    places (tagged.globalAt tagged.focus 0x1000 8 .write false) 0x1000 tagged = true ∧
    places (tagged.globalAt tagged.focus 0x1000 8 .read false) 0x1000 tagged = true := by decide
/-- The host has answered the read of its memory that a WAITA makes with a fault. -/
theorem witness_WaitsTagsSpills_answer :
    let s : State := { (mapped ⟨1, 0, 30, hostAddr / 2 ^ 30 * 2 ^ 30, true, true, true, 1⟩) with
      foreign := [some 35], hostUp := true }
    places (s.globalAt s.focus 0x1000 8 .read true) hostAddr s = true ∧ s.regionAt s.here.owner 0x1000 = none ∧
    s.unsent 1 hostAddr = false ∧ s.blockBusy hostAddr = false ∧ s.poisonedRange hostAddr 8 = false ∧ s.answers hostAddr 35 = true ∧ s.canTrap = true ∧ s.clear [3, 1] [] = true ∧
    s.here.owes 0x1000 hostAddr 8 = false ∧ ((queued [] [aStore 0x40 .plain]).updCtx ⟨0, 0⟩ (fun c => { c with seen := 1 })).here.owes
      0x40 0x40 8 = true := by decide
/-- No entry holds the tag of s3: proved for every entry at once. -/
theorem witness_WaitsTagsSpills_absent :
    (tagged.hold 0).tags.all (fun x => decide (x.2 ≠ some ((tagged.here.sreg 3).setWidth 54))) = true := by decide
/-- A row that an active copy declares. -/
theorem witness_WaitsTagsSpills_phase :
    let c : CCmd := { (demo.here.copyCommand 0 0 (parseCopy []) none 0 0 none) with desc := { (parseCopy []) with wr := ⟨[(10, 11)]⟩ } }
    let s := tagged.updHold 0 (fun h => { h with copies := [c] })
    (s.hold 0).phaseClash 10 true = true ∧ s.canTrap = true ∧ s.clear [4] [] = true := by decide

theorem witness_QueueAnswers :
    let w : Who := ⟨0, 0⟩
    let r : Remote := { load := true, v := 3, home := 2, row := 9, data := 0, bytes := 0, ord := 0 }
    (demo.place hostAddr = .host ∧ demo.place remoteAddr = .remote) ∧
    ((queued [] [aStore remoteAddr .plain]).ctx w).storeReady (aStore remoteAddr .plain) = true ∧
    ((queued [] [aStore hostAddr .plain]).ctx w).heldStore = none ∧
    ((queued [aLoad hostAddr .plain] []).ctx w).loadReady (aLoad hostAddr .plain) = true ∧
    (demo.job 1).palletAt 0x40 = none ∧ ({ demo with hostLines := [1] } : State).snoopingRange 0x40 8 = true ∧
    ({ demo with hostUp := true } : State).sec.hmode = false ∧ demo.sec.diesStopped = false ∧
    ({ demo with sec := { diesStopped := true } } : State).sec.diesStopped = true ∧
    ((demoWith (fun c => { c with remoteQ := [r] })).ctx w).remoteQ = [r] ∧ r.v < demoCtx.allot ∧
    (demo.row 2 9).valid = true ∧ (demo.row 2 9).poison = false ∧ (demo.row 2 3000).valid = false ∧
    ((demo.updHold 2 (fun h => { h with fast := [(9, { poison := true })] })).row 2 9).poison = true := by decide
theorem witness_QueueAnswers_walk :
    walks ((tabled 0x3001F).walk 1 0x45) ⟨1, 0, 16, 0x30000, true, true, true, 1⟩ 3 = true ∧
    ((tabled 0x3001F).cluster 0).tlb = [] ∧ (tabled 0x3001F).jobRuns 0 1 = true ∧
    walkFails ((tabled 0x3001F).walk 1 0x80000000) 19 = true := by decide

/-- Flag 4 bound to an event that holds, and flag 5 to one that does not, in a log mode. -/
def watching (m : BitVec 2) (left : BitVec 24) : State :=
  { demoWith (fun c => { c with binds := [(4, some (3, 0)), (5, some (5, 0))], waiting := true, logMode := m, logLeft := left
                                logPtr := 0x4000 })
    with mem := Memory.writeList [] 0x4000 (toBytes 8 (4 * 256 + 3) ++ toBytes 8 3) }
theorem witness_Observers :
    let s := watching 1 3
    s.here.binds.get none 4 = some (3, 0) ∧ s.here.resident = true ∧ s.here.stopped = false ∧ s.here.incoming = none ∧ s.here.inTrap = false ∧ s.here.flag 4 = false ∧
    s.eventHolds s.focus 3 0 = true ∧ s.eventHolds s.focus 5 0 = false ∧ s.here.logMode = 1 ∧ s.here.logLeft ≠ 0 ∧
    (watching 0 3).here.logMode = 0 ∧ demo.clear [4] [] = true ∧ demo.here.logMode = 0 ∧ demo.plain = true ∧
    (1 : Nat) ≠ demo.here.half ∧ (demo.here.halves.get {} 1).claim = none ∧ demo.canTrap = true ∧
    (watching 2 0).here.logMode = 2 ∧ (watching 2 0).here.logLeft = 0 ∧ (watching 2 3).here.logLeft ≠ 0 := by decide
theorem witness_Observers_record :
    (match (watching 2 3).fetchBytes 0 (watching 2 3).here.owner false 0x4000 16 .read with
     | .ok x => decide ((logRec x.1).kind = 3) && decide ((logRec x.1).step = 0) && decide ((logRec x.1).a = 4) &&
         decide ((logRec x.1).data % 256 = 3)
     | .error _ => false) = true := by decide
/-- The bundle of demo holds one word, in one slot. -/
def oneWord (i : Instr) (k : Nat) (s : State) : State :=
  s.updCtx ⟨0, 0⟩ (fun c => { c with halves := c.halves.put 0 { c.execHalf with
    bundles := [0, 0, BitVec.ofNat 256 (((encode i).getD 0).toNat * 2 ^ (32 * k))] } })
theorem witness_Observers_answer :
    let s := oneWord (.vquery 3 2) 3 demo
    s.here.gang = none ∧ s.offerable s.focus = true ∧ s.coreOff 0 = false ∧ homeSlot (.vquery 3 2) = some 3 ∧
    Instr.wf (.vquery 3 2) = true ∧ s.here.bundle.toNat = ((encode (.vquery 3 2)).getD 0).toNat * 2 ^ 96 := by decide

theorem witness_VectorFloatResults :
    demo.can 0 [] [15, 0, 1] = true ∧ (2 : BitVec 4).toNat ≤ 2 ∧ isCvt 7 6 = true ∧ isCvt 0 1 = true := by decide
theorem witness_VectorIntegerResults :
    demo.can 1 [] [15, 0, 1] = true ∧ 3 ≤ (3 : BitVec 4).toNat ∧ (8 : BitVec 4).toNat ≤ 8 ∧ (15 : BitVec 6).toNat < laneWidth 3 ∧
    (63 : BitVec 6).toNat < laneWidth 8 := by decide
theorem witness_VectorMoves :
    demo.can 0 [] [15, 0, 1] = true ∧ (8 : BitVec 4).toNat ≤ 8 ∧ (63 : BitVec 6).toNat < 1024 / laneWidth 1 ∧
    (6 : BitVec 3).toNat ≤ 6 ∧ 2 ^ (6 : BitVec 3).toNat ≤ laneCount 1 ∧ 2 ^ (4 : BitVec 3).toNat ≤ laneCount 8 := by decide
theorem witness_MaskStack :
    let full := demoWith (fun c => { c with mask := List.replicate 16 1 })
    demo.can 0 [] [0, 1] = true ∧ isLaneCond 11 0 = true ∧ isLaneCond 7 8 = true ∧ demo.here.mask.length = 1 ∧
    full.can 0 [] [0, 1] = true ∧ full.canTrap = true ∧ 16 ≤ full.here.mask.length ∧ demo.canTrap = true := by decide
theorem witness_Draws :
    demo.can 0 [9] [2, 3] = true ∧ (2 : BitVec 4).toNat ≤ 2 ∧ ((8 : BitVec 4).toNat = 7 ∨ (8 : BitVec 4).toNat = 8) := by decide
/-- Bounds of 1 and 2 with a policy; lane 1 of v1 holds 3, so it violates them. -/
def bounded (pol : BitVec 2) (mask : Word) : State :=
  demoBoth (fun h => { h with bounds := [(3, { low := 0x3F800000, high := 0x40000000, count := 2, pol := pol })] })
    (fun c => { c with vregs := [(1, 0x404000003F800000)], mask := [mask] })
theorem witness_Bounds :
    let bad (s : State) : List Nat := (List.range 32).filter (fun j => s.here.top.getLsbD j &&
      violates (fp32.read 0x3F800000) (fp32.read 0x40000000) (laneFV 0 (lane 32 (s.here.vreg 1) j)))
    (bounded 0 3).can 0 [] [2, 1] = true ∧ (bounded 1 3).can 0 [] [2, 1] = true ∧ (4 : BitVec 4).toNat ≤ 4 ∧
    bad (bounded 2 3) = [1] ∧ bad (bounded 2 1) = [] ∧ (bounded 2 3).canTrap = true ∧ (bounded 2 1).can 0 [] [2, 1] = true ∧
    after (.chkb 0 2 1 3 0) (bounded 1 3) (fun x => decide (lane 32 ((x.here.commitDue 99).vreg 2) 1 = 0x40000000)) = true := by
  decide

/-- The last bundle of the segment, with a next segment. -/
def atEnd (n : Word) : State :=
  demoWith (fun c => { c with index := 7, halves := c.halves.put 0 { valid := true, addr := 0x100, next := n, count := 8 } })
theorem witness_Segments :
    let s := demoWith (fun c => { c with sregs := c.sregs.put 4 0x1010 })
    let armed := demoWith (fun c => { c with armed := some (1, 9) })
    s.alive = true ∧ s.here.freeS 4 = true ∧ s.here.flag 0 ≠ (0 : BitVec 1).getLsbD 0 ∧ s.here.pend = [] ∧
    s.here.sreg 4 >>> 5 ≠ 0 ∧ s.here.otherHalf.valid = true ∧ s.here.otherHalf.addr = segmentBase (s.here.sreg 4) ∧
    s.here.otherHalf.claim = none ∧ s.here.otherHalf.image = [] ∧ armed.here.armed = some (1, 9) ∧ (1 : Nat) = 1 - armed.here.half ∧
    armed.alive = true ∧ (armed.here.sreg 0) >>> 5 = 0 ∧ demo.here.armed = none ∧ demo.canTrap = true := by decide
theorem witness_Segments_end :
    (atEnd 0x1000).alive = true ∧ (atEnd 0x1000).here.index + 1 = (atEnd 0x1000).here.execHalf.count ∧
    (atEnd 0x1000).here.endingCourses 7 = [] ∧ (atEnd 0x1000).here.execHalf.next >>> 5 ≠ 0 ∧
    (atEnd 0x1000).here.otherHalf.addr = segmentBase 0x1000 ∧ (atEnd 0).here.execHalf.next = 0 ∧ (atEnd 0).canTrap = true := by
  decide

/-- In the handler, with the interrupted segment in the other half. -/
def handling : State :=
  demoWith (fun c => { c with priv := true, inTrap := true, tpc := tpcWord 0x2000 0 7, step := 9, handlerStep := 3
                              halves := c.halves.put 1 { valid := true, addr := 0x2000, count := 8 } })
theorem witness_Traps :
    demo.plain = true ∧ demo.canTrap = true ∧ demo.here.inTrap = false ∧ handling.alive = true ∧ handling.plain = true ∧
    handling.here.priv = true ∧ handling.here.pend = [] ∧ handling.here.loadQ = [] ∧ handling.here.remoteQ = [] ∧
    BitVec.ofNat 64 (handling.here.tpc.toNat / 2 ^ 10 % 2 ^ 51 * 32) = handling.here.otherHalf.addr ∧
    handling.here.otherHalf.addr ≠ 0 ∧ handling.here.tpc.toNat % 2 ^ 10 < handling.here.otherHalf.count ∧
    (handling.updCtx ⟨0, 0⟩ (fun c => { c with loadQ := [aLoad 0x40 .plain] })).plain = true ∧
    homeSlot (.cmp 0 1 15 1 2) = some 1 ∧ Instr.wf (.cmp 0 1 15 1 2) = false ∧ privSys.contains 0x204 = true := by decide
/-- The trap entry of an illegal word, of a privileged form, and of TRAP. -/
theorem test_trap_entries :
    demo.traps (.cmp 0 1 15 1 2) { cause := 24, slot := 1 } ∧ demo.traps (.srr 1 0x110) { cause := 25, slot := 0 } :=
  ⟨⟨_, rfl, by decide, by decide⟩, ⟨_, rfl, by decide, by decide⟩⟩
theorem test_trap_and_return :
    after (.trap 5) demo (fun x => decide (x.here.cause = 0x0805002F) && x.here.priv && decide (x.here.index = 0)) = true ∧
    after .eret handling (fun x => !x.here.priv && decide (x.here.index = 7)) = true := by decide

theorem witness_SystemRegisters :
    let p := demoWith (fun c => { c with priv := true })
    let armed := demoWith (fun c => { c with sregs := (4, 0x8000000000000203) :: c.sregs })
    demo.clear [2] [] = true ∧ userSys.contains 0x001 = true ∧ userSys.contains 0x103 = true ∧ privSys.contains 0x204 = true ∧
    p.here.priv = true ∧ p.clear [2] [] = true ∧ demo.here.logMode = 0 ∧ demo.mdrawBusy demo.focus = false ∧
    (demo.here.sreg 2).getLsbD 63 = false ∧ (armed.here.sreg 4).getLsbD 63 = true ∧ armed.clear [4] [] = true ∧
    (armed.here.sreg 4).toNat / 2 ^ 9 % 2 ≠ armed.here.half ∧ (armed.here.halves.get {} 1).claim = none ∧
    demo.groupOwned 0 (1 % 512) = true ∧ demo.groupOwned 0 4 = false ∧ (demo.hold 0).groupDeclared 1 = false := by decide
/-- A matrix command of the context is queued. -/
theorem witness_SystemRegisters_busy :
    let s := stocked.updHold 0 (fun h => { h with matrix := { queue := [.cmd (stocked.here.matrixCommand 0 3)] } })
    s.mdrawBusy s.focus = true ∧ s.clear [2] [] = true := by decide

/-- Two launch records in memory, for contexts 2 and 3 of core 0. -/
def aRecord (slot core : Nat) : List Byte :=
  padTo 128 (toBytes 8 0x100 ++ toBytes 8 0xABCD ++ toBytes 16 0x55 ++ toBytes 8 0x66 ++ toBytes 16 0 ++
    toBytes 8 (2 ^ core + slot * 2 ^ 56 + 3 * 2 ^ 46))
def launching : State :=
  { demoWith (fun c => { c with sregs := [(4, 0x4000), (5, 0x4080), (6, 2 ^ 63), (7, 1)], pairs := [⟨0, 7, [8], [9]⟩] })
    with mem := Memory.writeList (Memory.writeList [] 0x4000 (aRecord 2 0)) 0x4080 (aRecord 3 0) }
theorem witness_Tasks :
    let c := launching.here
    launching.clear [8, 4, 5] [] = true ∧ launching.clear [6, 7] [] = true ∧ c.spec = none ∧ c.pairs.length < 8 ∧
    (match launching.readLaunch launching.focus 0x4000 with
     | .good l t => decide (l = aRecord 2 0) && t.queuesTake [l, l] | _ => false) = true ∧
    (match launching.readLaunch launching.focus 0x4080 with | .good l t => decide (l = aRecord 3 0) && t.queuesTake [l] | _ => false) = true ∧
    (c.sreg 6).getLsbD 63 = true ∧ (c.sreg 6).toNat / 2 ^ 32 % 2 ^ 31 = 0 ∧ (c.sreg 7).toNat ≤ 1 ∧
    c.pairs.find? (fun q => decide (q.index = (c.sreg 6).setWidth 32)) = some ⟨0, 7, [8], [9]⟩ ∧ c.task ∉ ([8] ++ [9] : List Nat) ∧
    c.ringless = none ∧ c.heldStore = none ∧ launching.commandsLeft launching.focus = false ∧ c.loadQ = [] ∧ c.storeQ = [] ∧
    c.remoteQ = [] ∧ launching.lendsBeyond launching.focus [] = false ∧ (launching.hold 0).restoring = false ∧
    (queued [aLoad 0x40 .plain] []).here.loadQ ≠ [] ∧ speculative.here.spec ≠ none ∧ speculative.canTrap = true := by decide
/-- 13 R267, 11 R237: a store elsewhere may stay queued behind a SPAWN; one into the record holds it up. -/
theorem test_spawn_leaves_store :
    let s (a : Nat) : State := launching.updCtx ⟨0, 0⟩ (fun c => { c with storeQ := [aStore a .plain], order := 1 })
    (match (s 0x40).readLaunch launching.focus 0x4000 with
     | .good l t => decide (l = aRecord 2 0) && decide (t.here.storeQ.length = 1) && t.here.owes 0x40 0x40 8 | _ => false) = true ∧
    (match (s 0x4008).readLaunch launching.focus 0x4000 with | .wait => true | _ => false) = true := by decide
/-- EXIT with the cause of a ringless copy, and of a refused store. -/
theorem witness_Tasks_held :
    let r := demoWith (fun c => { c with ringless := some ⟨19, none, 0x40⟩ })
    r.clear [] [] = true ∧ r.canTrap = true ∧ r.commandsLeft r.focus = false ∧ r.here.ringless = some ⟨19, none, 0x40⟩ ∧
    holding.commandsLeft holding.focus = false ∧ holding.here.ringless = none ∧ holding.here.loadQ = [] ∧
    (holding.hold 0).restoring = false ∧ (∀ p ∈ launching.here.pairs, launching.here.task ∉ p.a ++ p.b) ∧
    launching.here.pairs ≠ [] := by decide
/-- A bond of core 0 that is lent to another context. -/
def lender : State :=
  demoBoth (fun h => { h with bonds := [{ id := 4, first := 40, count := 2, borrowers := [⟨1, 0⟩] }] })
    (fun c => { c with bonds := [(1, { st := .lent, home := 0, bond := 4 })] })
theorem witness_Tasks_lender :
    lender.clear [3, 4, 5] [] = true ∧ lender.lendsBeyond lender.focus [lender.focus] = true ∧ lender.here.loadQ = [] ∧
    lender.commandsLeft lender.focus = false ∧ (lender.hold 0).restoring = false := by decide
/-- 13 R273; 16 R313: the store of EXIT's own bundle is performed, and then the slot becomes free. -/
theorem test_exit_with_store :
    let s := demo.issueBundle ⟨0, 0⟩ [(0, semExit), (3, semStrl 2 0 3 0 8)]
    (s.ctx ⟨0, 0⟩).resident = true ∧ (s.ctx ⟨0, 0⟩).exiting = true ∧ (s.ctx ⟨0, 0⟩).storeQ.length = 1 ∧
    (match exec (.storePerformed 0 0) s with
     | .next x => decide ((x.offer ⟨0, 0⟩).2 = .left) && !((x.offer ⟨0, 0⟩).1.ctx ⟨0, 0⟩).resident
     | _ => false) = true := by decide
/-- 08 R194: the members of a gang lend and borrow one bond, and one EXIT frees both. -/
theorem test_exit_gang :
    let k : Gang := { lead := 0, members := [0, 1], skew := 0 }
    let s0 := (lender.updCtx ⟨0, 0⟩ (fun c => { c with gang := some k }))
    let s := s0.setCtx ⟨1, 0⟩ { s0.here with bonds := [(1, { st := .borrowed, home := 0, bond := 4 })] }
    let x := s.issueBundle ⟨0, 0⟩ [(0, semExit)]
    (x.ctx ⟨0, 0⟩).resident = false ∧ (x.ctx ⟨1, 0⟩).resident = false ∧ (x.hold 0).bonds = [] := by decide
theorem test_exit_frees : after .exit demo (fun x => !(x.ctx ⟨0, 0⟩).resident && decide (x.agenda = [.event (.launchBind 0)])) = true := by
  decide

/-- Rows with data, a ring and a pattern. -/
def rowed : State :=
  demoBoth (fun h => { h with fast := [(7, { data := 0x1234 }), (9, { data := 5, poison := true }), (21, { data := 0xABC })]
                              rings := [(5, { conf := true, first := 7, slots := 4, rows := 2, rp := 0, wp := 1, filled := 1, free := 3 })]
                              bonds := [{ id := 3, first := 20, count := 4 }, { id := 4, first := 30, count := 4 }], nextBond := 5 })
    (fun c => { c with rings := [(2, some 5)], bonds := [(2, ⟨.held, 0, 3⟩)]
                       gens := [(1, { set := true, base := 7, counts := [2, 3, 1, 1], strides := [2, -1, 0, 0], p := 5, wrap := true })]
                       sregs := [(1, 1), (2, 7), (3, 5000), (4, 0xFF00), (5, 1), (6, 2048), (8, 30), (9, 9)] })
def isHere (r : RowRes) (n : Nat) : Bool :=
  match r with
  | .here m => decide (m = n)
  | _ => false
theorem witness_Rows :
    let k := rowed.hold 0
    rowed.clear [2] [3] = true ∧ (4 : BitVec 5).toNat % 2 = 0 ∧ rowed.here.freeS 4 = true ∧ rowed.here.freeS 5 = true ∧
    rowed.here.ringOf 2 = some 5 ∧ (k.ring 5).first + (k.ring 5).rp % (k.ring 5).slots * (k.ring 5).rows + 0 = 7 ∧
    0 < (k.ring 5).filled ∧ 0 < (k.ring 5).free ∧ (1 : BitVec 8).toNat < (k.ring 5).rows ∧ (rowed.row 0 7).valid = true ∧
    (rowed.row 0 7).poison = false ∧ (rowed.here.gen 1).set = true ∧ (rowed.here.gen 1).p ≠ (rowed.here.gen 1).total ∧
    (rowed.here.gen 1).indirect = false ∧ ((ringed.hold 0).ring 5).filled = 1 ∧ rowed.canTrap = true ∧
    isHere (rowed.rowByNumber rowed.focus 7 false) 7 = true ∧ isHere (rowed.rowByNumber rowed.focus 2047 true) 2047 = true ∧
    isHere (rowed.rowByNumber rowed.focus (7 + genOffset [2, 3, 1, 1] [2, -1, 0, 0] 5) false) 7 = true ∧
    isHere (rowed.rowByBond rowed.focus 2 1 false) 21 = true ∧ isHere (rowed.rowByBond rowed.focus 2 1 true) 21 = true := by decide
/-- A row of each kind that R203 turns away: not the core's, another's bond, declared, invalid, poisoned. -/
theorem witness_Rows_checks :
    let c : CCmd := { (demo.here.copyCommand 0 0 (parseCopy []) none 0 0 none) with desc := { (parseCopy []) with wr := ⟨[(50, 50)]⟩ } }
    let s := rowed.updHold 0 (fun h => { h with copies := [c] })
    rowed.rowOk 0 5000 = false ∧ rowed.rowOk 0 30 = true ∧ rowed.rowRight rowed.focus 30 false = false ∧
    rowed.rowRight rowed.focus 30 true = false ∧ rowed.rowRight rowed.focus 9 false = true ∧ (rowed.row 0 9).poison = true ∧
    (rowed.row 0 9).valid = true ∧ rowed.rowOk 0 2048 = true ∧ (rowed.row 0 2048).valid = false ∧
    (rowed.hold 0).bondAt 2048 = none ∧ rowed.rowRight rowed.focus 2048 false = true ∧ (rowed.hold 0).phaseClash 2048 true = false ∧
    (s.hold 0).phaseClash 50 false = true ∧ (s.hold 0).phaseClash 50 true = true ∧ s.rowRight s.focus 50 false = true ∧
    s.canTrap = true ∧ s.clear [2] [3] = true := by decide
/-- 09: bytes 8 to 15 of row 5,000, which is invalid, from v3; the other bytes become zero. -/
theorem test_masked_store :
    let s := (demo.updPart 1 (fun p => { p with bulkCount := 64 })).updCtx ⟨0, 0⟩
      (fun c => { c with sregs := [(4, 0xFF00), (7, 4998)], vregs := [(3, allOnes)] })
    after (.vstrRow 3 7 4 2) s (fun x => decide (x.row 0 5000 = { valid := true, data := 0xFFFFFFFFFFFFFFFF0000000000000000 })) = true := by
  decide
/-- A ring with nothing filled and nothing free. -/
theorem witness_Rows_waits :
    let s := rowed.updHold 0 (fun h => { h with rings := [(5, { conf := true, first := 7, slots := 4, rows := 2 })] })
    s.clear [2] [3] = true ∧ s.here.ringOf 2 = some 5 ∧ ((s.hold 0).ring 5).filled = 0 ∧ ((s.hold 0).ring 5).free = 0 ∧
    (1 : BitVec 8).toNat < ((s.hold 0).ring 5).rows := by decide

theorem witness_Rings :
    let d : Word := 0x8000000000000000 + 9 * 2 ^ 56 + 2 * 2 ^ 40 + 3 * 2 ^ 32 + 40
    let h := rowed.hold 0
    rowed.clear [2] [] = true ∧ d &&& 0x40FF0000FFFF0000#64 = 0 ∧ d.getLsbD 63 = true ∧ rowed.here.ringOf 4 = none ∧
    (h.ring 9).conf = false ∧ rowed.rowOk 0 (40 + 4 * 3 - 1) = true ∧ h.meetsBond 40 12 = false ∧ h.meetsRing 40 12 = false ∧
    h.meetsCarve 40 12 = false ∧ rowed.here.ringOf 2 = some 5 ∧ h.handleCaptured 0 2 = false ∧ (h.ring 5).filled = 1 ∧
    (h.ring 5).free = 3 ∧ (h.ring 5).marks = [] ∧ rowed.canTrap = true ∧ (0 : Word).getLsbD 63 = false := by decide
theorem witness_Rings_patterns :
    (match parseGen (rowBytes (stocked.row 0 7).data) with | some x => decide (x.p = 0) | none => false) = true ∧
    stocked.here.sreg 2 = 7 ∧ stocked.clear [2] [] = true ∧ (stocked.row 0 7).poison = false ∧ stocked.canTrap = true ∧
    parseGen (rowBytes (stocked.row 0 21).data) = none ∧ (stocked.row 0 21).poison = false ∧ (2047 : Nat) < (rowed.here.sreg 6).toNat ∧
    rowed.canTrap = true := by decide

/-- Context 2 of core 1 is resident, and a transfer of bond 3 is on its way to its handle 5. -/
def giving (lend : Bool) : State :=
  { rowed.updHold 1 (fun h => { h with part := some 1, ctxs := [(2, demoCtx)] })
    with transfers := [⟨⟨1, 2⟩, 5, 0, 3, lend, some 1⟩] }
def handled (b : Handle) (borrowers : List Who) : State :=
  (rowed.updCtx ⟨0, 0⟩ (fun c => { c with bonds := [(2, b)] })).updHold 0
    (fun h => { h with bonds := [{ id := 3, first := 20, count := 4, borrowers := borrowers }] })
theorem witness_Bonds :
    let h := rowed.hold 0
    rowed.clear [1, 4] [] = true ∧ rowed.rowOk 0 (100 + 4 - 1) = true ∧ h.meetsBond 100 4 = false ∧ h.meetsRing 100 4 = false ∧
    h.meetsCarve 100 4 = false ∧ (rowed.here.handle 5).st = .empty ∧ h.bonds.length < 64 ∧ rowed.here.spec = none ∧
    (rowed.here.handle 2).st = .held ∧ (⟨0 + 4 % 16, 4 / 16 % 4⟩ : Who) ≠ rowed.focus ∧ rowed.bondBusy rowed.focus ⟨.held, 0, 3⟩ = false ∧
    ((List.range 16).filter (fun i => (4 : Word).getLsbD i)) = [2] ∧ rowed.canTrap = true ∧
    (handled ⟨.lent, 0, 3⟩ []).bondOf ⟨.lent, 0, 3⟩ = some { id := 3, first := 20, count := 4 } ∧
    (handled ⟨.lent, 0, 3⟩ []).bondCaptured rowed.focus 0 3 = false ∧ (handled ⟨.lent, 0, 3⟩ []).clear [1, 4] [] = true ∧
    (handled ⟨.lent, 0, 3⟩ [⟨2, 0⟩]).bondOf ⟨.lent, 0, 3⟩ = some { id := 3, first := 20, count := 4, borrowers := [⟨2, 0⟩] } ∧
    (handled ⟨.borrowed, 0, 3⟩ [⟨0, 0⟩]).bondCaptured rowed.focus 0 3 = false := by decide
theorem witness_Bonds_arrivals :
    (giving false).arrival ⟨1, 2⟩ 5 false = some ⟨⟨1, 2⟩, 5, 0, 3, false, some 1⟩ ∧
    (giving true).arrival ⟨1, 2⟩ 5 true = some ⟨⟨1, 2⟩, 5, 0, 3, true, some 1⟩ ∧
    (rowed.ctx ⟨1, 2⟩).resident = false ∧ ((rowed.ctx ⟨0, 0⟩).handle 2).st ≠ .empty := by decide

def command : MCmd := stocked.here.matrixCommand 0 3
/-- stocked with its matrix unit changed. -/
def unit (f : MUnit → MUnit) : State := stocked.updMatrix 0 f
theorem witness_MatrixCommands :
    let h := stocked.hold 0
    stocked.clear [9, 6, 7] [] = true ∧ stocked.here.holdsMatrix = true ∧ h.restoring = false ∧ h.tableWriter = false ∧
    h.matrixEntries = 0 ∧ (stocked.here.pCommit.get 0 5).getLsbD 4 = true ∧ stocked.here.ringOf 0 ≠ none ∧
    (∀ x ∈ command.rd.ranges ++ command.wr.ranges, stocked.rowOk 0 x.2 = true) ∧ h.clashRow command.rd command.wr = none ∧
    (fp32.read 0x3F800000).isNan = false ∧ (fp32.read 0x3F800000).cmp (fp32.read 0x40000000) ≠ 1 ∧
    (fp32.read 0x40000000).cmp (fp32.read 0x3F800000) = 1 ∧ (fp32.read 0x7FC00000).isNan = true ∧ stocked.canTrap = true ∧
    demo.here.holdsMatrix = false ∧ demo.canTrap = true ∧
    0 < ((unit (fun m => { m with queue := [.fmt 3 5 0] })).hold 0).matrixEntries := by decide
theorem witness_MatrixCommands_unit :
    let q := unit (fun m => { m with queue := [.cmd command], entries := [(3, 0x8000000000000FFF)] })
    let bad := unit (fun m => { m with queue := [.cmd command], entries := [(3, 0x8000000000001000)] })
    let e := unit (fun m => { m with run := some { cmd := command, pc := 9, ended := some (2, 7, 9) } })
    q.coreOff 0 = false ∧ (q.matrix 0).run = none ∧ (q.matrix 0).queue = [.cmd command] ∧ q.matrixHeldBack 0 command = false ∧
    ((q.matrix 0).entries.get 0 command.routine).getLsbD 63 = true ∧ ((q.matrix 0).entries.get 0 3).toNat % 2 ^ 63 < 4096 ∧
    ¬ ((bad.matrix 0).entries.get 0 command.routine).toNat % 2 ^ 63 < 4096 ∧
    (unit (fun m => { m with queue := [.fmt 3 5 0] }) |>.matrix 0).queue = [.fmt 3 5 0] ∧
    ((e.hold 0).ring command.ring).free ≠ 0 ∧ (e.hold 0).ringMapped command.ring = true := by decide

/-- A copy record of two levels in rows 10 and 11: three runs of 128 bytes from row 20 to row 30, or to memory. -/
def copyRecord (dst dspace stride : Nat) : List Byte :=
  padTo 128 (toBytes 8 20 ++ toBytes 8 dst ++ toBytes 1 1 ++ toBytes 1 dspace ++ toBytes 2 2 ++ toBytes 4 128 ++ toBytes 8 0 ++
    toBytes 8 (20 + 3 * 2 ^ 16) ++ toBytes 8 (30 + 3 * 2 ^ 16) ++ toBytes 4 0xAB) ++
  padTo 128 (toBytes 4 3 ++ toBytes 4 1 ++ toBytes 4 stride)
def copying : State :=
  demoBoth (fun h => { h with
      fast := [(10, { data := bytesRow ((copyRecord 30 1 1).take 128) }), (11, { data := bytesRow ((copyRecord 30 1 1).drop 128) }),
        (20, { data := 0x1234 }), (21, { data := 5 })]
      rings := [(1, { conf := true, first := 40, slots := 2, rows := 2, free := 2 })] })
    (fun c => { c with rings := [(0, some 1)], sregs := [(1, 10), (2, 5), (3, 2047)] })
theorem witness_CopyCommands :
    let r := parseCopy (copyRecord 30 1 1)
    copying.clear [1, 2, 0] [] = true ∧ isScope 3 = true ∧ (copying.here.sreg 1).toNat ≤ 2046 ∧
    isHere (copying.rowByNumber copying.focus 10 false) 10 = true ∧ isHere (copying.rowByNumber copying.focus 11 false) 11 = true ∧
    (copying.hold 0).clashRow r.rd r.wr = none ∧ (copying.hold 0).matrixCmds = [] ∧ (copying.hold 0).restoring = false ∧
    (copying.hold 0).copies.length < 256 ∧ copying.here.ringOf 0 = some 1 ∧ copying.canTrap = true ∧ 2046 < (copying.here.sreg 3).toNat ∧
    (copying.here.sreg 3).toNat ≤ 34815 ∧ copying.here.owner.boot = false ∧ r.counts = [3] ∧ r.tuples = 3 := by decide
/-- copying after its CPY: the command is active, and a second one clashes with it. -/
def pushed (dst dspace stride tuple run : Nat) : State :=
  let y := copying.here.copyCommand 0 0 { (parseCopy (copyRecord dst dspace stride)) with run := run } (some (0, 1)) 0 0 none
  copying.updHold 0 (fun h => { h with copies := [{ y with tuple := tuple }], nextUid := 1 })
theorem witness_CopyCommands_active :
    let r := parseCopy (copyRecord 30 1 1)
    (pushed 30 1 1 0 128).coreOff 0 = false ∧ ((pushed 30 1 1 0 128).core 0).gctlWait = [] ∧
    (match ((pushed 30 1 1 0 128).hold 0).clashRow r.rd r.wr with | some m => decide (m = 20 ∨ m = 30) | none => false) = true ∧
    (pushed 30 1 1 0 128).canTrap = true ∧
    (match (pushed 30 1 1 0 128).copy? 0 0 with
     | some c => decide (c.ended = none) && !((pushed 30 1 1 0 128).copyHeldBack 0 c) && !c.lateHere &&
         decide (c.moved = 0) &&
         decide (c.tuple = 0) && decide (c.refused = none) && decide (c.desc.level = 0) &&
         !c.desc.sind && !c.desc.dind && decide (c.desc.sspace = 1) && decide (c.desc.dspace = 1) && decide (c.desc.run = 128) &&
         decide (c.ring = some 1) && decide (c.deadline = 0)
     | none => false) = true ∧
    after (.copyTuple 0 0) (pushed 30 1 1 0 128) (fun x => decide ((x.row 0 30).data = 0x1234)) = true := by decide
theorem witness_CopyCommands_memory :
    (match (pushed 0x8000 0 8 1 8).copy? 0 0 with
     | some c => decide (c.desc.dspace = 0) && decide (c.desc.run = 8) && decide (c.ended = none) && !((pushed 0x8000 0 8 1 8).copyHeldBack 0 c) &&
         (match (pushed 0x8000 0 8 1 8).copyTranslate 0 c true 0x8008 .write with
          | .ok x => decide (x.1 = 0x8008)
          | .error _ => false) && !((pushed 0x8000 0 8 1 8).snoopingRange 0x8008 8) &&
         !((pushed 0x8000 0 8 1 8).retired 0x8008) && decide ((pushed 0x8000 0 8 1 8).place 0x8008 = .hbm) &&
         !((pushed 0x8000 0 8 1 8).palletHolds c.owner 0x8008)
     | none => false) = true ∧
    strideSum (tupleIndices [3] 1) [1] = 1 ∧ strideSum (tupleIndices [3] 1) [8] = 8 ∧
    after (.copyTuple 0 0) (pushed 0x8000 0 8 1 8) (fun x => decide (x.readMem 0x8008 8 = 5)) = true := by decide
/-- 11 R233: the context may still read what stood at the copy's destination, until it meets an element. -/
theorem test_copy_leaves_older :
    after (.copyTuple 0 0) (pushed 0x8000 0 8 1 8) (fun x =>
      decide (x.here.past 0x8008 8 = some (List.replicate 8 0)) && decide (x.here.meet.past 0x8008 8 = none)) = true := by decide
/-- The command has ended, or has a deadline. -/
theorem witness_CopyCommands_end :
    let y := copying.here.copyCommand 0 0 (parseCopy (copyRecord 30 1 1)) (some (0, 1)) 0 5 none
    let s := copying.updHold 0 (fun h => { h with copies := [{ y with ended := some (0, 0) }], nextUid := 1 })
    ((s.hold 0).ring 1).free ≠ 0 ∧ (((s.hold 0).copies.find? (fun x => decide (x.ring = some 1))).map (fun x => x.uid)) = some 0 ∧
    (s.hold 0).ringMapped 1 = true ∧ y.ring ≠ none ∧ y.deadline ≠ 0 ∧ (s.hold 0).halting = false := by decide

/-- Formats: plane mode of eight planes, and half mode. -/
def planeFormat : Word := (1 <<< 48) ||| (1 <<< 37) ||| (8 <<< 21)
def halfFormat : Word := (2 <<< 37) ||| (1 <<< 25) ||| (2 <<< 17)
/-- The matrix unit runs a command that has captured handle 2. -/
def runState : MRun :=
  { cmd := { command with p := [(0, 0x0000000700000009)], c := [3, 2, 1, 0, 0, 0], rings := [(2, some 1)], rd := ⟨[(0, 2047)]⟩, wr := ⟨[(100, 2047)]⟩ }
    w := [(1, 5), (2, 1), (3, 9), (4, 200)], pc := 77, fmt := some planeFormat }
def running (r : MRun) : State :=
  { (unit (fun m => { m with run := some r, formats := [(3, planeFormat), (2, 0)], t0 := { base := 4 } })).updHold 0
      (fun h => { h with rings := [(1, { conf := true, first := 40, slots := 4, rows := 2, rp := 0, wp := 3, filled := 3, free := 1 })] })
    with agenda := [.micro 0] }
theorem witness_Microwords :
    (running runState).running 0 runState [] ∧ runState.w.get 0 1 = 5 ∧ runState.w.get 0 2 = 1 ∧ runState.w.get 0 0 = 0 ∧
    (4095 : BitVec 24).toNat < 4096 ∧ fmtValid planeFormat = true ∧ fmtValid 0 = false ∧
    (((running runState).matrix 0).formats.get 0 ((runState.cmd.c.getD 0 0).toNat % 16)) = planeFormat ∧
    (((running runState).matrix 0).formats.get 0 ((runState.cmd.c.getD 1 0).toNat % 16)) = 0 ∧
    (running { runState with fmt := none }).running 0 { runState with fmt := none } [] ∧ runState.cmd.rings.get none 2 = some 1 ∧
    runState.cmd.rings.get none 3 = none ∧ (((running runState).hold 0).ring 1).marks = [] :=
  ⟨⟨rfl, rfl, rfl, rfl, by decide⟩, by decide, by decide, by decide, by decide, by decide, by decide, by decide, by decide,
    ⟨rfl, rfl, rfl, rfl, by decide⟩, by decide, by decide, by decide⟩
theorem test_microwords :
    after (.mloop 1 0x222) (running runState) (fun x => decide ((x.matrix 0).run = some { runState with w := runState.w.put 1 4, pc := 0x222 })) = true ∧
    after (.mradv 0 2 4) (running runState) (fun x => decide ((x.matrix 0).run = some { runState with ended := some (2, 8, 77) })) = true := by decide

/-- The rows that a load or a drain names, in t. -/
def rowsAt (e : Except Nat (Nat × Nat)) (g r : Nat) : Bool :=
  match e with
  | .ok x => decide (x.1 = g) && decide (x.2 = r)
  | .error _ => false
def bufferA : Buffer := ⟨planeFormat, 0, []⟩
def loaded : MRun := { runState with a := some bufferA, b0 := some ⟨planeFormat, 0, []⟩ }
theorem witness_MicrowordTiles :
    let t : State := { running runState with agenda := [] }
    (running runState).running 0 runState [] ∧ runState.fmt = some planeFormat ∧ isAddr 0 0 = true ∧ fmtHalf planeFormat = false ∧
    (runState.w.get 0 0).toNat < fmtAPlanes planeFormat ∧ fmtAPlanes planeFormat ≤ (runState.w.get 0 3).toNat ∧
    rowsAt (t.runRows 0 runState 0 1 0 0 (aRows planeFormat 0) false) 0 5 = true ∧
    causes (t.runRows 0 runState 0 1 0 0xFFFA (aRows planeFormat 0) false) 7 = true ∧
    rowsAt (t.runRows 0 runState 0 1 0 0 (List.range 33) false) 0 5 = true ∧
    rowsAt (t.runRows 0 runState 0 4 0 0 (List.range 512) true) 0 200 = true ∧ fmtBoundEn planeFormat = false :=
  ⟨⟨rfl, rfl, rfl, rfl, by decide⟩, by decide, by decide, by decide, by decide, by decide, by decide, by decide, by decide,
    by decide, by decide⟩
theorem witness_MicrowordTiles_steps :
    (running loaded).running 0 loaded [] ∧ loaded.a = some bufferA ∧ bufferA.fmt = planeFormat ∧
    ((running loaded).matrix 0).t0.halfMode = fmtHalf planeFormat ∧ fmtSparsity planeFormat = 0 ∧
    loaded.operandsOk planeFormat 0 = true ∧ loaded.operandsOk planeFormat 1 = false ∧
    fmtMinPlanes planeFormat ≤ (loaded.w.get 0 2).toNat ∧ (loaded.w.get 0 2).toNat ≤ fmtAPlanes planeFormat ∧
    fmtAPlanes planeFormat < (loaded.w.get 0 3).toNat ∧ fmtValid halfFormat = true ∧ fmtHalf halfFormat = true :=
  ⟨⟨rfl, rfl, rfl, rfl, by decide⟩, by decide, by decide, by decide, by decide, by decide, by decide, by decide, by decide,
    by decide, by decide, by decide⟩
/-- A format with a bound under policy trap that a cell of the tile violates. -/
theorem witness_MicrowordTiles_bound :
    let f : Word := 0x00043A4000800000
    let d : Drain := { cv := 2, fmt := f, bound := { low := 0x3F800000, high := 0x40000000, pol := 2 }, draw := fun _ => 0 }
    fmtValid f = true ∧ fmtBoundEn f = true ∧ fmtBound f = 3 ∧ d.bad { base := 0, cells := [[7]] } 0 0 = true := by decide
theorem witness_PlaneStepValue : (127 : Nat) < 128 ∧ fmtSparsity bufferA.fmt = 0 := by decide

theorem witness_CoreCycle :
    let s := oneWord (.addi 0 3 2 5) 1 demo
    let u := s.updCore 0 (fun c => { c with window := List.replicate 63 3072 })
    let t := oneWord (.trap 5) 0 demo
    let idle := demoWith (fun c => { c with stopped := true })
    s.coreOff 0 = false ∧ s.candidates 0 = [⟨0, 0⟩] ∧ (s.ctx ⟨0, 0⟩).gang = none ∧
    decide ((s.offer ⟨0, 0⟩).2 = .issued) = true ∧ (s.core 0).limited (s.bundleWeight ⟨0, 0⟩) = false ∧
    (u.core 0).limited (u.bundleWeight ⟨0, 0⟩) = true ∧ decide ((u.offer ⟨0, 0⟩).2 = .issued) = true ∧
    decide ((t.offer ⟨0, 0⟩).2 = .trapped ∨ (t.offer ⟨0, 0⟩).2 = .issued) = true ∧ idle.candidates 0 = [] ∧
    (let x := demoWith (fun c => { c with exiting := true })
     decide ((x.offer ⟨0, 0⟩).2 = .left) = true ∧ x.unfinished ⟨0, 0⟩ = false ∧ x.lendsBeyond ⟨0, 0⟩ [] = false ∧
       (x.ctx ⟨0, 0⟩).pairs = []) ∧
    (let x := oneWord (.oppt 3) 0 (demo.updCore 0 (fun c => { c with opBusy := true }))
     x.candidates 0 = [⟨0, 0⟩] ∧ (x.offer ⟨0, 0⟩).2 = .frozen) ∧ (demoWith (fun c => { c with waiting := true })).candidates 0 = [] ∧
    (let x := (queued [aLoad 0x40 .plain] []).updCtx ⟨0, 0⟩ (fun c => { c with exiting := true })
     x.unfinished ⟨0, 0⟩ = true ∧ (x.ctx ⟨0, 0⟩).resident = true ∧ (x.ctx ⟨0, 0⟩).gang = none) ∧
    ({ demo with sec := { diesStopped := true } } : State).coreOff 0 = true := by decide
/-- A word that is no instruction traps; two contexts of one core, one of which has used its quota. -/
theorem witness_CoreCycle_trap_and_quota :
    let s := (demoHold (fun h => { h with ctxs := h.ctxs.put 1 demoCtx })).updCore 0 (fun c => { c with used := [(0, 100000)] })
    decide (((oneWord .eret 0 demo).offer ⟨0, 0⟩).2 = .trapped) = true ∧ s.candidates 0 = [⟨0, 1⟩] ++ ⟨0, 0⟩ :: [] ∧
    (s.core 0).quotaLeft 1 = true ∧ (s.core 0).quotaLeft 0 = false := by decide
/-- Two gangs led from core 0, and one beside a context in none, which is offered the cycle after it. -/
theorem witness_CoreCycle_gangs :
    let k : Option Gang := some { lead := 0, members := [0], skew := 0 }
    let s (g : Option Gang) : State :=
      demoHold (fun h => { h with ctxs := [(0, { demoCtx with gang := g }), (1, { demoCtx with gang := k })] })
    (s k).candidates 0 = [] ++ [⟨0, 0⟩] ++ ⟨0, 1⟩ :: [] ∧ (s k).outOfQuota ⟨0, 0⟩ = (s k).outOfQuota ⟨0, 1⟩ ∧
    ((s k).ctx ⟨0, 1⟩).gang ≠ none ∧ (s none).candidates 0 = [⟨0, 1⟩, ⟨0, 0⟩] := by decide

def aLaunch : Launch :=
  { image := aRecord 2 0, prio := 0, cls := 1, key := 0x55, stream := 0x66, logMode := 0, member := 0, members := 1
    owner := { part := 1, job := 1 }, task := 9 }
/-- A segment of two bundles, by its header and body, at 0x4000. -/
def segmented : State :=
  { demo with mem := Memory.writeList [] 0x4000 (toBytes 4 0x47455351 ++ toBytes 2 2 ++ toBytes 2 0 ++ toBytes 8 0x900 ++
      toBytes 8 0 ++ toBytes 4 6 ++ toBytes 4 0 ++ ([1] ++ toBytes 4 0x24000000 ++ [0])) }
def segmentOk (e : Except ReadFault (Segment × State)) : Bool :=
  match e with
  | .ok x => x.1.image.isEmpty && decide (x.1.bundles.length = 2) && decide (x.1.next = 0x900)
  | .error _ => false
theorem witness_Launching :
    let s := demoHold (fun h => { h with queue := [{ aLaunch with cls := 2, task := 8, image := aRecord 3 0 }, aLaunch] })
    s.coreOff 0 = false ∧ s.selection 0 = some aLaunch ∧ aLaunch.gang = none ∧
    segmentOk (segmented.readSegment 0 segmented.here.owner false 0x4000) = true ∧
    (match demo.readSegment 0 demo.here.owner false 0x4000 with | .error e => decide (e.cause ≠ Cause.later) | .ok _ => false) = true := by decide
/-- A segment of one empty bundle whose image is one row, the last of the fast store. -/
theorem witness_Launching_image :
    let s : State := { demo with mem := Memory.writeList [] 0x4000 (toBytes 4 0x47455351 ++ toBytes 2 1 ++ toBytes 2 0 ++ toBytes 8 0 ++
      toBytes 4 64 ++ toBytes 2 2047 ++ toBytes 2 1 ++ toBytes 4 1 ++ toBytes 36 0 ++ toBytes 128 0xABC) }
    (match s.readSegment 0 s.here.owner false 0x4000 with
     | .ok x => decide (x.1.imageRow = 2047) && decide (x.1.image = [0xABC]) && !(x.2.imageClash ⟨0, 0⟩ (x.1.half 0x4000 false))
     | .error _ => false) = true := by decide
theorem witness_Launching_loads :
    let s := segmented.updCtx ⟨0, 0⟩ (fun c => { c with loading := true, record := padTo 128 (toBytes 8 0x4000) })
    let p := segmented.updCtx ⟨0, 0⟩ (fun c => { c with halves := [(0, { valid := true, addr := 0x100, next := 0x4000, count := 8 })] })
    let e := demo.updCtx ⟨0, 0⟩ (fun c => { c with loading := true, record := padTo 128 (toBytes 8 0x4000) })
    s.here.resident = true ∧ s.here.loading = true ∧ s.here.stopped = false ∧ s.coreOff 0 = false ∧ s.here.logMode = 0 ∧
    s.here.gang = none ∧ s.here.loadFault = none ∧ p.here.execHalf.last = false ∧ p.here.incoming = none ∧ fieldAt s.here.record 72 1 = 0 ∧ fieldAt s.here.record 88 2 = 0 ∧ recWord s.here.record 0 = 0x4000 ∧ e.canTrap = true ∧
    e.here.loading = true ∧ p.here.loading = false ∧ p.here.gang = none ∧ p.here.execHalf.next = 0x4000 ∧
    p.here.otherHalf.claim = none ∧ p.here.armed = none ∧ p.here.otherHalf.valid = false := by decide

/-- The record in the boot mailbox of core 0, for a slot and a core. -/
def mailbox (slot core : Nat) : State := demo.updCore 0 (fun c => { c with bootRec := (aRecord slot core).take 64 })
def doorOk (e : Except Nat (List Byte × Nat × Nat)) (l : List Byte) : Bool :=
  match e with
  | .ok x => decide (x.1 = l) && decide (x.2.1 = 1) && decide (x.2.2 = 1)
  | .error _ => false
theorem witness_Doorbells :
    (mailbox 1 0).doorbellJob 4 0 = none ∧ doorOk ((mailbox 1 0).doorbell 3 0 true) (aRecord 1 0) = true ∧
    causes ((mailbox 1 2).doorbell 3 0 true) 2 = true ∧ ((mailbox 1 0).hold 0).part = some 1 ∧ (mailbox 1 0).coreOff 0 = false ∧
    (mailbox 1 0).canBind 0 (aRecord 1 0) = true ∧ (mailbox 0 0).canBind 0 (aRecord 0 0) = false ∧
    doorOk ((mailbox 0 0).doorbell 3 0 true) (aRecord 0 0) = true ∧ doorOk ((mailbox 1 2).doorbell 3 0 false) (aRecord 1 2) = true ∧
    placeCores (aRecord 1 2) = [2] ∧ placeGang (aRecord 1 2) = false ∧ (mailbox 1 2).outCores 1 = [] ∧
    ((mailbox 1 2).partHold 1 2).queue.length < 32 ∧ causes ((mailbox 1 2).doorbell 4 0 false) 3 = true := by decide
theorem witness_Doorbells_full :
    let s := (mailbox 1 0).updHold 0 (fun h => { h with queue := List.replicate 32 aLaunch })
    32 ≤ (s.partHold 1 0).queue.length ∧ doorOk (s.doorbell 3 0 false) (aRecord 1 0) = true ∧ s.outCores 1 = [] := by decide

theorem witness_Invalidation :
    let s : State := { demo with invalidations := [{ job := 1, v := 0 }] }
    let f : State := { queued [aLoad 0x40 .plain] [] with invalidations := [{ job := 1, v := 0 }] }
    let d (x : State) : State := { x with invalidations := [{ job := 1, v := 0, dropped := true, waits := [(5, 0, true)] }] }
    let full (n : Nat) : State := { demo with invalidations := List.replicate n { job := 1, v := 0 } }
    s.invalidations = [{ job := 1, v := 0 }] ∧ (s.accessesIn 1 (invalRange 0)).any s.inFlight = false ∧
    (f.accessesIn 1 (invalRange 0)).any f.inFlight = true ∧ demo.invalidations = [] ∧
    [(5, 0, true)].any (d f).inFlight = true ∧ [(5, 0, true)].any (d demo).inFlight = false ∧
    (full 64).invalBusy (.jobInval 1) = true ∧ (full 63).invalBusy (.jobInval 1) = false := by decide

/-- A descriptor of 128 bytes at 0x6000. -/
def described (d : List Byte) : State := { demo with mem := Memory.writeList [] 0x6000 (padTo 128 d) }
def regionDesc : List Byte :=
  padTo 128 (toBytes 8 0x20000000 ++ toBytes 8 65536 ++ toBytes 8 256 ++ toBytes 8 0x30000000 ++ toBytes 8 10)
def windowDesc : List Byte :=
  padTo 128 (toBytes 8 0x10000 ++ toBytes 4 4 ++ toBytes 1 0 ++ toBytes 1 3 ++ toBytes 2 7 ++ toBytes 8 0x20000 ++
    toBytes 8 0x30000 ++ toBytes 72 3)
def tierDesc : List Byte :=
  padTo 128 (toBytes 8 0 ++ toBytes 8 65536 ++ toBytes 8 (2 ^ 40 + 0x50000) ++ toBytes 8 0x200000 ++ toBytes 4 3 ++ toBytes 1 0)
theorem witness_Registrations :
    (described regionDesc).hasDescriptor 1 0x6000 = true ∧ (described regionDesc).readBytes 0x6000 128 = regionDesc ∧
    demo.inHbm 1 0x40000000 = false ∧ demo.inHbm 1 (0x3FFFFF81 + 127) = false ∧ demo.inHbm 1 (0x3FFFFF80 + 127) = true ∧
    ({ demo with hostLines := [0x6040 / 64] } : State).waitsDescriptor 1 0x6000 = true ∧
    ({ demo with later := [.dropRegion 1 0] } : State).waitsDescriptor 1 0x6000 = true ∧
    ({ demo with later := [.dropRegion 2 0] } : State).waitsDescriptor 1 0x6000 = false ∧
    demo.waitsDescriptor 1 0x6000 = false ∧ ({ demo with poison := [0x6040 / 64] } : State).poisonedRange 0x6000 128 = true ∧
    rangeOk 0x20000000 65536 = true ∧ (described regionDesc).walksWait 1 0x20000000 65536 = false ∧
    (described regionDesc).regionOk 1 regionDesc = true ∧ (described regionDesc).regionOk 1 (padTo 128 []) = false ∧
    ((described regionDesc).job 1).regions.length < 64 ∧ ((described regionDesc).job 1).meetsRegion 0x20000000 65536 = false ∧
    ((described regionDesc).job 1).meetsTiered 0x20000000 65536 = false ∧ (versioned 0 |>.job 1).meetsRegion 0 65536 = true ∧
    (described windowDesc).hasDescriptor 1 0x6000 = true ∧ (described windowDesc).readBytes 0x6000 128 = windowDesc ∧
    (described windowDesc).windowOk 1 (parseWindow 1 windowDesc) windowDesc = true ∧
    (described windowDesc).windowOk 1 (parseWindow 1 (padTo 128 [])) (padTo 128 []) = false ∧
    (described windowDesc).windowMeets 1 (parseWindow 1 windowDesc) = false ∧ ((described windowDesc).part 1).windows.length < 64 ∧
    ((demo.updPart 1 (fun p => { p with windows := [parseWindow 1 windowDesc] })).windowMeets 1 (parseWindow 1 windowDesc)) = true ∧
    (demo.updPart 1 (fun p => { p with windows := List.replicate 64 { parseWindow 1 windowDesc with base := 0x700000, wid := 9 } })).windowMeets 1
      (parseWindow 1 windowDesc) = false := by decide
/-- tabled with a descriptor beside its tables. -/
def tierTabled : State := { tabled 0xAB0000000003001F with mem := Memory.writeList (tabled 0xAB0000000003001F).mem 0x6000 tierDesc }
theorem witness_Registrations_tiers :
    tierTabled.hasDescriptor 1 0x6000 = true ∧ tierTabled.readBytes 0x6000 128 = tierDesc ∧ tierTabled.walksWait 1 0 65536 = false ∧
    ({ tierTabled with hostLines := [0x110000 / 64] } : State).walksWait 1 0 65536 = true ∧
    ({ tierTabled with hostLines := [0x110000 / 64] } : State).hasDescriptor 1 0x6000 = true ∧ rangeOk 0 65536 = true ∧ tierTabled.tieredOk 1 (parseTiered tierDesc) tierDesc = true ∧
    tierTabled.tieredMeets 1 (parseTiered tierDesc) = false ∧ (parseTiered tierDesc).size = 65536 ∧
    tierTabled.leafEntry 1 0 = some 0x130000 ∧ demo.tieredOk 1 (parseTiered (padTo 128 [])) (padTo 128 []) = false ∧
    (tierTabled.updJob 1 (fun j => { j with tiered := [parseTiered tierDesc] })).tieredMeets 1 (parseTiered tierDesc) = true := by decide
/-- Drops: with a task resident, and with none, of what is registered and of what is not. -/
theorem witness_Registrations_drops :
    let s := (described regionDesc).updCtx ⟨0, 0⟩ (fun c => { c with resident := false })
    (described regionDesc).jobBusy 1 = true ∧ s.jobBusy 1 = false ∧ s.hasDescriptor 1 0x6000 = true ∧ s.readBytes 0x6000 128 = regionDesc ∧
    fieldAt regionDesc 0 8 = 0x20000000 ∧ (∀ r ∈ (s.job 1).regions, r.base ≠ 0x20000000) ∧
    (∃ r ∈ [({ base := 0x20000000, size := 65536, span := 256, pool := 0x30000000, poolSize := 10 } : Region)], r.base = 0x20000000) := by
  decide

/-- The offset of a register in a block of the device's register space. -/
def regOffset (block r : Nat) : Nat := block * 2 ^ 24 + r
theorem witness_RegisterWrites :
    regAt (regOffset 1 0x1008) = some (.partClusters 1) ∧ regAt (regOffset 1 0x2010) = some (.partHbm 2) ∧
    regAt (regOffset 1 0x2000) = some (.partCtl 2) ∧ regAt (regOffset 2 0x1010) = some (.jobInval 1) ∧
    regAt (regOffset 8 (0x110 * 8)) = some (.sys 0 0x110) ∧ demo.regRefusal (.host 0) (.partClusters 1) true = none ∧
    demo.regRefusal (.host 0) (.partHbm 2) true = none ∧ demo.regRefusal (.host 0) (.partCtl 2) true = none ∧
    demo.regRefusal (.host 0) (.jobInval 1) true = none ∧ demo.regRefusal (.host 0) (.sys 0 0x110) true = none ∧
    (demo.regRefusal (.context 2) (.partClusters 1) true).isSome = true ∧ (demo.part 1).en = true ∧ (demo.part 2).en = false ∧
    (0x100 : BitVec 64).getLsbD 8 = true := by decide
theorem witness_RegisterWrites_jobs :
    let off := demo.updJob 1 (fun j => { j with en := false })
    let idle := off.updCtx ⟨0, 0⟩ (fun c => { c with resident := false })
    let v : BitVec 64 := 0x1050101
    let set (s : State) : State := s.updJob 1 (fun y => { y with fv := v.getLsbD 24, func := (v >>> 16).setWidth 8, en := v.getLsbD 8, part := v.setWidth 6 })
    (demo.job 1).en = true ∧ off.jobBusy 1 = true ∧ (idle.job 1).en = false ∧ idle.jobBusy 1 = false ∧ (set idle).funcClash = false ∧
    (set (idle.updJob 2 (fun _ => { en := true, fv := true, func := 5, part := 1 }))).funcClash = true ∧
    (demo.exporter { v := true, w := true, tag := 7, count := 1, base := 0 }).isSome = true ∧
    demo.exporter { v := true, w := true, tag := 7, count := 1, base := 5 } = none ∧ demo.sec.erased = false ∧
    demo.runInHbm 1 0x4000 4096 = true ∧ demo.runInHbm 1 0x40000000 4096 = false ∧
    ({ demo with sec := { erased := true } } : State).sec.erased = true ∧ demo.snoopingRange 0x4000 2304 = false ∧
    ({ demo with hostLines := [(0x4000 + 2303) / 64] } : State).snoopingRange 0x4000 2304 = true ∧
    ({ demo with poison := [0x4000 / 64] } : State).poisonedRange 0x4000 64 = true ∧ demo.retired 0x4000 = false ∧
    ({ demo with later := [.attestationRequest 1 0x4000] } : State).later.any (fun x => decide (attestingJob x = some 1)) = true := by
  decide

/-- Stage 5, with partition 2 configured on cluster 1 and disabled. -/
def configured : State :=
  ({ demo with sec := { stage := 5 } } : State).updPart 2 (fun p =>
    { p with clusters := 2, hbmBase := 1, hbmCount := 1, bulkBase := 4, bulkCount := 4
             budgets := [(0, 1), (1, 1), (2, 1), (3, 1), (4, 1), (5, 1), (6, 1)] })
theorem witness_PartitionEnabling :
    let shared := configured.updPart 2 (fun p => { p with clusters := 1 })
    (configured.part 2).en = false ∧ configured.canEnable 2 = true ∧ configured.mayRun 2 = true ∧ 16 ∈ configured.partCores 2 ∧
    0 ∉ configured.partCores 2 ∧ (configured.hold 16).part = none ∧
    (configured.updPart 2 (fun p => { p with hbmBase := 0 })).canEnable 2 = false ∧ shared.canEnable 2 = true ∧
    shared.mayRun 2 = false ∧ (shared.hold 0).part ≠ none ∧ (demo.part 1).en = true ∧ demo.partTasks 1 ≠ [] ∧
    (demoWith (fun c => { c with resident := false })).partTasks 1 = [] ∧ 0 ∈ demo.partCores 1 ∧ (demo.core 0).out.part ≠ some 1 := by decide
/-- The other holder of the shared cores is swapped out, so the enabled partition runs on them. -/
theorem witness_PartitionEnabling_swapped :
    let s := (configured.updPart 2 (fun p => { p with clusters := 1 })).updPart 1 (fun p => { p with state := 2 })
    s.canEnable 2 = true ∧ s.mayRun 2 = true ∧ (s.hold 0).part ≠ none := by decide

/-- Partition 1 is being swapped out; its cores but core 0 have halted. -/
def swapping (rest : Bool) : State :=
  (List.range 16).foldl (fun x k => x.updHold k (fun h => { h with part := some 1, halting := true, halted := rest && decide (k ≠ 0) }))
    (demo.updPart 1 (fun p => { p with cmdBusy := true }))
theorem witness_Swapping :
    (demo.part 1).state = 1 ∧ (demo.updPart 1 (fun p => { p with state := 2 })).part 1 ≠ demo.part 1 ∧
    ((swapping true).hold 0).part = some 1 ∧ ((swapping true).hold 0).halting = true ∧ ((swapping true).hold 0).halted = false ∧
    ((swapping true).part 1).cmdBusy = true ∧ (swapping true).quiet 0 = true ∧ ((swapping true).core 0).out.part ≠ some 1 ∧
    (demo.updHold 3 (fun h => { h with ctxs := [(0, { demoCtx with remoteQ := [⟨0, 9, true, 3, 0, 0, 0⟩] })] })).quiet 0 = false ∧
    (queued [aLoad 0x40 .plain] []).quiet 0 = false ∧ demo.runInHbm 1 (0x40000000 - 524288) 524288 = true ∧
    demo.runInHbm 1 (0x40000000 - 524287) 524288 = false ∧
    (∀ k ∈ (swapping true).partCores 1, k ≠ 0 → ((swapping true).partHold 1 k).halted = true) ∧
    (∃ k ∈ (swapping false).partCores 1, k ≠ 0 ∧ ((swapping false).partHold 1 k).halted = false) ∧
    ((swapping true).core 0).out.part = none ∧
    (((swapping true).updCore 0 (fun c => { c with out := { part := some 5 } })).core 0).out.part ≠ none := by decide

/-- An event ring of four elements at 0x8000. -/
def watched (wp : BitVec 32) : State :=
  demo.updPart 1 (fun p => { p with evBase := 0x8000, evEn := true, evSlots := 4, progmon := 9, evWp := wp })
theorem witness_JobLoss :
    let l : Loss := { job := 1, record := List.replicate 256 53, progress := [] }
    let s := (watched 0).updPart 1 (fun p => { p with losses := [l] })
    let h := demoWith (fun c => { c with priv := true, inTrap := true, cause := 0x0702001D })
    (demo.part 1).en = true ∧ (demo.job 1).en = true ∧ (demo.job 1).part.toNat = 1 ∧ (demo.job 1).losing = false ∧
    demo.outCores 1 = [] ∧ (demo.job 2).en = false ∧ h.alive = true ∧ h.here.priv = true ∧
    h.here.owner = { boot := false, part := 1, job := 1 } ∧ (s.part 1).losses = [l] ∧ l.record.length = 256 ∧
    l.record.getD 1 0 = 53 ∧ (s.part 1).eventRoom = true ∧ ((watched 4).part 1).eventRoom = false ∧ ((watched 0).part 1).state = 1 ∧
    ((watched 0).part 1).progmon ≠ 0 ∧ ((watched 0).part 1).idleReported = false ∧ (demo.part 1).progmon = 0 := by decide
theorem witness_JobLoss_errors :
    let s := demo.updCore 0 (fun c => { c with out := { part := some 5, ctxs := [(3, { demoCtx with owner := { part := 5, job := 1 } })] } })
    ((s.core 0).out.ctxs.get {} 3).resident = true ∧ ((s.core 0).out.ctxs.get {} 3).owner.boot = false ∧ (demo.core 0).out.part = none ∧
    (demo.job 1).en = true ∧ (demo.job 2).en = false ∧ (demo.job 1).losing = false ∧ (demo.matrix 0).run = none ∧
    ((running runState).matrix 0).run = some runState ∧ demo.rowOk 0 9 = true ∧ (2 ^ 39 - 1 : Nat) < 2 ^ 39 ∧ (demo.ctx ⟨0, 0⟩).resident = true ∧ (demo.ctx ⟨0, 0⟩).owner.boot = false ∧
    (demo.hold 200).part = none ∧ demo.key 0x9040 / 64 ≠ demo.key (demo.physical 0x9001) / 64 := by decide

/-- tierTabled with its range registered, one pallet in a state, and a move requested. -/
def tiered (y : Pallet) (m : List MoveReq) : State :=
  (tierTabled.updJob 1 (fun j => { j with tiered := [{ parseTiered tierDesc with pallets := [(0, y)], clock := 5 }] })).updPart 1
    (fun p => { p with moves := m })
def palletIs (s : State) (st : PalletState) : Bool :=
  match (s.job 1).palletAt 77 with
  | some x => decide (x.2 = 0) && decide ((x.1.pallet 0).st = st)
  | none => false
theorem witness_Pallets :
    palletIs (tiered { st := .high, frame := 2 } []) .high = true ∧ palletIs (tiered { st := .movingUp, frame := 2 } []) .movingUp = true ∧
    palletIs (tiered {} []) .low = true ∧ palletIs (tiered { st := .movingDown, frame := 2 } []) .movingDown = true ∧
    ((tiered {} [⟨4, 1, 77, true, false⟩]).part 1).moves = [⟨4, 1, 77, true, false⟩] ∧ ((tiered {} []).part 1).moveCount = 0 ∧
    (tiered { st := .movingUp, frame := 2 } []).moveSnoops 1 77 0x220000 = false ∧
    ({ tiered { st := .movingUp, frame := 2 } [] with hostLines := [0x220040 / 64] } : State).moveSnoops 1 77 0x220000 = true ∧
    ({ parseTiered tierDesc with frames := 0 } : Tiered).freeFrame = none ∧ (parseTiered tierDesc).policy = 0 ∧
    ({ tiered {} [] with hostUp := false } : State).hostUp = false ∧ (parseTiered tierDesc).freeFrame = some 0 ∧
    (tiered {} []).hostUp = true ∧ (tiered {} []).poisonedRange 0x220000 65536 = false ∧ (tiered {} []).retired 0x220000 = false ∧
    ({ tiered {} [] with poison := [0x220040 / 64] } : State).poisonedRange 0x220000 65536 = true := by decide

/-- Three groups of core 0: one about to expire by age, one of a refresh class, one at its class threshold. -/
def ageing : State :=
  demo.updCore 0 (fun c => { c with groups := [(0, { age := 254, cls := 0 }), (1, { age := 3, cls := 1 }), (2, { age := 31, cls := 0 })] })
theorem witness_Ageing :
    (ageing.cluster 0).band ≠ 15 ∧ clusterOf 15 = 0 ∧ ageing.outOwns 0 2 = false ∧ ((ageing.core 0).groups.get {} 0).age ≤ 255 ∧
    ((ageing.hold 0).cls 0).2 = false ∧ ((ageing.hold 0).cls 0).1 ≤ min 255 (31 + 1) ∧ min 255 (254 + 1) = 255 ∧
    ¬ (((ageing.hold 0).cls 1).2 = false ∧ ((ageing.hold 0).cls 1).1 ≤ min 255 (3 + 1)) ∧ ageing.groupOwned 0 3 = true ∧
    (ageing.hold 0).groupDeclared 3 = false ∧ (62 : Nat) < 63 ∧
    ((ageing.setCluster 0 { ageing.cluster 0 with band := 15 }).cluster 0).band = 15 ∧
    ((ageing.updHold 0 (fun h => { h with refresh := some { group := 1, row := 63, ticks := 2 } })).hold 0).refresh =
      some { group := 1, row := 63, ticks := 2 } ∧ demo.sec.diesStopped = false ∧ (ageing.core 0).out.refresh = none ∧
    ((ageing.updCore 0 (fun c => { c with out := { c.out with refresh := some { group := 7, row := 62, ticks := 0 } } })).core 0).out.refresh =
      some { group := 7, row := 62, ticks := 0 } ∧ (∀ e ∈ (ageing.core 0).gctlWait, e.1 ≠ ageing.physGroup 0 3) ∧
    (3, none) ∈ ((ageing.updCore 0 (fun c => { c with gctlWait := [(3, none)] })).core 0).gctlWait ∧ ageing.physGroup 0 3 = 3 := by decide

theorem witness_Heat :
    let cool := (List.range 16).foldl (fun (x : State) g => x.updCore g (fun c => { c with opEff := 0, cur := { c.cur with opReq := 0 } })) demo
    let busy (e : BitVec 3) : State := demo.updCore 0 (fun c => { c with opBusy := true, opEff := e })
    (demo.cluster 0).band < bandOf 52000 ∧ bandOf 110001 = 15 ∧ 1000 * ((demo.cluster 0).hot.toNat : Int) < 100001 ∧
    0 < demo.maxPoint 0 ∧ demo.maxPoint 0 ≤ 7 ∧ cool.maxPoint 0 = 0 ∧ (cool.cluster 0).hotwait = false ∧ cool.runningOn 0 = some 1 ∧
    (94999 : Int) < 1000 * ((demo.cluster 0).hot.toNat : Int) - 5000 ∧
    ((demo.setCluster 0 { demo.cluster 0 with tcap := 3 }).cluster 0).tcap.toNat < 7 ∧ ((busy 5).core 0).opBusy = true ∧
    (busy 5).gangOn 0 = none ∧ ((busy 5).core 0).opEff.toNat = (busy 5).effectivePoint 0 ∧
    ((busy 3).core 0).opEff.toNat ≠ (busy 3).effectivePoint 0 ∧ (demo.core 0).opBusy = false := by decide

/-- Stage 5 has ended; the host's link is up. -/
def hosted : State :=
  { demo with hostUp := true, sec := { stage := 5, result := 1 }, mem := Memory.writeList [] 0x9000 [1, 2, 3, 4, 5, 6, 7, 8] }
theorem witness_HostAccesses :
    hosted.hostUp = true ∧ hosted.booted = true ∧ hosted.openRounds = [] ∧ hosted.hostHbm 3 0x9002 2 = true ∧ hosted.hostHbm 4 0x9002 2 = false ∧
    regOf 0x9002 2 = none ∧ hosted.retiredRun 0x9002 2 = false ∧ hosted.poisonedRange (hosted.physical 0x9000) 8 = false ∧
    ({ hosted with poison := [0x240] } : State).poisonedRange (hosted.physical 0x9000) 8 = true ∧
    regOf (2 ^ 41 + 4 * 2 ^ 24 + 0x48) 8 = some (.bootSt 0) ∧ hosted.hostReg 3 (.bootSt 0) false = true ∧
    hosted.hostReg 4 (.bootSt 0) false = false ∧ hosted.hostHbm 3 0x9004 4 = true ∧ 0x9004 % 4 = 0 ∧ 0x9001 % 8 ≠ 0 ∧
    ({ hosted with poison := [0x240] } : State).hostHbm 3 0x9000 4 = true ∧ hosted.invalBusy (.bootSt 0) = false ∧
    (∃ p ∈ hosted.parts, p.2.en = true ∧ p.2.holds 0x10000000 0x10000000 = true) ∧
    ({ hosted with hostLines := [7] } : State).hostLines.contains 7 = true ∧ (List.replicate 64 (3 : Byte)).length = 64 := by decide

/-- Links to other devices are up; export entry 1 and a window at this device. -/
def linked : State := { hosted with difEn := true, difUp := 4, exports := [(0, { v := true, w := true, tag := 7, count := 1, base := 0 })] }
theorem witness_Links :
    let s := linked.updPart 1 (fun p => { p with windows := [reduction] })
    let c := linked.updPart 1 (fun p => { p with windows := [{ reduction with closed := [(2, 3)] }] })
    let u : LinkUpdate := { affected := [1], round := 2, sent := [⟨⟨0, 0⟩, 5, 4, true⟩], rounds := [] }
    let w : State := { (demoWith (fun c => { c with loadQ := [{ aLoad remoteAddr .plain with ord := 4 }] })) with updates := [u] }
    linked.difEn = true ∧ linked.difUp ≠ 0 ∧ linked.exported 8 0x9000 4 false = false ∧ linked.exported 7 0x9000 4 false = true ∧
    linked.exported 7 0x9000 8 true = true ∧ linked.hostLines = [] ∧ linked.retiredRun 0x9000 8 = false ∧
    s.exports.any (fun z => s.exported z.2.tag (localOf reduction.base + 2 * reduction.width) reduction.width true) = true ∧
    ({ s with exports := [(0, { v := true, w := false, tag := 7, count := 1, base := 0 })] } : State).exports.any (fun z =>
      ({ s with exports := [(0, { v := true, w := false, tag := 7, count := 1, base := 0 })] } : State).exported z.2.tag
        (localOf reduction.base + 2 * reduction.width) reduction.width true) = false ∧
    s.homeWindow 1 7 5 2 = some reduction ∧ reduction.rounds = [] ∧ reduction.closed.get 0 2 = 0 ∧
    (∃ d ∈ reduction.members, d ≠ 5 ∧ s.cutOff.contains d = false) ∧
    c.homeWindow 1 7 5 2 = some { reduction with closed := [(2, 3)] } ∧ 1 < ({ reduction with closed := [(2, 3)] } : Window).closed.get 0 2 ∧
    linked.difUp.getLsbD 2 = true ∧ linked.seenUpdates.contains (4, 5, 6) = false ∧ linked.openRounds = [] ∧
    ({ linked with seenUpdates := [(4, 5, 6)] } : State).seenUpdates.contains (4, 5, 6) = true ∧ w.updates[0]? = some u ∧ w.openRounds = [] ∧
    2 ≤ u.round ∧ (∀ z ∈ w.updates.eraseIdx 0, ⟨⟨0, 0⟩, 5, 4, true⟩ ∉ z.sent) ∧ w.place remoteAddr = .remote ∧ (w.job 1).palletAt 0x40 = none := by decide

theorem witness_Channels :
    let r (k : Nat) (h : Option Nat) : State := { demo with phys := [(3, { running := some k, held := h })] }
    (demo.phy 3).running = none ∧ ((r 3 none).phy 3).running = some 3 ∧ ((r 1 none).phy 3).held = none ∧
    ((r 1 (some 2)).phy 3).held ≠ none ∧ ((r 1 none).phy 3).deferred = [] ∧
    ((0xA09F : BitVec 64).getLsbD 15 = true → 32 ≤ (0xA09F : BitVec 64).toNat / 256 % 64) ∧
    ((0xA09F : BitVec 64).getLsbD 7 = true → (0xA09F : BitVec 64).toNat % 64 ≤ 31) ∧
    (0x9F00 : BitVec 64).toNat / 256 % 64 < 32 ∧ (0x9F00 : BitVec 64).getLsbD 15 = true ∧ 31 < (0xA0 : BitVec 64).toNat % 64 ∧
    (0xA0 : BitVec 64).getLsbD 7 = true := by decide

/-- Every channel's training has ended, on n of them well. -/
def trained (n : Nat) : State :=
  { demo with sec := { stage := 4 }, phys := (List.range 256).map (fun c => (c, ({ result := if c < n then 1 else 2 } : Phy))) }
theorem witness_Resets :
    (trained 256).sec.stage = 4 ∧ (trained 256).sec.result = 0 ∧ (List.range 256).all (fun c => decide (((trained 256).phy c).result ≠ 0)) = true ∧
    (trained 256).trained = 256 ∧ (trained 255).trained = 255 ∧ State.reset.sec.stage ≠ 4 ∧ (4 : Nat) < 5 ∧
    ({ demo with sec := { policy := 2 } } : State).sec.policy = 2 ∧ demo.sec.policy = 0 ∧ demo.sec.flash = 0 ∧
    ({ demo with sec := { flash := 7 } } : State).sec.flash.setWidth 2 = (3 : BitVec 2) ∧
    ({ demo with sec := { flash := 4, failedChecks := 2 } } : State).sec.flash = 4 ∧ 3 ≤ (trained 256).sec.stage.toNat ∧
    (trained 256).sec.hmode = false ∧ State.reset.sec.stage.toNat < 3 ∧ demo.sec.failedChecks < 3 ∧
    ({ demo with sec := { image := [7, 9] } } : State).sec.image.length = 2 ∧
    ({ trained 256 with sec := { stage := 4, result := 5 } } : State).sec.diesStopped = false := by decide
/-- Table 24.3, 19 Table 19.6: no good copy of the stage-1 image is result 2; the third failed check is an alarm. -/
theorem test_firmware_rejected :
    (match exec .powerUp { demo with sec := { flash := 3, failedChecks := 2 } } with
     | .next x => decide (x.sec.stage = 2) && decide (x.sec.result = 2) && decide (x.sec.failedChecks = 2)
     | _ => false) = true ∧
    (match exec .warmReset { demo with sec := { flash := 3, failedChecks := 2 } } with
     | .next x => decide (x.sec.result = 5) && decide (x.sec.sensors = 16) && decide (x.sec.cause = 2)
     | _ => false) = true := by decide

/-! ## Further clauses: snoops that fail, links cut off, losses still being performed, two cores -/

/-- A load of the bundle that misses the TLB; a remote store that is sent, and one whose destination is cut off. -/
theorem witness_QueueAnswers_sent :
    let s := oneWord (.ld 4 1 3 5) 3 (tabled 0x3001F)
    let r : State := { demo with difEn := true, difUp := 1, ptags := [(1, 0x10005)] }
    s.missed 0 1 0x45 = true ∧ s.missed 0 1 0x10045 = false ∧ r.unsent 1 remoteAddr = false ∧
    ({ r with cutOff := [2] } : State).unsent 1 remoteAddr = true ∧ demo.unsent 1 remoteAddr = true ∧
    ({ demo with hostUp := true } : State).unsent 1 hostAddr = false ∧ demo.place remoteAddr = .remote := by decide
/-- Nothing holds up a record of the log, and the handler records nothing. -/
theorem witness_Observers_more :
    let s := watching 1 3
    s.coreOff 0 = false ∧ s.logWaits s.focus = false ∧ (watching 2 3).coreOff 0 = false ∧ demo.coreOff 0 = false ∧
    (oneWord (.vquery 3 2) 3 demo).offerable ⟨0, 0⟩ = true ∧ decodeSlot (oneWord (.vquery 3 2) 3 demo).here.bundle 3 = some (.vquery 3 2) ∧
    handling.here.logMode = 0 := by decide
/-- The loser of a pair has an access on its way: its context stops, and stays until the access has been performed. -/
theorem witness_Tasks_decide :
    let s (l : List LoadEntry) : State := launching.updHold 0 (fun h => { h with ctxs := h.ctxs.put 2 { demoCtx with task := 9, loadQ := l } })
    (s [aLoad 0x40 .plain]).taskContexts 9 ((s [aLoad 0x40 .plain]).coresFor demoCtx.owner) = [⟨0, 2⟩] ∧
    (s [aLoad 0x40 .plain]).clear [6, 7] [] = true ∧
    after (.decide 6 0) (s []) (fun x => !(x.ctx ⟨0, 2⟩).resident && x.here.pairs.isEmpty) = true ∧
    after (.decide 6 0) (s [aLoad 0x40 .plain]) (fun x => (x.ctx ⟨0, 2⟩).resident && (x.ctx ⟨0, 2⟩).squashed &&
      decide ((x.ctx ⟨0, 2⟩).loadQ.length = 1)) = true := by decide
/-- 10 R225: bytes 0x5000 and on, on their way to the one pallet of the range; and bytes past it. -/
theorem witness_CopyCommands_pref :
    let s (a : Word) : State := (tierTabled.updJob 1 (fun j => { j with tiered := [parseTiered tierDesc] })).updCtx ⟨0, 0⟩
      (fun c => { c with sregs := [(1, a), (2, 64), (4, 9)] })
    (s 0x5000).here.owner.boot = false ∧ (s 0x5000).clear [1, 2, 4] [] = true ∧
    (match (s 0x5000).translate 0 (s 0x5000).here.owner false 0 .read with | .ok _ => true | .error _ => false) = true ∧
    after (.pref 1 2 4) (s 0x5000) (fun x => decide ((x.part 1).moves = [⟨0, 1, 0, true, true⟩])) = true ∧
    after (.pref 1 2 4) (s 0x20000) (fun x => (x.part 1).moves.isEmpty) = true := by decide
/-- The core waits for its transition; of a gang's members one waits and one does not. -/
theorem witness_CoreCycle_waits :
    let s := demo.updCore 0 (fun c => { c with opBusy := true, opWait := true })
    let k : Gang := { lead := 0, members := [0, 1], skew := 0 }
    let g (b : Bool) : State := (demo.updHold 1 (fun h => { h with part := some 1, ctxs := [(0, { demoCtx with gang := some k, waiting := b })] })).updCtx
      ⟨0, 0⟩ (fun c => { c with gang := some k, waiting := true })
    (s.core 0).opWait = true ∧ s.coreOff 0 = false ∧ (g false).candidates 0 = [⟨0, 0⟩] ∧ (g true).candidates 0 = [] ∧
    (demoWith (fun c => { c with exiting := true })).here.logMode ≠ 2 ∧ demo.sec.diesStopped = false := by decide
/-- Records that are invalid, or of a job being lost; and one for cores 0 and 1, of which core 1's holder is swapped out. -/
def twoCores : List Byte := padTo 128 (toBytes 8 0x100 ++ toBytes 8 0xABCD ++ toBytes 16 0x55 ++ toBytes 8 0x66 ++ toBytes 16 0 ++
  toBytes 8 (2 ^ 0 + 2 ^ 1 + 2 ^ 56 + 3 * 2 ^ 46))
theorem witness_Doorbells_results :
    let lost := (mailbox 1 0).updJob 1 (fun j => { j with losing := true })
    let m := (demo.updCore 0 (fun c => { c with bootRec := twoCores.take 64 })).updCore 1 (fun c => { c with out := { part := some 1 } })
    (mailbox 1 0).doorbellJob 3 0 = some (1, 1) ∧ (mailbox 1 0).doorbellJob 3 1 = none ∧
    causes ((demo.updCore 0 (fun c => { c with bootRec := [1, 2, 3] })).doorbell 3 0 false) 2 = true ∧
    causes ((mailbox 1 2).doorbell 3 0 true) 2 = true ∧ causes (lost.doorbell 3 0 false) 1 = true ∧
    doorOk (m.doorbell 3 0 false) twoCores = true ∧ placeCores twoCores = [0, 1] ∧
    (∀ c ∈ placeCores twoCores, (m.core c).cur.part = some 1 ∨ (m.core c).out.part = some 1) ∧
    after (.bootDoorbellEnqueue 3 0 1) m (fun x => decide (((x.partHold 1 1).queue.map (fun e => e.stream)) =
      [splitStream (recKey twoCores) 0x66 (BitVec.ofNat 32 (2 ^ 31 + 1))]) && decide ((x.partHold 1 0).queue.length = 1) &&
      decide (x.agenda = [.event (.launchBind 0), .event (.launchBind 1)])) = true := by decide
/-- An earlier command waits; a snoop fails; a window's regions or status words wait for a line. -/
theorem witness_Registrations_waits :
    let fail (s : State) : State := { s with foreign := [some 20] }
    let behind : State := { demo with later := [.dropRegion 1 0] }
    let w := parseWindow 1 windowDesc
    behind.later.any (fun x => decide (commandJob x = some 1)) = true ∧ demo.snoopLost = false ∧ (fail demo).snoopLost = true ∧
    ({ demo with hostLines := [0x6040 / 64] } : State).snoopingRange 0x6000 128 = true ∧
    (described windowDesc).windowWaits w = false ∧
    ({ described windowDesc with hostLines := [0x20000 / 64] } : State).windowWaits w = true ∧
    ((tabled 0x3001F).updJob 1 (fun j => { j with regions := [region] })).windowWaits w = false ∧
    ({ (tabled 0x3001F).updJob 1 (fun j => { j with regions := [region] }) with hostLines := [0x110000 / 64] } : State).windowWaits w = true ∧
    demo.runInHbm 1 w.base w.span = true ∧ demo.runInHbm 1 w.status (8 * w.elements) = true ∧ demo.runInHbm 1 w.loss 128 = true ∧
    demo.runInHbm 1 0x3FFFFFC0 128 = false ∧ deviceOf w.base = demo.difIndex.toNat := by decide
/-- The host writes BOOT.CTL alone before stage 5 has ended; a snoop of the report's buffer fails. -/
theorem witness_RegisterWrites_early :
    demo.tooEarly (.host 0) (.partCtl 2) true = true ∧ demo.tooEarly (.host 0) .bootCtl true = false ∧
    hosted.tooEarly (.host 0) (.partCtl 2) true = false ∧ demo.tooEarly (.context 2) (.partCtl 2) true = false ∧
    ({ demo with hostLines := [0x4000 / 64], foreign := [some 20] } : State).snoopLost = true := by decide
/-- The save slot's lines are the host's, or not. -/
theorem witness_Swapping_waits :
    (swapping true).saveWaits 1 0 = false ∧ ({ swapping true with hostLines := [64] } : State).saveWaits 1 0 = true := by decide
/-- A loss whose context still has an access, and after its last one; a ring slot that the host holds. -/
theorem witness_JobLoss_drains :
    let l (b : Bool) : Loss := { job := 1, draining := b, record := List.replicate 256 53, progress := [] }
    let s (q : List LoadEntry) (b : Bool) : State :=
      ((watched 0).updPart 1 (fun p => { p with losses := [l b] })).updCtx ⟨0, 0⟩ (fun c => { c with stopped := true, loadQ := q })
    let held : State := { s [] false with hostLines := [0x8000 / 64] }
    (s [aLoad 0x40 .plain] true).jobContexts 1 1 = [⟨0, 0⟩] ∧ (s [] true).outCores 1 = [] ∧
    after (.lossReport 1) (s [aLoad 0x40 .plain] true) (fun x => x.here.resident) = true ∧
    after (.lossReport 1) (s [] true) (fun x => !x.here.resident) = true ∧ held.eventWaits 1 = true ∧ (s [] false).eventWaits 1 = false ∧
    after (.lossReport 1) held (fun x => decide ((x.part 1).losses.length = 1)) = true ∧
    after (.lossReport 1) { held with foreign := [some 20] } (fun x => (x.part 1).losses.isEmpty && decide ((x.part 1).evLost = 1)) = true ∧
    after (.killJob 1 1) (queued [aLoad 0x40 .plain] []) (fun x => x.here.resident && x.here.stopped && decide (x.here.loadQ.length = 1)) = true ∧
    (watched 0).eventWaits 1 = false := by decide
/-- Errors in state of no job where a partition runs, or is swapped out; a bulk row, and a queue with one context's command. -/
theorem witness_JobLoss_state :
    let o := demo.updCore 0 (fun c => { c with out := { part := some 1 } })
    (demo.hold 0).part = some 1 ∧ (demo.job 1).en = true ∧ (demo.job 1).part.toNat = 1 ∧ (demo.job 1).losing = false ∧
    after (.uncorrectableError (.coreState 0)) demo (fun x => (x.job 1).losing && decide ((x.core 0).eccState = 1)) = true ∧
    (o.core 0).out.part = some 1 ∧ after (.uncorrectableError (.shadow 0 none)) o (fun x => (x.job 1).losing) = true ∧
    after (.uncorrectableError (.bulk 0 2048)) demo (fun x => ((x.core 0).bulk.get invalidRow 2048).poison) = true ∧
    ((unit (fun m => { m with queue := [.fmt 3 5 0] })).matrix 0).queue = .fmt 3 5 0 :: [] ∧
    (demo.matrix 0).queue = [] ∧ (demo.hold 0).matrixHeld = false ∧ (demo.ctx ⟨0, 5⟩).resident = false := by decide
/-- A promote that meets poison in the low copy, or whose snoop fails; the low copy of a tiered range. -/
theorem witness_Pallets_more :
    let s := tiered { st := .movingUp, frame := 2 } []
    let low := 2 ^ 40 + 0x50000
    s.poisonedRange low 65536 = false ∧ ({ s with poison := [s.key low / 64 + 3] } : State).poisonedRange low 65536 = true ∧
    ({ s with hostLines := [0x220040 / 64], foreign := [some 20] } : State).moveSnoops 1 77 0x220000 = true ∧
    ({ s with hostLines := [0x220040 / 64], foreign := [some 20] } : State).snoopLost = true ∧ s.snoopLost = false ∧
    low % 65536 = 0 ∧ ((s.job 1).palletAt 77).any (fun x => decide (x.1.low = low)) = true := by decide
/-- A group that the other holder does not use; a transition on its way up. -/
theorem witness_Ageing_used :
    ageing.groupUsed (ageing.core 0).out (ageing.physGroup 0 3) = false ∧ ({ ageing with sec := { diesStopped := true } } : State).sec.diesStopped = true ∧
    (demo.updCore 0 (fun c => { c with opBusy := true, opUp := true, opEff := 5 })).effectivePoint 0 = 5 := by decide
/-- A decoder's range; no request or record waits for the host's line. -/
theorem witness_HostAccesses_decoder :
    let s : State := { hosted with hdm := [(0, some (0x9000, 4096))], sec := { hosted.sec with hmode := true } }
    s.hostHbm 256 0x9002 2 = true ∧ s.hostHbm 256 0xA000 2 = false ∧ hosted.difWaiting = [] ∧
    (∀ p ∈ hosted.parts, p.2.evWaiting = []) := by decide
/-- Requests that meet a line of the host; a contribution into a retired frame; a port's first coming up, and a later one. -/
theorem witness_Links_more :
    let s := linked.updPart 1 (fun p => { p with windows := [reduction] })
    let h : State := { linked with hostLines := [0x9000 / 64] }
    h.exported 7 0x9000 4 false = true ∧ h.snoopingRange (h.physical 0x9000) 4 = true ∧ h.snoopLost = false ∧
    ({ h with foreign := [some 20] } : State).snoopLost = true ∧
    after (.difosalRequest 5 7 (.read 0x9000 4)) h (fun x => decide (x.difWaiting.length = 1) && x.difReplies.isEmpty) = true ∧
    s.retired (reduction.base + 2 * reduction.width) = false ∧
    (s.updPart 1 (fun p => { p with retired := [(0, some 1)] })).retired (reduction.base + 2 * reduction.width) = true ∧
    linked.difUp.getLsbD 3 = false ∧ linked.portEpochs.get 0 3 = 0 ∧
    after (.portUp 3) { linked with portEpochs := [(3, 4)] } (fun x => decide (x.sentUpdates = [⟨0, 3, 4, true, 12⟩])) = true ∧
    after (.linkStateUpdate 4 5 6 true [] []) linked (fun x => decide (x.sentUpdates = [⟨4, 5, 6, true, 4⟩])) = true ∧
    after (.linkStateUpdate 4 5 6 false [1] [2]) linked (fun x => decide (x.cutOff = [2]) && decide (x.updates.length = 1)) = true := by decide

theorem witness_DecodeEncode : Instr.wf (.movs 0 4 0x4567) = true ∧ homeSlot (.movs 0 4 0x4567) = some 1 ∧ Instr.wf .mswap = true := by
  decide
theorem witness_EncodeDecode :
    decodeClass .scalar 0xA4084567 = some (.movs 0 4 0x4567) ∧ decodeMicro 0x5000000000000000 = some .mswap := by decide
theorem witness_StepRunsDecoded :
    let s := oneWord (.addi 0 3 2 5) 1 demo
    let u := oneWord .eret 0 demo
    let m := (running runState).updMatrix 0 (fun m => { m with words := [(77, 0x5000000000000000)] })
    ({ demo with agenda := [.event .packageTrip] } : State).agenda = [.event .packageTrip] ∧ Instr.wf .packageTrip = true ∧
    Instr.wf (.launchBind 5000) = false ∧ m.agenda = [.micro 0] ∧ (m.matrix 0).run = some runState ∧
    decodeMicro ((m.matrix 0).words.get 0 runState.pc) = some .mswap ∧ homeSlot (.addi 0 3 2 5) = some 1 ∧
    Instr.wf (.addi 0 3 2 5) = true ∧ s.here.exiting = false ∧ s.here.incoming = none ∧ s.here.gang = none ∧ s.agenda = [] ∧ s.turn = false ∧ s.coreOff 0 = false ∧
    s.here.bundle.toNat = ((encode (.addi 0 3 2 5)).getD 0).toNat * 2 ^ (32 * 1) ∧
    (s.candidates 0).head? = some s.focus ∧
    decide ((s.offer s.focus).2 = .issued) = true ∧ decide ((u.offer u.focus).2 = .trapped) = true ∧
    ((oneWord (.oppt 3) 0 (demo.updCore 0 (fun c => { c with opBusy := true }))).offer s.focus).2 = .frozen ∧
    ((s.updCore 0 (fun c => { c with window := List.replicate 63 3072 })).core 0).limited (s.bundleWeight s.focus) = true := by decide
/-- A step of demo that runs its one word: s3 is 12. -/
theorem test_step_runs :
    (match step (oneWord (.addi 0 3 2 5) 1 demo) with
     | .next x => decide ((x.ctx ⟨0, 0⟩).sreg 3 = 12) && decide ((x.ctx ⟨0, 0⟩).index = 3)
     | _ => false) = true := by decide
theorem witness_StepKeepsMemoryForm :
    State.reset.memWf = true ∧ hosted.memWf = true ∧ (match step hosted with | .next _ => true | _ => false) = true := by decide

end Sys2Proof.Tests
end

section
/-! SUPPORT. The instructions of the S and V slots at issue: which word has no effect when its predicate fails, and what a
masked write does to the lanes of a vector register; and the statements about them. -/
namespace Sys2Proof.Machine

/-- An instruction that has a slot is issued there, with the meaning of its word (02 R30). -/
theorem exec_of_homeSlot {i : Instr} {k : Nat} (hk : homeSlot i = some k) (s : State) :
    exec i s = issueOne k i (semOf i) s := by
  cases i <;> cases hk <;> rfl

/-! ## Words whose predicate fails (02 R32) -/

/-- What issuing a word looks at whatever its predicate: it is an unprivileged instruction that neither changes the
allotment nor raises a trap after its bundle, and vs are the vector registers it names. -/
structure Sem.Guarded (m : Sem) (vs : List (BitVec 6)) : Prop where
  legal : m.ill = false
  user : m.priv = false
  after : m.after = none
  grow : m.grow = none
  shrink : m.shrink = none
  names : m.vr ++ m.vw = vs.map BitVec.toNat

/-- Such a word has no effect when its predicate fails and its vector registers are in the allotment (05 R105). -/
theorem Sem.Guarded.next {m : Sem} {vs : List (BitVec 6)} (h : m.Guarded vs) {s : State} {k : Nat} {i : Instr}
    (hs : s.plain = true) (hw : i.wf = true) (hq : predHolds s.here m.pred = false)
    (hall : ∀ v ∈ vs, v.toNat < s.here.allot) : issueOne k i m s = .next s.advance := by
  refine inactive_next hs hw h.legal h.user h.after hq (allotTrap_none (fun n hn => ?_) h.grow h.shrink)
  rw [h.names] at hn
  obtain ⟨v, hv, rfl⟩ := List.mem_map.1 hn
  exact hall v hv

/-- Bits [25:22] of the word of an S or V slot are its predicate. -/
theorem semOf_pred {i : Instr} {k : Nat} {w : SlotWord} (hk : homeSlot i = some k) (hslot : k = 1 ∨ k = 4)
    (he : encode i = some w) : (semOf i).pred = fld w 22 4 := by
  rcases hslot with rfl | rfl <;> cases i <;> cases hk
  all_goals
    cases he
    simp (disch := decide) only [fld_append_low, fld_append_high, fld_all, Nat.reduceSub]
    rfl

/-- No instruction of the S slots names a vector register. -/
theorem semOf_guarded_scalar {i : Instr} (hk : homeSlot i = some 1) : (semOf i).Guarded [] := by
  cases i <;> cases hk <;> exact ⟨rfl, rfl, rfl, rfl, rfl, rfl⟩

/-- The instructions of the V slots, by the vector registers they name. -/
theorem semOf_guarded_vector {i : Instr} (hk : homeSlot i = some 4) : ∃ vs, (semOf i).Guarded vs := by
  cases i with
  | vFadd _ d a b | vFsub _ d a b | vFmul _ d a b | vFmin _ d a b | vFmax _ d a b | vAdd _ d a b | vSub _ d a b
  | vMul _ d a b | vMin _ d a b | vMax _ d a b | vAnd _ d a b | vOr _ d a b | vXor _ d a b | vShl _ d a b
  | vShr _ d a b | vSar _ d a b | vSel _ d a b | perm _ d a b => exact ⟨[a, b, d], rfl, rfl, rfl, rfl, rfl, rfl⟩
  | vFma _ d a b | vFshl _ d a b | vFshr _ d a b => exact ⟨[a, b, d, d], rfl, rfl, rfl, rfl, rfl, rfl⟩
  | fabs _ d a | fneg _ d a | rcp _ d a | rsqrt _ d a | exp2 _ d a | log2 _ d a | cvt _ d a | vShli _ d a | vShri _ d a
  | vSari _ d a | bcast _ d a | chkb _ d a | red _ d a | scan _ d a | sampc _ d a =>
    exact ⟨[a, d], rfl, rfl, rfl, rfl, rfl, rfl⟩
  | rotm _ d a => exact ⟨[a, d, d], rfl, rfl, rfl, rfl, rfl, rfl⟩
  | rndb _ d | rndf _ d | rndi _ d => exact ⟨[d], rfl, rfl, rfl, rfl, rfl, rfl⟩
  | cmpm _ _ a b | mpush _ _ a b => exact ⟨[a, b], rfl, rfl, rfl, rfl, rfl, rfl⟩
  | minv | mpop => exact ⟨[], rfl, rfl, rfl, rfl, rfl, rfl⟩
  | _ => nomatch hk

/-! ## Lanes of a register (05 R104) -/

/-- Bit i of lane j is bit w·j + i of the register. -/
theorem testBit_lane {w i : Nat} (hi : i < w) (r : Row) (j : Nat) :
    (lane w r j).testBit i = r.getLsbD (w * j + i) := by
  simp [lane, Nat.testBit_mod_two_pow, Nat.testBit_div_two_pow, hi, BitVec.getLsbD, Nat.add_comm]

/-- Registers that agree on the bits of lane j hold the same lane. -/
theorem lane_congr {w j : Nat} {r t : Row} (h : ∀ i < w, r.getLsbD (w * j + i) = t.getLsbD (w * j + i)) :
    lane w r j = lane w t j := by
  refine Nat.eq_of_testBit_eq fun i => ?_
  by_cases hi : i < w
  · rw [testBit_lane hi, testBit_lane hi, h i hi]
  · simp [lane, Nat.testBit_mod_two_pow, hi]

theorem testBit_lanesNat {w i : Nat} (hi : i < w) (l : List Nat) (j : Nat) :
    (lanesNat w l).testBit (w * j + i) = (l.getD j 0).testBit i := by
  induction l generalizing j with
  | nil => simp [lanesNat]
  | cons x t ih =>
    rw [lanesNat, Nat.add_comm, Nat.testBit_two_pow_mul_add _ (Nat.mod_lt _ (Nat.two_pow_pos w))]
    cases j with
    | zero => simp [hi, Nat.testBit_mod_two_pow]
    | succ j =>
      rw [if_neg (by rw [Nat.mul_succ]; omega), Nat.mul_succ,
        show w * j + w + i - w = w * j + i by omega, ih, List.getD_cons_succ]

theorem laneBit_lt {w i j : Nat} (hi : i < w) (hj : j < 1024 / w) : w * j + i < 1024 :=
  calc w * j + i < w * (j + 1) := by rw [Nat.mul_succ]; omega
    _ ≤ w * (1024 / w) := Nat.mul_le_mul_left w hj
    _ ≤ 1024 := Nat.mul_div_le 1024 w

/-- 05 R106: the bits of lane j are in the mask when bit j of the lane mask is set. -/
theorem getLsbD_laneBits {w i j : Nat} (hw : 16 ≤ w) (hi : i < w) (hj : j < 1024 / w) (m : Word) :
    (laneBits w m).getLsbD (w * j + i) = m.getLsbD j := by
  have hbit : w * j + i < 1024 := laneBit_lt hi hj
  unfold laneBits
  split
  case isTrue hm =>
    have hlane : j < 64 := hj.trans_le (Nat.div_le_div_left hw (by decide))
    rw [hm, allOnes, BitVec.getLsbD_allOnes, BitVec.getLsbD_allOnes, decide_eq_true hbit, decide_eq_true hlane]
  case isFalse =>
    rw [ofLanes, BitVec.getLsbD_ofNat, testBit_lanesNat hi]
    cases hb : m.getLsbD j <;> simp [hj, hb, hi, hbit]

/-- 05 R106: a masked write puts the active lanes and keeps the others. -/
theorem lane_setV_laneBits {w j : Nat} (hw : 16 ≤ w) (hj : j < 1024 / w) (c : Ctx) (n : Nat) (v : Row) (m : Word) :
    lane w ((c.setV n v (laneBits w m)).vreg n) j = if m.getLsbD j then lane w v j else lane w (c.vreg n) j := by
  have hread : (c.setV n v (laneBits w m)).vreg n = (c.vreg n &&& ~~~(laneBits w m)) ||| (v &&& laneBits w m) := by
    simp [Ctx.setV, Ctx.vreg]
  rw [hread, ← apply_ite (fun r => lane w r j)]
  refine lane_congr fun i hi => ?_
  have hmask := getLsbD_laneBits hw hi hj m
  simp only [BitVec.getLsbD_or, BitVec.getLsbD_and, BitVec.getLsbD_not, hmask, laneBit_lt hi hj]
  cases m.getLsbD j <;> simp

/-! ## The statements -/

/-- Settles O1: each instruction is of the shape that alu_next speaks of, with its own operation and latency. -/
theorem integerResults : Obligations.IntegerResults := by
  intro s p d a b f h x y
  and_intros <;> exact alu_next h rfl

/-- Settles O5: the word of an S or V slot is inactive and names no register beyond the allotment; a masked write reaches
the active lanes alone. -/
theorem predicateOff : Obligations.PredicateOff := by
  refine ⟨fun s i k w hk hslot he hw hs hall hq => ?_, fun c n w j v m hwidth hj => ?_⟩
  · rw [← semOf_pred hk hslot he] at hq
    rw [exec_of_homeSlot hk]
    rcases hslot with rfl | rfl
    case inl => exact (semOf_guarded_scalar hk).next hs hw hq (by simp)
    case inr =>
      obtain ⟨vs, hg⟩ := semOf_guarded_vector hk
      exact hg.next hs hw hq (fun v _ => by rw [hall rfl]; exact v.isLt)
  · exact lane_setV_laneBits (by omega) hj c n v m

end Sys2Proof.Machine
end

section
/-! SUPPORT. The integer instructions of the V slots: one lemma for each shape of them, and the statement about them. -/
namespace Sys2Proof.Machine

/-! ## The shapes of an integer instruction of the V slots (05 R113, R114) -/

section Integer

variable {s : State} {p t : BitVec 4} {d a b n : BitVec 6} {i : Instr}

/-- 05 R113: an operation on the lanes of va and vb. -/
theorem intSem_next {f : Nat → Nat → Nat → Nat} (h : s.can p [] [d, a, b] = true) (hw : i.wf = true) :
    issueOne 4 i (intSem p d a b t f) s = .next (s.lanes 1 (laneWidth t) d
      (map2 (laneWidth t) (f (laneWidth t)) (s.here.vreg a.toNat) (s.here.vreg b.toNat))).advance :=
  vec_next h hw

/-- 05 R113: a shift of the lanes of va by the immediate; the word names no register vb. -/
theorem shiftImmSem_next {f : Nat → Nat → Nat → Nat} (h : s.can p [] [d, a] = true) (hw : i.wf = true) :
    issueOne 4 i (shiftImmSem p d a n t f) s = .next (s.lanes 1 (laneWidth t) d
      (map1 (laneWidth t) (fun x => f (laneWidth t) x n.toNat) (s.here.vreg a.toNat))).advance :=
  vec_next h hw

/-- 05 R114: a funnel shift reads its amounts in vd, the register it writes. -/
theorem funnelSem_next {f : Nat → Nat → Nat → Nat → Nat} (h : s.can p [] [d, a, b] = true) (hw : i.wf = true) :
    issueOne 4 i (funnelSem p d a b t f) s = .next (s.lanes 1 (laneWidth t) d
      (map3 (laneWidth t) (f (laneWidth t)) (s.here.vreg a.toNat) (s.here.vreg b.toNat) (s.here.vreg d.toNat))).advance :=
  vec_next (State.can_sub h (fun _ hr => hr) (by simp)) hw

end Integer

/-! ## The statement -/

/-- Settles O23: each instruction is of one of the three shapes, with its own lane operation; the type is an integer
type, and the amount of an immediate shift is below the lane width, as the words' coded fields ask (02 R33). -/
theorem vectorIntegerResults : Obligations.VectorIntegerResults := by
  intro s p t d a b i h hlow hhigh w x y z
  have ht : isInteger t = true := decide_eq_true ⟨hlow, hhigh⟩
  refine ⟨?add, ?sub, ?mul, ?min, ?max, ?and, ?or, ?xor, ?shl, ?shr, ?sar, ?fshl, ?fshr, fun hi => ?imm⟩
  case fshl | fshr => exact funnelSem_next h ht
  case imm =>
    have himm : s.can p [] [d, a] = true := State.can_sub h (fun _ hr => hr) (by simp)
    have hwf : (isInteger t && decide (i.toNat < laneWidth t)) = true := by rw [ht, decide_eq_true hi]; rfl
    exact ⟨shiftImmSem_next himm hwf, shiftImmSem_next himm hwf, shiftImmSem_next himm hwf⟩
  all_goals exact intSem_next h ht

end Sys2Proof.Machine
end
